-- ==== Sys2Proof/Word.lean ====
section
/-! DEFINITION. The word types of Lendor's registers, payloads and lines (R9, R10, R13). -/

namespace Sys2Proof

/-- One byte. -/
abbrev Byte := BitVec 8

/-- A register of the mailbox window (R13). -/
abbrev W32 := BitVec 32

/-- A 64-bit field of a payload (R9). -/
abbrev W64 := BitVec 64

/-- The bytes of one 128-byte line, byte 0 in bits [7:0] (R9, R366). -/
abbrev LineData := BitVec 1024

/-- The byte enables of one line, bit b for byte b (R397). -/
abbrev LineMask := BitVec 128

end Sys2Proof
end

