-- ==== Sys2Proof/Word/Operand.lean ====
section
/-! DEFINITION. The types of the operands that the commands of Syntax.lean carry. What another unit reports to Lendor (an
engine, a peer chip, a sensor, the host link, a cryptographic check) is an operand of the command that brings the report. -/

namespace Sys2Proof

/-- A mailbox of the window (R49): one per partition, and three chip-level ones. -/
inductive Mailbox where
  | part (n : Nat)
  | manager
  | security
  | debug
deriving DecidableEq, Repr

/-- The thirteen status codes of R20 and R74. -/
inductive Status where
  | ok | deferred | rejectedInconsistent | notPermitted | contextLost | staleGeneration | poisoned
  | stepRetry | peerReset | abandoned | versionUnsupported | faultTranslation | faultRange
deriving DecidableEq, Repr

/-- Hawk takes the oldest SUBMITTED slot of a mailbox (R76). `host` is what the host link returns for the read of an
indirect request (R66): the bytes as one little-endian number, or none when the read fails. `altered`: the request that Hawk relays to the security
core in place of the one that was latched (R459); none: the latched one; it means nothing where the island does not serve. -/
structure Take where
  mb      : Mailbox
  host    : Option Nat
  altered : Option (BitVec 2048)
deriving DecidableEq, Repr

/-- Page entries that the host link returns for a run of a host copy (R331, R345 check 10); none: the read failed. -/
abbrev HostTable := Option (List W64)

/-- The error state in which stored bytes of a line or tag line are found (R373). -/
inductive EccEvent where
  | clean | correctable | uncorrectable
deriving DecidableEq, Repr

/-- Who asks at a gate lane (R361, R363, R244): a row or the batch tag of an engine's running batch, an engine's running
WORK, a peer chip, Lendor itself for an object of a partition in the class of its ring or sequence (R210) or for its control traffic, a DMA master (PCIe
inbound or peer-to-peer) or a debug master. `unit` tells which of Lendor's units asks, for the credits that are its own (R200, R203): the completion channel
of engine 0 to 127, or 128 and more for a control unit. -/
inductive Requester where
  | row (engine index : Nat) (parityOk : Bool)
  | batch (engine : Nat) (parityOk : Bool)
  | work (engine : Nat)
  | peer (node span : Nat) (port : Nat) (cls : Nat)
  | lendor (part cls unit : Nat)
  | control (unit : Nat)
  | dma
  | debug
deriving DecidableEq, Repr

/-- A key selector (R327): the protected range and the tweak of the context that owns the segment. -/
structure Selector where
  range : Nat
  tweak : Nat
deriving DecidableEq, Repr

/-- What a gate lane is asked to do with a line. -/
inductive Access where
  | read (narrow : Bool)
  | write (data : LineData) (mask : LineMask) (narrow : Bool)
deriving DecidableEq, Repr

/-- A request at a gate lane (R361). `lane` is the lane of the field that the memory controller's interleave sends the line to: 0 to 15 in front of
the fast tier, 16 and 17 in front of the slow tier (R25; the spec gives no map, DESIGN CHOICE, notes/assumptions/81.md). `addr` is the physical address (R43). `ecc` and `tagEcc` are the error states in which
the lane finds the stored data and tag line when it consumes them (R373). `tile` names the tile the request belongs to,
`last` marks that tile's last byte, `waited` that the request waited more than 512 cc at the lane (R224). -/
structure GateReq where
  who    : Requester
  addr   : Nat
  sel    : Selector
  acc    : Access
  ecc    : EccEvent
  tagEcc : EccEvent
  tile   : Option Nat
  last   : Bool
  waited : Bool
  lane   : Nat
deriving DecidableEq, Repr

/-- What names the memory of a tile (R338, R248, R280). -/
inductive TileAddr where
  | ctx (start rowBytes rows stride : Nat)
  | gather (offset : Nat)
  | kv (pos offset bytes : Nat)
  | token
deriving DecidableEq, Repr

/-- The tag a tile names at an engine port (R238). -/
inductive TileTag where
  | row (index : Nat)
  | batch
  | work
deriving DecidableEq, Repr

/-- One tile at an engine's port (R338). -/
structure TileReq where
  engine : Nat
  tag    : TileTag
  addr   : TileAddr
  write  : Bool
deriving DecidableEq, Repr

/-- What an engine reports for a row it completes (R273). -/
structure RowReport where
  token : Nat
  stop  : Bool
deriving DecidableEq, Repr

/-- What an engine reports at a completion: SRAM bytes (R547) and the operation counts by index (R549). -/
structure EngineReport where
  sram : Nat
  ops  : List (Nat × Nat)
deriving DecidableEq, Repr

/-- A coherence message (R397) with its line data and byte enables. `ecc` is the error state in which the home's lane finds the
line when it reads memory for a request. On a probe, `state`, `dirty` and `data` tell what the agent's own cache holds (0: the
line sits in its spill buffer where it is dirty, else a RELEASE of it has gone out, R408); on DATA_GO, `data` and `mask` are what the agent sends. `reserved`: the header's reserved bits together, 0 in a message that keeps R397. -/
structure Msg where
  op      : Nat
  src     : Nat
  dst     : Nat
  domain  : Nat
  ticket  : Bool
  txn     : Nat
  state   : Nat
  dirty   : Bool
  noop    : Bool
  direct  : Bool
  status  : Status
  line    : Nat
  range   : Nat
  tag     : Nat
  tweak   : Nat
  cls     : Nat
  narrow  : Bool
  granule : Nat
  atomic  : Nat
  data    : LineData
  mask    : LineMask
  ecc     : EccEvent
  reserved : Nat := 0
deriving DecidableEq, Repr

/-- An import request from a peer chip (R314). -/
structure ImportReq where
  node   : Nat
  part   : Nat
  srcPart : Nat
  fence  : Nat
  gen    : BitVec 8
  key    : W32
  proxy  : Nat
deriving DecidableEq, Repr

/-- The exporter's answer to an import (R314). -/
inductive ImportAns where
  | grant (compat : Bool) (value : W64) (incarnation : W32)
  | refuse
  | refuseWidth
deriving DecidableEq, Repr

/-- Where a marker word comes from (R81, R83). -/
inductive BeatSource where
  | pin
  | port (p : Nat)
deriving DecidableEq, Repr

/-- A host read of a register (R13, R91): the requester and the access width in bits. -/
structure HostRead where
  requester : Nat
  width     : Nat
deriving DecidableEq, Repr

/-- A peer chip's answer to an access (R203): its status, and the `lost_reason` of R515 that its gate gives with a failing one (0: none; DESIGN CHOICE,
notes/assumptions/45.md). -/
structure PeerAnswer where
  status : Status
  reason : Nat
deriving DecidableEq, Repr

/-- What a peer's link control symbols tell of its Plumb (R81, R86): the state, and whether it is locked on its own pin. -/
structure PlumbReport where
  state : Nat
  pin   : Bool
deriving DecidableEq, Repr

/-- A link's training report (R592, R532): the peer's node, level, incarnation, Plumb state, whether that Plumb is locked on its own pin (R81),
and drift. -/
structure TrainReport where
  node        : Nat
  level       : Nat
  incarnation : W32
  plumb       : Nat
  pin         : Bool
  drift       : Bool
deriving DecidableEq, Repr

/-- An image slot as the security core finds it (R585, R586): whether it is well-formed, the header fields that choose between the two, and what its
signature is verified by (R460): the maker's public key x ‖ y, the signature r ‖ s, and SHA-384 over what it covers. -/
structure ImageSlot where
  wellFormed : Bool
  security   : Nat
  build      : W32
  commit     : Bool
  hash       : BitVec 384
  pub        : BitVec 768
  sig        : BitVec 768
deriving DecidableEq, Repr

/-- What an antifuse root row and its check row hold (R450). -/
structure RootRow where
  root  : BitVec 384
  check : BitVec 48
deriving DecidableEq, Repr

/-- A board record copy as read from the flash (R580); `valid`: magic, format and CRC are correct. -/
structure BoardRecord where
  valid       : Bool
  beatPorts   : BitVec 18
  beatTrim    : BitVec 16
  senseFitted : BitVec 8
  diodeFitted : BitVec 4
  traceFitted : BitVec 4
  traceInvert : BitVec 4
  i3cStatic   : BitVec 7
deriving DecidableEq, Repr

/-- What the units around Lendor show during a start (R531, R589): the island self-test, a TRNG draw for the start value; where a root is generated, the
draws for row A and row B, what a row reads back as where that is not what was burned, and what the row being burned holds if power fails then (R450,
R486); the two image slots, the two board records, the number of training
attempts and the unit that failed the last (none: trained), whether the incarnation write landed, the codes of the board
pairs, the native-capability reports, milliseconds taken, and the chip's node ID, whose source the spec does not give (DESIGN CHOICE,
notes/assumptions/60.md); and the words that the sections of the image that runs put into the memories of the control cores (R35): core, word and value. -/
structure StartEnv where
  selfTest   : Bool
  startValue : BitVec 128
  rootDrawA  : BitVec 1024
  rootDrawB  : BitVec 1024
  rowABack   : Option RootRow
  rowBBack   : Option RootRow
  rootCut    : Option RootRow
  imageA     : ImageSlot
  imageB     : ImageSlot
  recordA    : BoardRecord
  recordB    : BoardRecord
  attempts   : Nat
  failUnit   : Option Nat
  flashOk    : Bool
  pairCodes  : List (Nat × Nat)
  nativeCap  : BitVec 128
  startMs    : Nat
  node       : Nat
  coreWords  : List (Nat × Nat × W32)
deriving DecidableEq, Repr

/-- What the power core and the board senses report at a frame boundary: per-engine energy reports in nJ (R432), cycles
started per field (R172), the AVSBus transaction of the frame's rail (R442; none: no valid response), the sense and diode
samples (pair number and the code the sample shows, with the reading), the cycles denied to a partition (R224), the ticks for which
its engines were stretched (R130), the causes of R225 that lanes noted for it (QUEUE_FULL bit 0, STRETCH 1, LANE_ERROR 2), and the link buckets of which a request waited
more than 512 cc at its port while the bucket held bytes (R224): partition, port, and direction (0 out, 1 in); and the partitions of which a
write to the current area of dirty logging faulted (R512). -/
structure FrameEnv where
  energy  : List (Nat × Nat)
  cycles  : List Nat
  avs     : Option (Nat × Nat)
  samples : List (Nat × Nat × Nat)
  denied  : List (Nat × Nat × Nat)
  stretchTicks : List (Nat × Nat)
  causes  : List (Nat × Nat)
  linkWaits : List (Nat × Nat × Nat)
  areaFaults : List Nat
deriving DecidableEq, Repr

/-- One PCIe write to the doorbell window (R139): offset in the window, width in bytes, byte enables and data. -/
structure WindowWrite where
  offset  : Nat
  bytes   : Nat
  enables : Nat
  data    : Nat
deriving DecidableEq, Repr

/-- The four stamps of one offset exchange in quarter ticks (R90). -/
structure Exchange where
  t1 : Int
  t2 : Int
  t3 : Int
  t4 : Int
deriving DecidableEq, Repr

end Sys2Proof
end

