-- ==== Sys2Proof/Syntax.lean ====
section
/-! DEFINITION. The commands of Lendor: one constructor per row of spec/opcode_table.json, in the table's order, with the
row's operands. A mailbox command carries the take of its slot (`Take`); what it asks for stands in the latched request. -/

namespace Sys2Proof

/-- The commands and events of spec/opcode_table.json. -/
inductive Instr where
  | requestAreaWrite (mb : Mailbox) (slot : Nat) (word : Nat) (v : W32)
  | mbSubmit (mb : Mailbox) (v : W32)
  | mbDoneClear (mb : Mailbox) (v : W32)
  | vectorWrite (mb : Mailbox) (v : W32)
  | endSession (mb : Mailbox) (v : W32)
  | registerWrite (offset : Nat) (width : Nat) (v : W32)
  | tickLoRead (read : HostRead)
  | ctxWinSelWrite (part win : Nat) (v : W32)
  | ctxWinCtlWrite (part win : Nat) (v : W32)
  | parkedResume (mb : Mailbox) (slot : Nat)
  | hello (k : Take)
  | goodbye (k : Take)
  | ping (k : Take)
  | beatStatus (k : Take)
  | peerOffsets (k : Take)
  | partCreate (k : Take)
  | partStage (k : Take)
  | partCommit (k : Take)
  | partDestroy (k : Take)
  | partQuery (k : Take)
  | spanSet (k : Take)
  | drainCompleteFree (part : Nat)
  | ctxCreate (k : Take)
  | ctxDestroy (k : Take)
  | ringBind (k : Take)
  | ringUnbind (k : Take)
  | ctxQuery (k : Take)
  | schedSet (k : Take)
  | schedQuery (k : Take)
  | regSet (k : Take)
  | regQuery (k : Take)
  | cbgSet (k : Take)
  | baseLoad (k : Take)
  | baseSwap (k : Take)
  | seqOpen (k : Take)
  | seqClose (k : Take)
  | kvReserveFill (k : Take)
  | kvReserveDrain (k : Take)
  | kvReserveSetWater (k : Take)
  | seqQuery (k : Take)
  | fenceAlloc (k : Take)
  | fenceFree (k : Take)
  | fenceExport (k : Take)
  | fenceWithdraw (k : Take)
  | fenceImport (k : Take)
  | importRequest (port : Nat) (r : ImportReq)
  | importTimeout (mb : Mailbox) (slot : Nat)
  | wfgRead (k : Take)
  | segSyncLoad (k : Take) (table : HostTable)
  | segSyncEntries (k : Take) (table : HostTable)
  | segSyncUnload (k : Take)
  | segCheck (k : Take) (table : HostTable)
  | tlbInvalidate (k : Take)
  | tlbDrainEnd (mb : Mailbox) (slot : Nat)
  | migrateMode (k : Take)
  | rangeSet (k : Take)
  | maintStart (k : Take)
  | maintQuery (k : Take)
  | cohModeSet (k : Take)
  | pwrBudgetSet (k : Take)
  | pwrStateSet (k : Take)
  | keyDerive (k : Take)
  | keyDestroy (k : Take)
  | lcTransition (k : Take)
  | wipeSlots
  | destroyRoot
  | eraseUser (verified : Bool)
  | burnState
  | dbgCertLoad (k : Take) (v : Unit)
  | dbgCertClear (k : Take)
  | dbgCertRevoke (k : Take)
  | dbgChallenge (k : Take) (nonce : BitVec 256)
  | dbgResponse (k : Take) (v : Unit)
  | dirtyLogBegin (k : Take)
  | dirtyLogFlip (k : Take)
  | dirtyLogStop (k : Take)
  | ctxRevoke (k : Take)
  | revokeDrainEnd (ctx : Nat)
  | partReset (k : Take)
  | partResetConfig (k : Take)
  | partitionResetComplete (part : Nat)
  | dumpStart (k : Take)
  | dumpEnd (bytes : Nat)
  | logRead (k : Take) (dumpBytes : Nat)
  | digestSet (k : Take)
  | traceSet (k : Take)
  | breakSet (k : Take)
  | breakClear (k : Take)
  | breakResume (k : Take)
  | breakQuery (k : Take)
  | boardStatus (k : Take)
  | doorbell (w : WindowWrite)
  | push (offset bytes : Nat) (data : BitVec 512)
  | ringStateFill (ring : Nat)
  | descriptorFetch (ring : Nat) (host : Option (BitVec 512))
  | nop (ring : Nat)
  | work (ring engine : Nat)
  | prefill (ring : Nat)
  | wait (ring : Nat)
  | signal (ring : Nat)
  | workCompletion (engine : Nat) (r : EngineReport)
  | batchCompletion (engine : Nat) (rows : List RowReport) (r : EngineReport)
  | admissionCycle (field : Nat)
  | seqCacheFill (seq : Nat)
  | frameBoundary (env : FrameEnv)
  | floorWindowOpen
  | floorDue
  | floorWindowClose
  | thermalWindowClose (onDie : List Nat)
  | epochBoundary (flashOk : Bool)
  | wfgScanEnd (hostDescs : List (Nat × Nat × BitVec 512))
  | maintenanceSlot (bad : List (Nat × EccEvent))
  | rangeClearingDone (range : Nat)
  | gateRequest (g : GateReq)
  | tagFill (addr : Nat) (ecc : EccEvent)
  | sharedPoisonRewrite (group slot block : Nat) (copyEcc : EccEvent)
  | tile (t : TileReq)
  | tableWalk (field part key page : Nat) (ecc : EccEvent)
  | faultWaitExpiry (part slot : Nat)
  | tierMoveSwap (activity : Nat) (host : List LineData) (bad : List (Nat × EccEvent))
  | baseLoadEnd (group slot : Nat) (bad : List (Nat × EccEvent))
  | fetchShare (m : Msg)
  | fetchOwn (m : Msg)
  | fetchTransient (m : Msg)
  | upgrade (m : Msg)
  | storeThrough (m : Msg)
  | spill (m : Msg)
  | release (m : Msg)
  | atomic (m : Msg)
  | probeShare (m : Msg)
  | probeTake (m : Msg)
  | probeFlush (m : Msg)
  | probeKill (m : Msg)
  | done (m : Msg)
  | doneAck (m : Msg)
  | probeAck (m : Msg)
  | dataGo (m : Msg)
  | bounce (m : Msg)
  | ticket (m : Msg)
  | fill (m : Msg)
  | probeData (m : Msg)
  | spillData (m : Msg)
  | storeData (m : Msg)
  | snoopTimeout (home agent domain : Nat)
  | drainIdle (part : Nat)
  | saveDone (part : Nat)
  | restoreDone (part : Nat) (good : Bool)
  | wake (part : Nat)
  | d3hotEntry
  | d0Return
  | droopTrip (field sensor : Nat)
  | stretchReassign (field : Nat)
  | recoveryHoldEnd (field : Nat)
  | keepRampStep (field : Nat)
  | sensorMask (field sensor : Nat)
  | markerWord (src : BeatSource) (w : BitVec 96) (lag : Nat) (inverted : Bool)
  | beatSourceLoss
  | acquireTimeout
  | freeRunExpiry
  | slewAdjust
  | holdRelease (env : FrameEnv)
  | offsetPass (port : Nat) (x : List Exchange)
  | linkTrained (port : Nat) (r : TrainReport)
  | linkRequest (g : GateReq) (deadline : Nat) (drift : Bool)
  | proxyUpdate (fence : Nat) (value : W64)
  | proxyAbandon (fence : Nat)
  | resetNotice (port node : Nat) (incarnation : W32)
  | linkDown (port : Nat)
  | peerUnreachableExpiry (node : Nat)
  | watchdogFire (engine : Nat) (answers : Bool)
  | replayTimeout (engine : Nat)
  | coreWatchdogExpiry (core : Nat)
  | heartbeatTimeout
  | chipReset (env : StartEnv)
  | powerOn
  | pcieReset
  | digestWindowClose (part probe : Nat)
  | breakpointHit (core bp : Nat) (pc : W32)
  | sdaStuck
  | entdaa (addr : BitVec 7)
  | setdasa
  | mctpControl
  | getPdr
  | getSensorReading (sensor : Nat)
  | getStateSensorReadings (sensor : Nat)
  | setEventReceiver
  | bypass
  | idcode
  | samplePreload
  | mbxAccess (write : Bool) (offset : Nat) (v : W32)
  | extest
  | intest
  | internalScan
  | memAccess (addr : Nat) (write : Bool) (v : W32)
  | powerLoss
  | controlDomainError (unit : Nat) (syndrome : Nat)
  | agentCacheError (agent domain : Nat)
  | snoopFilterError (home line : Nat) (readable : Bool)
  | engineResetDone (engine : Nat)
  | importAnswer (mb : Mailbox) (slot : Nat) (a : ImportAns)
  | linkResponse (port access : Nat) (answer : PeerAnswer)
  | peerDriftAdvertisement (port : Nat) (plumb : PlumbReport) (drift : Bool)
  | tapReset
  | traceLaneOvercurrent (lane code : Nat)
  | traceFifoRoom (packets : Nat)
deriving DecidableEq, Repr

end Sys2Proof
end

