-- ==== Sys2Proof/Decode.lean ====
section
/-! DEFINITION. The words of commands: spec/opcode_table.json gives none of its rows any bits. -/

namespace Sys2Proof

/-- The command that a word spells by the table's bits. Every row of the table is an event or an operation with no bits of its own, so no word
spells one (DESIGN CHOICE, notes/assumptions/1.md). -/
def decodeTableWord (_nbits _w : Nat) : Option Instr := none

end Sys2Proof
end

