-- ==== Sys2Proof/Machine/Crypto.lean ====
section
/-! DEFINITION. The standard algorithms that the spec names (FIPS 180-4, FIPS 198-1, SP 800-108, FIPS 186-5, FIPS 197, IEEE 1619 and SP 800-38B give them, not the spec;
PRESUMED, notes/assumptions/98.md): SHA-384, HMAC-SHA-384 and the counter-mode KDF (R450, R457, R459), ECDSA over P-384 (R460, R475, R480), and AES-256 in XTS and CMAC (R364).
Messages are numbers read from their bytes with the first byte the most significant. -/

namespace Sys2Proof.Machine

/-- Goes on with a number once it is known as a numeral: the kernel then computes each value once. -/
def strict {α : Type} (n : Nat) (f : Nat → α) : α :=
  match n with
  | 0 => f 0
  | k + 1 => f (k + 1)

/-- The bytes of a little-endian number of a given length as a message. -/
def messageOf (len le : Nat) : Nat := (List.range len).foldl (fun m i => strict (m * 256 + le / 256 ^ i % 256) id) 0

/-! ### SHA-384 -/

/-- A word of a packed list of 64-bit words. -/
def word64 (s i : Nat) : Nat := s >>> (64 * i) % 2 ^ 64

/-- A 64-bit word turned right. -/
def rotr64 (x n : Nat) : Nat := x >>> n ||| (x <<< (64 - n)) % 2 ^ 64

/-- The constants of the 80 rounds. -/
def shaK : List Nat :=
  [0x428A2F98D728AE22, 0x7137449123EF65CD, 0xB5C0FBCFEC4D3B2F, 0xE9B5DBA58189DBBC, 0x3956C25BF348B538,
   0x59F111F1B605D019, 0x923F82A4AF194F9B, 0xAB1C5ED5DA6D8118, 0xD807AA98A3030242, 0x12835B0145706FBE,
   0x243185BE4EE4B28C, 0x550C7DC3D5FFB4E2, 0x72BE5D74F27B896F, 0x80DEB1FE3B1696B1, 0x9BDC06A725C71235,
   0xC19BF174CF692694, 0xE49B69C19EF14AD2, 0xEFBE4786384F25E3, 0x0FC19DC68B8CD5B5, 0x240CA1CC77AC9C65] ++
  [0x2DE92C6F592B0275, 0x4A7484AA6EA6E483, 0x5CB0A9DCBD41FBD4, 0x76F988DA831153B5, 0x983E5152EE66DFAB,
   0xA831C66D2DB43210, 0xB00327C898FB213F, 0xBF597FC7BEEF0EE4, 0xC6E00BF33DA88FC2, 0xD5A79147930AA725,
   0x06CA6351E003826F, 0x142929670A0E6E70, 0x27B70A8546D22FFC, 0x2E1B21385C26C926, 0x4D2C6DFC5AC42AED,
   0x53380D139D95B3DF, 0x650A73548BAF63DE, 0x766A0ABB3C77B2A8, 0x81C2C92E47EDAEE6, 0x92722C851482353B] ++
  [0xA2BFE8A14CF10364, 0xA81A664BBC423001, 0xC24B8B70D0F89791, 0xC76C51A30654BE30, 0xD192E819D6EF5218,
   0xD69906245565A910, 0xF40E35855771202A, 0x106AA07032BBD1B8, 0x19A4C116B8D2D0C8, 0x1E376C085141AB53,
   0x2748774CDF8EEB99, 0x34B0BCB5E19B48A8, 0x391C0CB3C5C95A63, 0x4ED8AA4AE3418ACB, 0x5B9CCA4F7763E373,
   0x682E6FF3D6B2B8A3, 0x748F82EE5DEFB2FC, 0x78A5636F43172F60, 0x84C87814A1F0AB72, 0x8CC702081A6439EC] ++
  [0x90BEFFFA23631E28, 0xA4506CEBDE82BDE9, 0xBEF9A3F7B2C67915, 0xC67178F2E372532B, 0xCA273ECEEA26619C,
   0xD186B8C721C0C207, 0xEADA7DD6CDE0EB1E, 0xF57D4F7FEE6ED178, 0x06F067AA72176FBA, 0x0A637DC5A2C898A6,
   0x113F9804BEF90DAE, 0x1B710B35131C471B, 0x28DB77F523047D84, 0x32CAAB7B40C72493, 0x3C9EBE0A15C9BEBC,
   0x431D67C49C100D4C, 0x4CC5D4BECB3E42B6, 0x597F299CFC657E2A, 0x5FCB6FAB3AD6FAEC, 0x6C44198C4A475817]

/-- The chaining value that SHA-384 starts from, its first word lowest. -/
def shaStart : Nat :=
  0x47B5481DBEFA4FA4DB0C2E0D64F98FA78EB44A876858151167332667FFC00B31152FECD8F70E59399159015A3070DD17629A292A367CD507CBBB9D5DC1059ED8

/-- A round: the working words with `a` lowest become those of the next. -/
def shaRound (s k w : Nat) : Nat :=
  let a := word64 s 0
  let b := word64 s 1
  let c := word64 s 2
  let e := word64 s 4
  let f := word64 s 5
  let g := word64 s 6
  let t := word64 s 7 + (rotr64 e 14 ^^^ rotr64 e 18 ^^^ rotr64 e 41) + ((e &&& f) ^^^ ((2 ^ 64 - 1 - e) &&& g)) + k + w
  let u := (rotr64 a 28 ^^^ rotr64 a 34 ^^^ rotr64 a 39) + ((a &&& b) ^^^ (a &&& c) ^^^ (b &&& c))
  (t + u) % 2 ^ 64 + 2 ^ 64 * (s % 2 ^ 192) + 2 ^ 256 * ((word64 s 3 + t) % 2 ^ 64) + 2 ^ 320 * (s >>> 256 % 2 ^ 192)

/-- The next window of 16 message words. -/
def shaWindow (w : Nat) : Nat :=
  let x := word64 w 1
  let y := word64 w 14
  let n := (rotr64 y 19 ^^^ rotr64 y 61 ^^^ y >>> 6) + word64 w 9 + (rotr64 x 1 ^^^ rotr64 x 8 ^^^ x >>> 7) + word64 w 0
  w >>> 64 + 2 ^ 960 * (n % 2 ^ 64)

/-- The rounds of a block. -/
def shaRounds : List Nat → Nat → Nat → Nat
  | [], s, _ => s
  | k :: t, s, w => strict (shaRound s k (word64 w 0)) fun s => strict (shaWindow w) fun w => shaRounds t s w

/-- Packs eight words. -/
def packWords (f : Nat → Nat) (n : Nat) : Nat := (List.range n).foldl (fun m i => m + 2 ^ (64 * i) * f i) 0

/-- The chaining value after a block, which is a number of 1,024 bits with the first word highest. -/
def shaBlock (h block : Nat) : Nat :=
  strict (packWords (fun i => word64 block (15 - i)) 16) fun w =>
    strict (shaRounds shaK h w) fun s => strict (packWords (fun i => (word64 h i + word64 s i) % 2 ^ 64) 8) id

/-- SHA-384 of a message of `len` bytes. -/
def sha384 (len m : Nat) : Nat :=
  let blocks := (len + 144) / 128
  strict ((2 * m + 1) * 2 ^ (1024 * blocks - 8 * len - 1) + 8 * len) fun padded =>
    let h := (List.range blocks).foldl (fun h i => strict (shaBlock h (padded >>> (1024 * (blocks - 1 - i)) % 2 ^ 1024)) id) shaStart
    strict h fun h => packWords (fun i => word64 h (5 - i)) 6

/-! ### HMAC-SHA-384 and the KDF in counter mode -/

/-- HMAC-SHA-384 of a message of `len` bytes under a key of `klen` bytes, at most 128. -/
def hmac384 (klen key len m : Nat) : Nat :=
  let k := key * 256 ^ (128 - klen)
  let pad := fun (b : Nat) => k ^^^ (List.range 128).foldl (fun n _ => n * 256 + b) 0
  strict (sha384 (128 + len) (pad 0x36 * 256 ^ len + m)) fun inner => sha384 176 (pad 0x5C * 2 ^ 384 + inner)

/-- The KDF of SP 800-108 in counter mode with HMAC-SHA-384 (R457): counter and `L` of 32 bits, the label, a zero byte, the context; the output is cut to
its first `bits` bits, at most 768. -/
def kdf384 (key labelLen label ctxLen ctx bits : Nat) : Nat :=
  let len := 4 + labelLen + 1 + ctxLen + 4
  let fixed := ((label * 256) * 256 ^ ctxLen + ctx) * 2 ^ 32 + bits
  let out := fun (i : Nat) => hmac384 48 key len (i * 256 ^ (len - 4) + fixed)
  if bits ≤ 384 then out 1 / 2 ^ (384 - bits) else (out 1 * 2 ^ 384 + out 2) / 2 ^ (768 - bits)

/-! ### ECDSA over P-384 -/

/-- The prime of P-384. -/
def p384 : Nat := 2 ^ 384 - 2 ^ 128 - 2 ^ 96 + 2 ^ 32 - 1

/-- The order of its base point. -/
def n384 : Nat := 0xFFFFFFFFFFFFFFFFFFFFFFFFFFFFFFFFFFFFFFFFFFFFFFFFC7634D81F4372DDF581A0DB248B0A77AECEC196ACCC52973

/-- The constant of its equation. -/
def b384 : Nat := 0xB3312FA7E23EE7E4988E056BE3F82D19181D9C6EFE8141120314088F5013875AC656398D8A2ED19D2A85C8EDD3EC2AEF

/-- A point in Jacobian coordinates; z = 0 is the point at infinity. -/
structure Pt where
  x : Nat
  y : Nat
  z : Nat
deriving DecidableEq, Repr

/-- Its base point. -/
def g384 : Pt :=
  ⟨0xAA87CA22BE8B05378EB1C71EF320AD746E1D3B628BA79B9859F741E082542A385502F25DBF55296C3A545E3872760AB7,
   0x3617DE4A96262C6F5D9E98BF9292DC29F8F41DBD289A147CE9DA3113B5F0B8C00A60B1CE1D7E819D7A431D7C90EA0E5F, 1⟩

/-- A difference modulo a number. -/
def subMod (p a b : Nat) : Nat := (a + p - b % p) % p

/-- Twice a point. -/
def Pt.double (q : Pt) : Pt :=
  strict (q.z * q.z % p384) fun d => strict (q.y * q.y % p384) fun g => strict (q.x * g % p384) fun b =>
  strict (3 * subMod p384 q.x d * (q.x + d) % p384) fun a => strict (subMod p384 (a * a) (8 * b)) fun x =>
    ⟨x, subMod p384 (a * subMod p384 (4 * b) x) (8 * g * g), subMod p384 ((q.y + q.z) * (q.y + q.z)) (g + d)⟩

/-- The sum of two points. -/
def Pt.plus (q r : Pt) : Pt :=
  if q.z = 0 then r else if r.z = 0 then q
  else
    strict (q.z * q.z % p384) fun qz => strict (r.z * r.z % p384) fun rz =>
    strict (q.x * rz % p384) fun u => strict (q.y * rz * r.z % p384) fun s =>
    strict (subMod p384 (r.x * qz) u) fun h => strict (subMod p384 (r.y * qz * q.z) s) fun v =>
      if h = 0 then (if v = 0 then q.double else ⟨1, 1, 0⟩)
      else
        strict (h * h % p384) fun hh => strict (h * hh % p384) fun hhh => strict (u * hh % p384) fun w =>
        strict (subMod p384 (v * v) (hhh + 2 * w)) fun x =>
          ⟨x, subMod p384 (v * subMod p384 w x) (s * hhh), q.z * r.z * h % p384⟩

/-- Goes on with a point once its coordinates are numerals. -/
def Pt.strict {α : Type} (q : Pt) (f : Pt → α) : α :=
  Sys2Proof.Machine.strict q.x fun x => Sys2Proof.Machine.strict q.y fun y => Sys2Proof.Machine.strict q.z fun z => f ⟨x, y, z⟩

/-- u × G + v × Q from the `n` low bits of u and v, with G + Q at hand. -/
def Pt.sumOf (g q gq : Pt) (u v : Nat) : Nat → Pt → Pt
  | 0, a => a
  | n + 1, a => a.double.strict fun a =>
    (match u.testBit n, v.testBit n with
      | true, true => a.plus gq
      | true, false => a.plus g
      | false, true => a.plus q
      | false, false => a).strict fun a => Pt.sumOf g q gq u v n a

/-- A power modulo a number, from the `n` low bits of the exponent. -/
def powMod (p a e : Nat) : Nat → Nat → Nat
  | 0, r => r
  | n + 1, r => strict (r * r % p) fun r => strict (if e.testBit n then r * a % p else r) fun r => powMod p a e n r

/-- The inverse modulo a prime of 384 bits (Fermat). -/
def invMod (p a : Nat) : Nat := powMod p a (p - 2) 384 1

/-- A point lies on P-384. -/
def onCurve (x y : Nat) : Bool := decide (x < p384 ∧ y < p384) && y * y % p384 == subMod p384 (x * x % p384 * x + b384) (3 * x)

/-- ECDSA P-384 verification: a public key x ‖ y, the digest of the message, and a signature r ‖ s. -/
def ecdsaVerify (pub digest sig : Nat) : Bool :=
  let r := sig / 2 ^ 384
  let s := sig % 2 ^ 384
  let x := pub / 2 ^ 384
  let y := pub % 2 ^ 384
  if decide (0 < r ∧ r < n384 ∧ 0 < s ∧ s < n384) && onCurve x y then
    strict (invMod n384 s) fun w => strict (digest * w % n384) fun u => strict (r * w % n384) fun v =>
      (g384.plus ⟨x, y, 1⟩).strict fun gq => (Pt.sumOf g384 ⟨x, y, 1⟩ gq u v 384 ⟨1, 1, 0⟩).strict fun a =>
        a.z != 0 && (strict (invMod p384 a.z) fun z => a.x * (z * z % p384) % p384 % n384 == r)
  else false
/-! ### AES-256, XTS and CMAC -/

/-- A byte of a number whose first byte is the lowest. -/
def byteOf (n i : Nat) : Nat := n >>> (8 * i) % 256

/-- Puts 16 bytes together, the first lowest. -/
def block16 (f : Nat → Nat) : Nat := (List.range 16).foldl (fun n i => strict (n + 256 ^ i * f i) id) 0

/-- The S-box of AES, the image of 0 lowest. -/
def sboxTab : Nat :=
  0x16BB54B00F2D99416842E6BF0D89A18CDF2855CEE9871E9B948ED9691198F8E19E1DC186B95735610EF6034866B53E708A8BBD4B1F74DDE8C6B4A61C2E2578BA08AE7A65EAF4566CA94ED58D6D37C8E779E4959162ACD3C25C2406490A3A32E0DB0B5EDE14B8EE4688902A22DC4F816073195D643D7EA7C41744975FEC130CCDD2F3FF1021DAB6BCF5389D928F40A351A89F3C507F02F94585334D43FBAAEFD0CF584C4A39BECB6A5BB1FC20ED00D153842FE329B3D63B52A05A6E1B1A2C830975B227EBE28012079A059618C323C7041531D871F1E5A534CCF73F362693FDB7C072A49CAFA2D4ADF04759FA7DC982CA76ABD7FE2B670130C56F6BF27B777C63

/-- The inverse S-box. -/
def sboxInv : Nat :=
  0x7D0C2155631469E126D677BA7E042B17619953833CBBEBC8B0F52AAE4D3BE0A0EF9CC9939F7AE52D0D4AB519A97F51605FEC8027591012B131C7078833A8DD1FF45ACD78FEC0DB9A2079D2C64B3E56FC1BBE18AA0E62B76F89C5291D711AF1476EDF751CE837F9E28535ADE72274AC9673E6B4F0CECFF297EADC674F4111913A6B8A130103BDAFC1020F3FCA8F1E2CD00645B3B80558E4F70AD3BC8C00ABD890849D8DA75746155EDAB9EDFD5048706C92B6655DCC5CA4D41698688664F6F87225D18B6D49A25B76B224D92866A12E084EC3FA420B954CEE3D23C2A632947B54CBE9DEC444438E3487FF2F9B8239E37CFBD7F3819EA340BF38A53630D56A0952

/-- Twice a byte in the field of AES. -/
def xtime (a : Nat) : Nat := if a < 128 then 2 * a else (2 * a) ^^^ 0x11B

/-- The columns mixed: each byte takes twice the difference to the next below it and the sum of its column. -/
def mixColumns (s : Nat) : Nat :=
  block16 fun i =>
    let at_ := fun (k : Nat) => byteOf s (i / 4 * 4 + (i + k) % 4)
    xtime (at_ 0 ^^^ at_ 1) ^^^ at_ 1 ^^^ at_ 2 ^^^ at_ 3

/-- The columns as they were before mixing. -/
def unmixColumns (s : Nat) : Nat :=
  strict (block16 fun i => byteOf s i ^^^ xtime (xtime (byteOf s i ^^^ byteOf s (i / 4 * 4 + (i + 2) % 4)))) mixColumns

/-- The 60 words of the key schedule of a 256-bit key, the first word lowest. -/
def aesKeys (key : Nat) : Nat :=
  (List.range 52).foldl (fun n j =>
    let i := j + 8
    let sub := fun (w : Nat) => (List.range 4).foldl (fun n k => n + 256 ^ k * byteOf sboxTab (byteOf w k)) 0
    strict (n >>> (32 * (i - 1)) % 2 ^ 32) fun w =>
      strict (if i % 8 = 0 then sub (w / 256 + w % 256 * 2 ^ 24) ^^^ 2 ^ (i / 8 - 1) else if i % 8 = 4 then sub w else w) fun w =>
        strict (n + 2 ^ (32 * i) * ((n >>> (32 * (i - 8)) % 2 ^ 32) ^^^ w)) id) key

/-- The key of a round. -/
def roundKey (ks r : Nat) : Nat := ks >>> (128 * r) % 2 ^ 128

/-- AES encryption of a block. -/
def aesEnc (ks b : Nat) : Nat :=
  let sub := fun (s : Nat) => block16 fun i => byteOf sboxTab (byteOf s ((i + i % 4 * 4) % 16))
  let s := (List.range 13).foldl (fun s r => strict s fun s => strict (sub s) fun s => strict (mixColumns s ^^^ roundKey ks (r + 1)) id)
    (b ^^^ roundKey ks 0)
  strict s fun s => sub s ^^^ roundKey ks 14

/-- AES decryption of a block. -/
def aesDec (ks b : Nat) : Nat :=
  let sub := fun (s : Nat) => block16 fun i => byteOf sboxInv (byteOf s ((i + 16 - i % 4 * 4) % 16))
  let s := (List.range 13).foldl (fun s r => strict s fun s => strict (sub s ^^^ roundKey ks (13 - r)) fun s => unmixColumns s)
    (b ^^^ roundKey ks 14)
  strict s fun s => sub s ^^^ roundKey ks 0

/-- XTS over a line of eight blocks: the key pair with the data key lowest, and the tweak. -/
def xts (enc : Bool) (pair tweak data : Nat) : Nat :=
  strict (aesKeys (pair % 2 ^ 256)) fun ks => strict (aesEnc (aesKeys (pair / 2 ^ 256)) tweak) fun t =>
    ((List.range 8).foldl (fun (x : Nat × Nat) i =>
      strict x.2 fun t => strict (data >>> (128 * i) % 2 ^ 128 ^^^ t) fun b =>
        strict (x.1 + 2 ^ (128 * i) * ((if enc then aesEnc ks b else aesDec ks b) ^^^ t)) fun n =>
          (n, (2 * t) % 2 ^ 128 ^^^ (if 2 ^ 127 ≤ t then 0x87 else 0))) (0, t)).1

/-- CMAC of a message of `n` whole blocks and, after them, one byte, as a number with its first byte highest. -/
def cmac (key n msg : Nat) : Nat :=
  let twice := fun (x : Nat) => (2 * x) % 2 ^ 128 ^^^ (if 2 ^ 127 ≤ x then 0x87 else 0)
  strict (aesKeys key) fun ks => strict (messageOf 16 (aesEnc ks 0)) fun l =>
    let x := (List.range n).foldl (fun x i => strict (aesEnc ks (x ^^^ msg >>> (128 * i) % 2 ^ 128)) id) 0
    messageOf 16 (aesEnc ks (x ^^^ (msg >>> (128 * n) % 256 + 0x8000) ^^^ messageOf 16 (twice (twice l))))

end Sys2Proof.Machine
end

