-- ==== Sys2Proof/Config.lean ====
section
/-! DEFINITION. What the spec leaves open and the machine goes on with: constants with no body, so that no proof can see a
value of them. A statement about one of them holds whatever its value is. -/

namespace Sys2Proof.Config

/-- The hash from a line and a domain to one of a home's 4,096 predictor counters (R407: "The hash is therefore not part of
the interface"). -/
opaque atomicHash : Nat → Nat → BitVec 12

/-- `sum` and `sumsq` of a digest record: the lanes that fill them may add in different orders (R559). The first argument
is the State's counter of free values. -/
opaque digestSum : Nat → BitVec 64

/-- `detail` where a rule refuses a request and no table of the spec gives the code: the argument counts the places
(DESIGN CHOICE, notes/assumptions/9.md). -/
opaque unstatedDetail : Nat → BitVec 16

/-- The bytes of a line of memory that nothing has written: the spec gives none. The argument is the State's counter of free values. -/
opaque dramBytes : Nat → BitVec 1024

/-- The bytes of a line that an operand cache owns, when Lendor probes it out at once: an engine writes its owned lines silently
(R394). The argument is the State's counter of free values (DESIGN CHOICE, notes/assumptions/32.md). -/
opaque cacheData : Nat → BitVec 1024

/-- An operand cache has written the line that it owns, when Lendor probes it out at once (R394). The argument is the State's counter of free values
(DESIGN CHOICE, notes/assumptions/32.md). -/
opaque cacheDirty : Nat → Bool

/-- The line that a placement in a way of a field cache displaces (R409): the spec gives no sets and no order of replacement. The argument is the
State's counter of free values (DESIGN CHOICE, notes/assumptions/85.md). -/
opaque fieldOut : Nat → Nat

/-- An engine answers the snoops of the reset that REPLAY_TIMEOUT begins (R415, R525): the row has no operand for it. The argument is the State's
counter of free values (DESIGN CHOICE, notes/assumptions/95.md). -/
opaque engineAnswers : Nat → Bool

/-- The control cores whose main loop refreshes its watchdog at a frame boundary (R545): the firmware is not in the spec. The argument is the State's
counter of free values (DESIGN CHOICE, notes/assumptions/6.md). -/
opaque coreRefresh : Nat → BitVec 9

/-- A line of the SRAM contents that a save wrote to an engine's save slot, by the number of the save: what an engine's SRAM holds is not Lendor's state
(free value, DEDUCED, notes/assumptions/97.md). -/
opaque savedLine : Nat → Nat → BitVec 1024

/-- The fused target of a rail in mV (R442): fuse contents, which the spec does not give (free value, DEDUCED, notes/assumptions/97.md). -/
opaque railTarget : Nat → BitVec 16

/-- The payload bytes of a control message on a link, by its kind: the spec counts them (R554) and gives no size (DESIGN CHOICE,
notes/assumptions/96.md). -/
opaque linkBytes : Nat → BitVec 16

/-- `first_seq` of a dump: how far back the log-tail section reaches is the maker's choice (R542). The argument is the State's
counter of free values. -/
opaque dumpFirst : Nat → BitVec 64

/-- `bytes` of the automatic dump at a chip reset: the maker defines the contents of each section (R542). The argument is the State's
counter of free values. -/
opaque dumpBytes : Nat → BitVec 32

/-- The record of a step-log write that faults: the partition's log holds the event (R295), and no kind of R540 is named for it. The first
argument is the record's number, the second 0 for `kind` and 1 to 3 for `a`, `b` and `c` (DESIGN CHOICE, notes/assumptions/59.md). -/
opaque stepFault : Nat → Nat → BitVec 32

/-- The record of a request whose MAC fails (R459): the spec gives neither the unit nor the syndrome of that control-domain error. The first
argument is the record's number, the second 0 for the unit and 1 for the syndrome (DESIGN CHOICE, notes/assumptions/65.md). -/
opaque islandError : Nat → Nat → BitVec 32

/-- The device identification that IDCODE shifts out: the spec gives no value (R474). -/
opaque idcode : BitVec 32

/-- What a boundary or scan instruction shifts out of cells that the spec does not list (R474, R491). The argument is the State's
counter of free values. -/
opaque scanOut : Nat → BitVec 32

/-- `resync_error_qt` of an error that does not fit its signed 32 bits (R94): the argument is the error in quarter ticks (DESIGN CHOICE,
notes/assumptions/71.md). -/
opaque wideError : Int → BitVec 32

/-- The way of a field cache in which a victim line is placed, among those that its class allows (R219, R409). The argument is the State's counter
of free values (DESIGN CHOICE, notes/assumptions/85.md). -/
opaque fieldWay : Nat → Nat

/-- The value that the CRC-16/CCITT register of a marker word starts from: the spec names the code only (R80). -/
opaque crcSeed : BitVec 16

end Sys2Proof.Config
end

