-- ==== Sys2Proof/Machine/Bits.lean ====
section
/-! DEFINITION. Fields of payloads and registers, saturation and signed fields: the helpers that every layout uses (R9, R10). -/

namespace Sys2Proof.Machine

/-- The field of `w` bits at bit `bit` of byte `byte` of a little-endian structure (R9, R10). -/
def fld (p byte bit w : Nat) : Nat := p / 2 ^ (8 * byte + bit) % 2 ^ w

/-- A little-endian structure from its fields in ascending bit order, each a width in bits and a value. -/
def pack : List (Nat × Nat) → Nat
  | [] => 0
  | (w, v) :: t => v % 2 ^ w + 2 ^ w * pack t

/-- A number read as a two's-complement field of `w` bits. -/
def signed (w n : Nat) : Int := if n % 2 ^ w < 2 ^ (w - 1) then ((n % 2 ^ w : Nat) : Int) else ((n % 2 ^ w : Nat) : Int) - 2 ^ w

/-- The field of `w` bits that holds a signed number. -/
def unsigned (w : Nat) (i : Int) : Nat := (i % (2 ^ w : Nat)).toNat

/-- A signed number held within a field of `w` bits. -/
def clampInt (w : Nat) (i : Int) : Int := max (-(2 ^ (w - 1) : Nat)) (min ((2 ^ (w - 1) : Nat) - 1) i)

/-- A sum that stays at the largest value of `w` bits. -/
def satAdd (w a b : Nat) : Nat := min (a + b) (2 ^ w - 1)

/-- A count of 32 bits that stays at its largest value. -/
def inc32 (w : W32) : W32 := if w = 0xFFFFFFFF#32 then w else w + 1

/-- A generation's next value: 8 bits, and 0 is skipped on wrap (R99, R132, R297). -/
def nextGen (g : Byte) : Byte := if g + 1 = 0 then 1 else g + 1

/-- 1 for true. -/
def bit (b : Bool) : Nat := if b then 1 else 0

/-- The numbers of the bits that are 1, in ascending order. -/
def bitsOf {w : Nat} (m : BitVec w) : List Nat := (List.range w).filter fun i => m.getLsbD i

/-- The mask with the listed bits. -/
def maskOf (w : Nat) (l : List Nat) : BitVec w := l.foldl (fun m i => m ||| (1#w <<< i)) 0#w

/-- The quotient rounded up. -/
def ceilDiv (a b : Nat) : Nat := (a + b - 1) / b

/-- The first number of a list that meets a condition, with the condition's value. -/
def firstSome {α β : Type} (f : α → Option β) : List α → Option β
  | [] => none
  | a :: t => match f a with
    | some b => some b
    | none => firstSome f t

/-- The element with the least key; of equal ones the first. -/
def argMin {α : Type} (key : α → Int) : List α → Option α
  | [] => none
  | a :: t => match argMin key t with
    | none => some a
    | some b => if key b < key a then some b else some a

/-- The list in ascending order of a key; equal keys keep their order. -/
def sortOn {α : Type} (key : α → Int) : List α → List α
  | [] => []
  | a :: t => insertFirst key a (sortOn key t)
where
  /-- Enters an element before the first whose key is not smaller. -/
  insertFirst (key : α → Int) (a : α) : List α → List α
    | [] => [a]
    | b :: t => if key a ≤ key b then a :: b :: t else b :: insertFirst key a t

/-- The list with an element moved to its end (an order of use, least recent first). -/
def touch (l : List Nat) (n : Nat) : List Nat := l.filter (· != n) ++ [n]

end Sys2Proof.Machine
end

