-- ==== Sys2Proof/Machine/Tab.lean ====
section
/-! DEFINITION. Sparse tables in one canonical form: keys strictly rising, and no entry equal to the value that an unlisted
key reads as. Every numbered object of the spec (contexts, rings, fences, lines, ...) is held in one. -/

namespace Sys2Proof.Machine

/-- A table from numbers to values, with the entries that differ from the table's default. -/
abbrev Tab (α : Type) := List (Nat × α)

/-- The value at a key; `d` is what an unlisted key reads as. -/
def Tab.get {α : Type} (d : α) : Tab α → Nat → α
  | [], _ => d
  | (k, v) :: t, n => if k = n then v else Tab.get d t n

/-- The table without a key. -/
def Tab.drop {α : Type} (t : Tab α) (n : Nat) : Tab α := t.filter fun e => e.1 != n

/-- Puts an entry before the first larger key. -/
def Tab.insert {α : Type} (n : Nat) (v : α) : Tab α → Tab α
  | [] => [(n, v)]
  | (k, w) :: t => if n < k then (n, v) :: (k, w) :: t else (k, w) :: Tab.insert n v t

/-- Writes a key: the default removes the entry, so that equal tables are equal lists. -/
def Tab.put {α : Type} [DecidableEq α] (d : α) (t : Tab α) (n : Nat) (v : α) : Tab α :=
  if v = d then t.drop n else Tab.insert n v (t.drop n)

/-- Reads, changes and writes one key. -/
def Tab.upd {α : Type} [DecidableEq α] (d : α) (t : Tab α) (n : Nat) (f : α → α) : Tab α :=
  t.put d n (f (t.get d n))

/-- Applies `f` to every listed entry; entries that become the default leave the table. -/
def Tab.mapAll {α : Type} [DecidableEq α] (d : α) (t : Tab α) (f : Nat → α → α) : Tab α :=
  (t.map fun e => (e.1, f e.1 e.2)).filter fun e => decide (e.2 ≠ d)

/-- The canonical form: keys strictly rising and no default entry. -/
def Tab.wf {α : Type} [DecidableEq α] (d : α) (t : Tab α) : Bool :=
  decide ((t.map Prod.fst).Pairwise (· < ·)) && t.all fun e => decide (e.2 ≠ d)

end Sys2Proof.Machine
end

