-- ==== Sys2Proof/Machine/Unit/Mailbox.lean ====
section
/-! DEFINITION. The state of the mailboxes (02_mailboxes_and_tirok), of staged and pending sets (04_partitions) and of
Plumb (03_beat_and_frames). -/

namespace Sys2Proof.Machine

/-- The states of a command slot (R55). -/
inductive SlotState where
  | free | submitted | running | parked | done
deriving DecidableEq, Repr

/-- A response area: the header of R66 and the inline payload as one little-endian number (176 bytes). -/
structure Resp where
  opcode     : BitVec 16
  status     : Status
  session    : Byte
  tag        : W32
  payloadLen : BitVec 16
  detail     : BitVec 16
  doneFrame  : W32
  payload    : BitVec 1408
deriving DecidableEq, Repr

/-- A response area that nothing has written. -/
def Resp.zero : Resp := ⟨0, .ok, 0, 0, 0, 0, 0, 0⟩

/-- One of a mailbox's eight slots: its state (R55), its request area (R60), the request as latched (R61), the session
under which it was submitted (R66; 0 when none), the number of its submit (the model's own: it tells one use of a slot from
the next), the MAC that the page took of it (R459), and its response area. -/
structure Slot where
  st      : SlotState
  area    : BitVec 2048
  req     : BitVec 2048
  session : W32
  ticket  : Nat
  mac     : BitVec 384
  resp    : Resp
deriving DecidableEq, Repr

/-- A slot after reset. -/
def Slot.init : Slot := ⟨.free, 0, 0, 0, 0, 0, Resp.zero⟩

/-- One entry of a staged set (R103): the command, the partition and group it names, the partition generation it was staged
under (R106) and its payload. -/
structure Entry where
  op    : Nat
  part  : Nat
  gen   : Byte
  group : Nat
  data  : Nat
deriving DecidableEq, Repr

/-- A slot that waits for a response, as the object that will write it names it. -/
structure SlotRef where
  mb     : Mailbox
  slot   : Nat
  ticket : Nat
deriving DecidableEq, Repr

/-- A pending set (R106–R109): its entries, the number of the frame whose boundary is B, the slot that waits, the partition
the command addressed (0xFF: chip level), and the partition it creates. -/
structure PendSet where
  entries : List Entry
  frame   : Nat
  ref     : SlotRef
  part    : Nat
  create  : Option Nat
deriving DecidableEq, Repr

/-- A mailbox page's registers (R52–R59), its session and its slots. -/
structure Mbx where
  irqEn     : Bool
  vector    : BitVec 12
  done      : Byte
  badSubmit : Bool
  dropped   : Bool
  badVector : Bool
  ended     : Bool
  open_     : Bool
  minor     : Byte
  session   : W32
  caller    : W32
  staged    : List Entry
  slots     : Tab Slot
  queue     : List Nat
deriving DecidableEq, Repr

/-- A mailbox after reset. -/
def Mbx.init : Mbx := ⟨false, 0, 0, false, false, false, false, false, 0, 0, 0, [], [], []⟩

/-- Plumb's states (R83), with the codes of R93. -/
inductive Plumb where
  | acquire | locked | freeRun | drifting | resync
deriving DecidableEq, Repr

/-- Plumb: its state and the tick counter (R83–R94). `err` is the counter minus the beat, in quarter ticks, while RESYNC corrects it or the counter holds; `hold` is
set while R84 stops the counter at a frame boundary that has still to fire, and `fire` when it moves on from that boundary with the
source lost (R83); `seen` holds the tick value of the last good marker of each source (pin 0, port p 1 + p) and `bad` counts markers of
the source in use, in a row, that were missing or not consistent. `due` lists the actions of R89 by their order (5 to 8) that fall on the
boundary in effect and are still to be carried out; `hbMissed` counts the frame boundaries in a row that found MB_HEARTBEAT where it stood (R545). -/
structure Beat where
  plumb     : Plumb
  tick      : W64
  run       : Bool
  hold      : Bool
  drift     : Bool
  never     : Bool
  refused   : Bool
  source    : Option BeatSource
  freerun   : Nat
  faults    : W32
  lastLock  : W64
  switches  : W32
  errQt     : W32
  err       : Int
  bad       : Nat
  seen      : Tab (Option Nat)
  fire      : Bool
  ports     : BitVec 18
  trim      : BitVec 16
  tickHi    : Tab W32
  heartbeat : W32
  hbMissed  : Nat
  hawkPass  : W64
  due       : List Nat
deriving DecidableEq, Repr

/-- Plumb after reset: ACQUIRE, the counter stopped at 0. -/
def Beat.init : Beat :=
  ⟨.acquire, 0, false, false, false, false, false, none, 0, 0, 0, 0, 0, 0, 0, [], false, 0x3FFFF, 0, [], 0, 0, 0, []⟩

end Sys2Proof.Machine
end

