-- ==== Sys2Proof/Machine/Unit/Part.lean ====
section
/-! DEFINITION. The state of partitions (04_partitions), contexts and rings (05_contexts_rings_doorbells). -/

namespace Sys2Proof.Machine

/-- Partition states with the codes of R115. -/
inductive PartSt where
  | free | creating | live | resetting | destroying
deriving DecidableEq, Repr

/-- The partition record without `stage_mask` and `new_part` (R101). -/
structure PartRec where
  engines   : BitVec 128
  ways      : BitVec 128
  ranges    : BitVec 128
  ctxBlocks : BitVec 256
  seqBlocks : BitVec 256
  fenBlocks : BitVec 256
  ringBase  : Nat
  ringPages : Nat
  vecBase   : Nat
  vecCount  : Nat
  linkShare : Nat
  mbPasid   : Nat
  hostPasid : Nat
  eventVec  : Nat
  label     : BitVec 128
deriving DecidableEq, Repr

/-- The record of a FREE partition. -/
def PartRec.zero : PartRec := ⟨0, 0, 0, 0, 0, 0, 0, 0, 0, 0, 0, 0, 0, 0, 0⟩

/-- A PART_DESTROY that runs (R116, R117): the slot that waits (none: a life-cycle transition destroys the partition, R470), the `reason`, and what its response counts. -/
structure DestroyRun where
  ref       : Option SlotRef
  reason    : Nat
  revoked   : Nat
  abandoned : Nat
deriving DecidableEq, Repr

/-- A partition reset that runs (R528): the slot that waits (none: the reset follows a domain loss), the `reason` of its record,
the contexts lost, the fences abandoned and the tick of its start. -/
structure ResetRun where
  ref    : Option SlotRef
  reason : Nat
  lost   : Nat
  fences : Nat
  start  : W64
deriving DecidableEq, Repr

/-- The figures of a partition's card for one epoch (R130, epoch block); `bytes` holds the FAST, SLOW, HOST and link bytes at its start, and `energyNj` its energy in nJ. -/
structure Tally where
  held     : Nat
  busy     : Nat
  admits   : Nat
  batches  : Nat
  served   : List Nat
  live     : Nat
  maxGap   : Nat
  misses   : Nat
  bytes    : List Nat
  short    : Nat
  energyNj : Nat
  stretch  : Nat
  ctxLost  : Nat
  retries  : Nat
  poisoned : Nat
  late     : Nat
  l0       : Nat
  l1       : Nat
  l2       : Nat
  l3       : Nat
deriving DecidableEq, Repr

/-- Nothing counted. -/
def Tally.zero : Tally := ⟨0, 0, 0, 0, [], 0, 0, 0, [0, 0, 0, 0], 0, 0, 0, 0, 0, 0, 0, 0, 0, 0, 0⟩

/-- A partition number (R99–R101, R115, R123): the ways that drain are held with the frame at whose boundary they are
written back (R111); `card` is its card's image as last written and
`cardSeq` the card's `seq` (R129, R130). `wdFrames` and `replayFrames` are the watchdog limits (R526), with the values of a
CONFIG that apply from the next boundary; `life` is the number of the first record of the current life (R541). -/
structure Part where
  st          : PartSt
  gen         : Byte
  record      : PartRec
  configSeq   : W32
  configFrame : W32
  span        : W32
  nodes       : BitVec 512
  drainEng    : BitVec 128
  drainWay    : List (Nat × Nat)
  destroy     : Option DestroyRun
  reset       : Option ResetRun
  card        : Nat
  cardSeq     : W32
  tally       : Tally
  last        : Tally
  epoch       : W64
  admitTotal  : Nat
  energyTotal : Nat
  wdFrames    : Nat
  replayFrames : Nat
  wdNext      : Option (Nat × Nat)
  life        : Nat
deriving DecidableEq, Repr

/-- A partition number after a chip reset (R99). -/
def Part.init : Part := ⟨.free, 0, PartRec.zero, 0, 0, 0, 0, 0, [], none, none, 0, 0, Tally.zero, Tally.zero, 0, 0, 0, 256, 64, none, 0⟩

/-- Context states with the codes of R167. -/
inductive CtxSt where
  | free | live | lost
deriving DecidableEq, Repr

/-- The figures of a context for one epoch (R167). -/
structure CtxEpoch where
  engineNs  : Nat
  admits    : Nat
  descs     : Nat
  misses    : Nat
  bytes     : Nat
deriving DecidableEq, Repr

/-- No figures. -/
def CtxEpoch.zero : CtxEpoch := ⟨0, 0, 0, 0, 0⟩

/-- A CTX_REVOKE that drains (R518–R521): the slot that waits, the tick of the take, the descriptors discarded, the rows whose
completions are dropped, and the fences abandoned. -/
structure RevokeRun where
  ref    : SlotRef
  start  : W64
  descs  : Nat
  rows   : Nat
  fences : Nat
deriving DecidableEq, Repr

/-- A context slot (R132, R167); `epoch` is the epoch that `last` covers, all ones before the first. -/
structure Ctx where
  st     : CtxSt
  gen    : Byte
  reason : BitVec 16
  owner  : W32
  weight : Nat
  group  : Option Nat
  now    : CtxEpoch
  last   : CtxEpoch
  epoch  : W64
  total  : CtxEpoch
  revoke : Option RevokeRun
deriving DecidableEq, Repr

/-- A context slot after a chip reset. -/
def Ctx.init : Ctx := ⟨.free, 0, 0, 0, 0, none, CtxEpoch.zero, CtxEpoch.zero, BitVec.allOnes 64, CtxEpoch.zero, none⟩

/-- Ring states with the codes of R168. -/
inductive RingSt where
  | unbound | active | halted | unbinding
deriving DecidableEq, Repr

/-- A fetched descriptor: its index, its 64 bytes (a v2 descriptor in the low 32) and its reference frame (R149). -/
structure Desc where
  index : W32
  bits  : BitVec 512
  frame : Nat
deriving DecidableEq, Repr

/-- A running RING_UNBIND (R161): the slot that waits, `discard`, the `prod` at its take and the descriptors discarded. -/
structure Unbind where
  ref       : SlotRef
  discard   : Bool
  upto      : W32
  discarded : Nat
deriving DecidableEq, Repr

/-- A ring (R142, R157, R168). `frames` gives the reference frame of published descriptors: each entry covers the indices
below its first number (R149). `pushed` holds pushed copies (R159). `queue` holds fetched descriptors that have not
started, `running` those that started and have no completion, `writing` those whose completion entry a peer chip has still to accept, `written` the
completed indices that `done` has not passed; `belled` is the order of the last doorbell taken (R163).
`flushes` gives the status that descriptors published below an index take when they are fetched (R305, R519, R528); `fill`:
a ring-state fill is due (R164). -/
structure Ring where
  st        : RingSt
  ctx       : Nat
  ctxGen    : Byte
  home      : Nat
  fmt       : Nat
  size      : Nat
  cls       : Nat
  vector    : Nat
  descAddr  : Nat
  cqAddr    : Nat
  start     : W32
  prod      : W32
  fetch     : W32
  done      : W32
  doorbells : W32
  bad       : W32
  haltCode  : BitVec 16
  haltTick  : W64
  haltIndex : W32
  frames    : List (W32 × Nat)
  pushed    : List (W32 × BitVec 512)
  queue     : List Desc
  running   : List Desc
  writing   : List Desc
  written   : List W32
  belled    : Nat
  unbind    : Option Unbind
  flushes   : List (W32 × Status)
  fill      : Bool
deriving DecidableEq, Repr

/-- A ring that was never bound. -/
def Ring.init : Ring :=
  ⟨.unbound, 0, 0, 0, 0, 0, 0, 0, 0, 0, 0, 0, 0, 0, 0, 0, 0, 0, 0, [], [], [], [], [], [], 0, none, [], false⟩

end Sys2Proof.Machine
end

