-- ==== Sys2Proof/Machine/Unit/Work.lean ====
section
/-! DEFINITION. The state of scheduling (06), regulation (07), co-batch groups and engines (08), and sequences (09). -/

namespace Sys2Proof.Machine

/-- A partition's scheduling policy (SCHED_SET kinds 0 and 2). -/
structure SchedPol where
  defWeight  : Nat
  classMode  : BitVec 16
  edfShare   : Nat
  edfHorizon : Nat
  burst      : Nat
  prefillMin : Nat
  prefillMax : Nat
  spare      : Nat
deriving DecidableEq, Repr

/-- The reset column of SCHED_SET. -/
def SchedPol.init : SchedPol := ⟨1, 0xA550, 128, 4, 8, 64, 2048, 1⟩

/-- Scheduling figures of one partition in one field (R173, R181, R190, R208). `rr` is the partition's round-robin place
among spare cycles (R174); `weightSum` is W_f as the last boundary took it (R176); `denied` counts cycles denied below the guarantee (R224). -/
structure PField where
  used        : Nat
  guar        : Nat
  guarLast    : Nat
  admits      : Nat
  admitsLast  : Nat
  spare       : Nat
  spareLast   : Nat
  edf         : Nat
  edfLast     : Nat
  floorMisses : Nat
  grantUnit   : Nat
  weightSum   : Nat
  rr          : Nat
  denied      : Nat
  group       : Nat
  ring        : Nat
deriving DecidableEq, Repr

/-- No figures. -/
def PField.init : PField := ⟨0, 0, 0, 0, 0, 0, 0, 0, 0, 0, 0, 0, 0, 0, 0, 0⟩

/-- Scheduling state of one context in one field: the deficit D in ns (R176), the WORK estimate (R178), the floor marks
(R188, R189) and figures of R209. -/
structure CtxField where
  deficit : Int
  workEst : Nat
  owed    : Bool
  due     : Bool
  dueAt   : Nat
  admits  : Nat
  ringRr  : Nat
  seqRr   : Nat
  turn    : Nat
deriving DecidableEq, Repr

/-- The values at CTX_CREATE (R178). -/
def CtxField.init : CtxField := ⟨0, 8192, false, false, 0, 0, 0, 0, 0⟩

/-- When a context was last admitted: frame bits [44:13] and a chip-wide order of admissions. -/
structure Admit where
  frame : W32
  order : Nat
deriving DecidableEq, Repr

/-- A memory bucket (R212) with the figures of R224 and R230. -/
structure Bucket where
  guar      : Nat
  ceil      : Nat
  carry     : Nat
  g         : Nat
  t         : Nat
  passed    : Nat
  last      : Nat
  misses    : Nat
  shortfall : Nat
  waited    : Bool
deriving DecidableEq, Repr

/-- The reset column of R227. T stands as the first refill of R213 leaves it; its value at the create is not stated (DESIGN CHOICE,
notes/assumptions/82.md). -/
def Bucket.init : Bucket := ⟨0, 0xFFFF, 1, 0, 0xFFFF * 4096, 0, 0, 0, 0, false⟩

/-- Lane reserve and maintenance buckets of one partition in one field (R215, R218, R227). -/
structure RegField where
  laneResv  : Nat
  maintFast : Nat
  maintSlow : Nat
  fastLeft  : Nat
  slowLeft  : Nat
  fastNow   : Nat
  slowNow   : Nat
  fastLast  : Nat
  slowLast  : Nat
deriving DecidableEq, Repr

/-- The reset column of R227. -/
def RegField.init : RegField := ⟨4, 800, 55, 800 * 4096, 55 * 4096, 0, 0, 0, 0⟩

/-- A class of one partition in one field: its way allowance (none: all ways the partition holds), its engine-time cap and
the engine time charged (R219, R220, R230). -/
structure RegClass where
  allow  : Option (BitVec 32)
  cap    : Nat
  eng    : Nat
  engLast : Nat
deriving DecidableEq, Repr

/-- The reset column of R227. -/
def RegClass.init : RegClass := ⟨none, 0, 0, 0⟩

/-- A link bucket of one partition at one port (R221, R224, R230); `spare` counts what it sent on spare capacity. -/
structure LinkBucket where
  txLeft : Nat
  rxLeft : Nat
  tx     : Nat
  rx     : Nat
  txLast : Nat
  rxLast : Nat
  misses : Nat
  shortfall : Nat
  spare  : Nat
deriving DecidableEq, Repr

/-- Nothing passed. -/
def LinkBucket.init : LinkBucket := ⟨0, 0, 0, 0, 0, 0, 0, 0, 0⟩

/-- States of a base slot with the codes of BASE_LOAD's response (R251). -/
inductive BaseSt where
  | empty | loading | standby | active | retiring | degraded
deriving DecidableEq, Repr

/-- A base slot (R251, R254). -/
structure BaseSlot where
  st      : BaseSt
  baseId  : W32
  fast    : Nat
  copy    : Nat
  length  : Nat
  start   : W32
  lines   : Nat
  bad     : Nat
  ref     : Option SlotRef
deriving DecidableEq, Repr

/-- An EMPTY slot. -/
def BaseSlot.init : BaseSlot := ⟨.empty, 0, 0, 0, 0, 0, 0, 0, none⟩

/-- A member entry (R232, R260). -/
structure Member where
  addr   : Nat
  len    : Nat
  rank   : Nat
  baseId : W32
deriving DecidableEq, Repr

/-- A BASE_SWAP that is pending or waits for its old batches (R257, R259): the frame of its swap point, whether that has
passed, and the figures of its response. -/
structure Swap where
  ref     : SlotRef
  toSlot  : Nat
  frame   : Nat
  passed  : Bool
  swapAt  : W32
  baseGen : Byte
  held    : Nat
  refs    : Nat
  old     : Nat
deriving DecidableEq, Repr

/-- A co-batch group (R231, R232). -/
structure Group where
  owner   : Option Nat
  fmt     : Nat
  maxRank : Nat
  limit   : Nat
  est     : Nat
  baseGen : Byte
  slot0   : BaseSlot
  slot1   : BaseSlot
  members : Tab (Option Member)
  swap    : Option Swap
deriving DecidableEq, Repr

/-- A group that no partition owns. -/
def Group.init : Group := ⟨none, 0, 0, 0, 1024, 0, BaseSlot.init, BaseSlot.init, [], none⟩

/-- A failing status with the `lost_reason` that its completion gives the context (R515; 0: none, R516) and the context
address of the fault, or 0 (R540). -/
structure Fail where
  status : Status
  reason : Nat
  addr   : Nat
deriving DecidableEq, Repr

/-- A row of a batch: its tag (R6, R235), its position, its adapter's rank, its absolute deadline (0: none), the estimate it
was charged (R177) and the first failing status recorded for it (R246). -/
structure Row where
  ctx     : Nat
  ctxGen  : Byte
  seq     : Nat
  cls     : Nat
  pos     : Nat
  prefill : Bool
  rank    : Nat
  dl      : Nat
  charge  : Nat
  urgent  : Bool
  failed  : Option Fail
deriving DecidableEq, Repr

/-- A batch (R183–R185, R236, R242); `shared` is a status recorded for the whole batch (R246), `start` the tick of its
delivery (R178), `members` the member entries it opened with (R264), `moved` that R197 displaced it once,
`opened` the order of its credit, `ext` the fast address and length of the slot it opened on, which it reads to its end (R257). -/
structure Batch where
  id      : W32
  part    : Nat
  partGen : Byte
  group   : Nat
  cls     : Nat
  bank    : Nat
  baseGen : Byte
  slot    : Nat
  rows    : List Row
  members : Tab (Option Member)
  shared  : Option Fail
  start   : Nat
  moved   : Bool
  opened  : Nat
  ext     : Nat × Nat
deriving DecidableEq, Repr

/-- A WORK at an engine (R182, R242): its ring, tag, descriptor, absolute deadline, estimate and the bank of its queue entry. -/
structure WorkRun where
  ring    : Nat
  part    : Nat
  partGen : Byte
  ctx     : Nat
  ctxGen  : Byte
  cls     : Nat
  desc    : Desc
  dl      : Nat
  charge  : Nat
  failed  : Option Fail
  start   : Nat
  bank    : Nat
deriving DecidableEq, Repr

/-- What an engine's queue entry holds. -/
inductive Job where
  | batch (b : Batch)
  | work (w : WorkRun)
deriving DecidableEq, Repr

/-- Whether an engine serves: R173, R523, R525. -/
inductive EngSt where
  | service | quarantined | failed | resetting
deriving DecidableEq, Repr

/-- A replay of the suspects of a hung batch (R524, R525): the batch, the suspects that are still to run, the one that runs,
and those that reached `replay_frames`. -/
structure Replay where
  batch  : Batch
  todo   : List Nat
  now    : Option Nat
  guilty : List Nat
deriving DecidableEq, Repr

/-- A WORK chosen for a credit of an engine (R182): its ring, the order of that choice, and the tag-table bank of the queue
entry that the credit stands for (R237). -/
structure Chosen where
  ring  : Nat
  order : Nat
  bank  : Nat
deriving DecidableEq, Repr

/-- An engine: its two queue entries (R200), the batch open for it (R183), the WORK chosen for a credit of it (R182), its
count of batches (R242), its watchdog (R522), its standing (R513), the requests counted against it (R238), its replay, and
whether it returns to service at the next frame boundary (R525), the context of an S3-compatible engine's last batch (R405), and
the partition whose batch has ended on it in the frame so far (R130). -/
structure Engine where
  st       : EngSt
  running  : Option Job
  queued   : Option Job
  open_    : Option Batch
  chosen   : Option Chosen
  nextId   : W32
  wd       : Nat
  compat   : Bool
  badTags  : Nat
  fires    : W32
  replay   : Option Replay
  back     : Bool
  lastCtx  : Option Nat
  ran      : Option Nat
deriving DecidableEq, Repr

/-- An engine after reset. -/
def Engine.init : Engine := ⟨.service, none, none, none, none, 0, 0, false, 0, 0, none, false, none, none⟩

/-- The engines after reset: with no `native_cap` every agent is in compatibility mode (R417). -/
def enginesReset : Tab Engine := (List.range 128).map fun e => (e, { Engine.init with compat := true })

/-- An engine that holds no job, open batch or replay. -/
def Engine.idle (e : Engine) : Bool := e.running.isNone && e.queued.isNone && e.open_.isNone && e.replay.isNone

/-- Sequence states with the codes of R290. -/
inductive SeqSt where
  | free | filling | ready | running | ended | failed | closing
deriving DecidableEq, Repr

/-- A prefill chunk held by a sequence (R277, R290). -/
structure Chunk where
  addr   : Nat
  pos    : Nat
  tokens : Nat
  dl     : Nat
  ring   : Nat
  desc   : Desc
deriving DecidableEq, Repr

/-- A sequence slot (R290) with its page list, the positions above `len` that completed OK (R272), the order in which it stalled (R284) and entered READY (R186), and the SEQ_CLOSE that waits for it. -/
structure Seq where
  st        : SeqSt
  stall     : Bool
  irqEach   : Bool
  fallback  : Bool
  gen       : Byte
  ctx       : Nat
  group     : Nat
  home      : Nat
  cls       : Nat
  deadline  : Nat
  tokLines  : Nat
  fastPages : Nat
  vector    : Nat
  prompt    : Nat
  maxLen    : Nat
  len       : Nat
  next      : Nat
  queuedEnd : Nat
  preFly    : Nat
  decFly    : Bool
  logSize   : Nat
  last      : Status
  logAddr   : Nat
  logCount  : W32
  readyFrame : Nat
  openFrame : W32
  token     : W32
  failPos   : Nat
  chunks    : List Chunk
  pages     : List Nat
  tiers     : List Nat
  okAbove   : List Nat
  stallAt   : Nat
  readyAt   : Nat
  close     : Option (SlotRef × Bool)
deriving DecidableEq, Repr

/-- A sequence slot after a chip reset. -/
def Seq.init : Seq :=
  ⟨.free, false, false, false, 0, 0, 0, 0, 0, 0, 0, 0, 0, 0, 0, 0, 0, 0, 0, false, 0, .ok, 0, 0, 0, 0, 0, 0, [], [], [], [], 0, 0, none⟩

/-- The reserve lists of a context (R283, R291). -/
structure Reserve where
  fast      : List Nat
  slow      : List Nat
  fastWater : Nat
  slowWater : Nat
  draws     : W32
  empties   : W32
deriving DecidableEq, Repr

/-- Empty lists with the default `low_water`. -/
def Reserve.init : Reserve := ⟨[], [], 8, 8, 0, 0⟩

end Sys2Proof.Machine
end

