-- ==== Sys2Proof/Machine/Unit/Mem.lean ====
section
/-! DEFINITION. The state of fences (10), segments and translation (11) and the memory gate (12). -/

namespace Sys2Proof.Machine

/-- Fence states (R296). -/
inductive FenceSt where
  | free | live | abandoned
deriving DecidableEq, Repr

/-- Fence kinds (R296). -/
inductive FenceKind where
  | plain | step | proxy
deriving DecidableEq, Repr

/-- A waiter of a fence: a ring whose WAIT is held in the bank (R303, R306). -/
structure Waiter where
  value : W64
  ring  : Nat
  index : W32
deriving DecidableEq, Repr

/-- What a PROXY follows (R314). -/
structure Source where
  node  : Nat
  part  : Nat
  fence : Nat
  gen   : Byte
deriving DecidableEq, Repr

/-- An export of a fence (R312), with one subscription per import: node and number of the PROXY. -/
structure Export where
  node : Nat
  part : Nat
  key  : W32
  subs : List (Nat × Nat)
deriving DecidableEq, Repr

/-- A fence slot (R296); a `mirror` of none is no mirror, or one that a fault disabled (R299); `orphan`: the co-batch group of a STEP fence has been
removed since, and what holds its number now is another (R310). -/
structure Fence where
  st       : FenceSt
  kind     : FenceKind
  compat   : Bool
  value    : W64
  gen      : Byte
  owner    : Nat
  mirror   : Option Nat
  stale    : W32
  rejected : W32
  group    : Nat
  src      : Option Source
  exports_ : List Export
  waiters  : List Waiter
  reserved : Bool
  orphan   : Bool
deriving DecidableEq, Repr

/-- A fence slot after a chip reset. -/
def Fence.init : Fence := ⟨.free, .plain, false, 0, 0, 0, none, 0, 0, 0, none, [], [], false, false⟩

/-- A FENCE_IMPORT that waits for the exporter (R314): the slot, the number held for the PROXY and its owner, and the
source asked for. -/
structure ImportWait where
  ref   : SlotRef
  part  : Nat
  fence : Nat
  ctx   : Nat
  src   : Source
  key   : W32
deriving DecidableEq, Repr

/-- A node of a reported cycle: its kind (ring 0, fence 1, external 2), its number and a ring's head index (WFG_READ). -/
structure WfgNode where
  kind  : Nat
  id    : Nat
  index : W32
deriving DecidableEq, Repr

/-- A reported cycle (WFG_READ). -/
structure WfgCycle where
  nodes : List WfgNode
  parts : List Nat
  sole  : Bool
  fresh : Bool
  first : W32
deriving DecidableEq, Repr

/-- The wait-for graph (R318–R320): the running scan's snapshot (rings blocked on an unsatisfied WAIT, with fence, value and
head index) and its epoch, the last completed scan, and `overrun`. -/
structure Wfg where
  scan    : Option (List (Nat × Nat × W64 × W32))
  scanAt  : W32
  epoch   : W32
  blocked : List (Nat × Nat)
  cycles  : List WfgCycle
  overrun : Bool
deriving DecidableEq, Repr

/-- No scan has run. -/
def Wfg.init : Wfg := ⟨none, 0, 0, [], [], false⟩

/-- A segment as loaded (R324), with its mapped bytes by tier (R167, R344). -/
structure Seg where
  valid    : Bool
  base     : Nat
  limit    : Nat
  table    : Nat
  host     : Nat
  read     : Bool
  write    : Bool
  big      : Bool
  homeTier : Nat
  hot      : Bool
  node     : Nat
  keyFast  : Nat
  keySlow  : Nat
  pasid    : Nat
  mapFast  : Nat
  mapSlow  : Nat
  mapHost  : Nat
deriving DecidableEq, Repr

/-- An invalid segment. -/
def Seg.init : Seg := ⟨false, 0, 0, 0, 0, false, false, false, 0, false, 0, 0xFF, 0xFF, 0, 0, 0, 0⟩

/-- A cached translation of an ETLB or an STLB (R332, R333): the segment by its key and page, and where it leads. -/
structure TlbEntry where
  part : Nat
  seg  : Nat
  page : Nat
  phys : Nat
  tier : Nat
deriving DecidableEq, Repr

/-- A KV page-list lookup cached in an STLB (R333). -/
structure KvEntry where
  seq  : Nat
  page : Nat
  entry : Nat
deriving DecidableEq, Repr

/-- A tile that passed R339 and has not moved its last byte, or that waits (R341, R351). -/
inductive TileSt where
  | moving | faultWait (slot : Nat) | moveWait (activity : Nat)
deriving DecidableEq, Repr

/-- A tile in service at an engine's port: the segment's key, its descriptor as it stood at the check, and the footprint's pages with the
physical address and tier that each translated to, and the pages of a remote segment that the peer has still to answer. -/
structure TileRun where
  req   : TileReq
  part  : Nat
  ctx   : Nat
  seg   : Nat
  desc  : Seg
  pages : List (Nat × Nat × Nat)
  left  : List Nat
  st    : TileSt
deriving DecidableEq, Repr

/-- A fault slot that is taken (R341, R355): its tile, the frame boundaries that have passed, and the `fault_wait_frames` in effect when the
wait began (R354). -/
structure FaultSlot where
  tile   : Nat
  frames : Nat
  limit  : Nat
deriving DecidableEq, Repr

/-- A hot counter (R350): field, partition, segment key, page and tier; `recorded` after its HOT record of the window. -/
structure HotCount where
  field    : Nat
  part     : Nat
  seg      : Nat
  page     : Nat
  tier     : Nat
  count    : Nat
  recorded : Bool
deriving DecidableEq, Repr

/-- A partition's migration settings (MIGRATE_MODE) with `fault_id`, `fault_overflow`, the count n of HOT records and its
fault slots (R350, R355). -/
structure Migrate where
  fault     : Bool
  hotLog    : Nat
  faultWait : Nat
  slotCount : Nat
  hotWindow : Nat
  queueAddr : Nat
  logAddr   : Nat
  threshold : Nat
  faultId   : W32
  overflow  : W32
  hotN      : Nat
  slots     : Tab (Option FaultSlot)
deriving DecidableEq, Repr

/-- The reset column of MIGRATE_MODE. -/
def Migrate.init : Migrate := ⟨false, 0, 64, 256, 128, 0, 0, 0, 0, 0, 0, []⟩

/-- What a TLB_INVALIDATE or an UNLOAD removed and waits for (R348): the tiles and requests translated by removed entries,
the count waited for and the tick of the take. -/
structure Drain where
  ref     : SlotRef
  tiles   : List Nat
  count   : Nat
  start   : W64
  unload  : Bool
deriving DecidableEq, Repr

/-- Range states with the codes of R389. -/
inductive RangeSt where
  | undefined | clearing | free | owned
deriving DecidableEq, Repr

/-- A protected range (R359, R362, R389). `raised`: its key generation has raised a SKIM or a SKIM_NEEDED record (R371);
`released`: the partition that gave it up, while it is CLEARING (R115). -/
structure Range where
  st       : RangeSt
  act      : Bool
  keyGen   : Nat
  keySlot  : Nat
  skimSlot : Nat
  base     : Nat
  len      : Nat
  owner    : Nat
  frozen   : Nat
  mismatch : W32
  fixed    : W32
  blocked  : W32
  lost     : List Nat
  overflow : Bool
  raised   : Bool
  released : Option Nat
deriving DecidableEq, Repr

/-- A range after a chip reset. -/
def Range.init : Range := ⟨.undefined, false, 0, 0, 0xFFFF, 0, 0, 0xFF, 0, 0, 0, 0, [], false, false, none⟩

/-- Line states with the codes of R365. -/
inductive LineSt where
  | valid | poisoned | shared | clear
deriving DecidableEq, Repr

/-- How memory holds the bytes of a line: nothing has written them, a raw access left them as they are (R493), or the gate scrambled them under a pair of key
slots and the tweak T of R364. -/
inductive HeldBytes where
  | unwritten
  | raw
  | sealed (key tweak : Nat)
deriving DecidableEq, Repr

/-- A line of the fast or slow tier, with the fields of its tag word (R365). The gate stores ciphertext; the model keeps the bytes before scrambling and what
they were scrambled under, which give the ciphertext and the MAC (R364); `lost` tells that the line is POISONED from the loss of its tag line and has not been
written since (R374). -/
structure Line where
  data   : LineData
  st     : LineSt
  gen    : Nat
  wcount : Nat
  kept   : HeldBytes
  lost   : Bool
deriving DecidableEq, Repr

/-- A line that nothing has written: CLEAR (DESIGN CHOICE, notes/assumptions/48.md). -/
def Line.init : Line := ⟨0, .clear, 0, 0, .unwritten, false⟩

/-- A request that waits at a gate lane (R216, R218), with the absolute deadline it carries (R223; 0: none) and the tick of its arrival. -/
structure Held where
  req  : GateReq
  dl   : Nat
  tick : Nat
deriving DecidableEq, Repr

/-- A tile stream (R335): the partition and context of its engine's last tile, where that tile began, and the stride from the one before. -/
structure Stream where
  part  : Nat
  ctx   : Nat
  start : Nat
  step  : Option Int
deriving DecidableEq, Repr

/-- A maintenance activity that runs or waits (R378–R383), with the counts of its response (R388). TIER_MOVE names its segment, page and
destination; BASE_LOAD its group and slot; SKIM the slot pair it moves to; `complete`: its last line is through. `left` is what the maintenance buckets have
still to pass (R215): bytes by the address whose bucket meters them; `moved` the bytes that they have passed. -/
structure Activity where
  id       : Nat
  code     : Nat
  ranges   : List Nat
  part     : Nat
  running  : Bool
  parked   : Bool
  ref      : Option SlotRef
  start    : W32
  lines    : Nat
  total    : Nat
  fixed    : Nat
  poisoned : Nat
  cleared  : Nat
  skimSlot : Nat
  seg      : Nat
  page     : Nat
  destTier : Nat
  dest     : Nat
  group    : Nat
  slot     : Nat
  complete : Bool
  left     : List (Nat × Nat)
  moved    : Nat
deriving DecidableEq, Repr

/-- A shared-poison rewrite that Hawk has to make (R376): group, slot, the 4 KiB block of the extent and the local address of
the line that was reported. -/
structure Rewrite where
  part  : Nat
  group : Nat
  slot  : Nat
  block : Nat
  addr  : Nat
deriving DecidableEq, Repr

end Sys2Proof.Machine
end

