-- ==== Sys2Proof/Machine/Unit/Groups.lean ====
section
/-! DEFINITION. The units of State: tables of the objects of one part of the spec, and what Lendor has sent. -/

namespace Sys2Proof.Machine

/-- The mailboxes by number (partition n: n, manager 64, security 65, debug 66), the count of sessions opened (R70), the
count of submits (the model's own), the pending sets in take order (R106), and the mailbox that Hawk served last (R78). -/
structure Box where
  mbx      : Tab Mbx
  sessions : W32
  tickets  : Nat
  sets     : List PendSet
  turn     : Nat
deriving DecidableEq, Repr

/-- The mailboxes after a chip reset: no session, every slot FREE, and session IDs counted from 1 (R70); Hawk's turn begins at mailbox 0
(DESIGN CHOICE, notes/assumptions/50.md). -/
def Box.init : Box := ⟨[], 0, 0, [], 66⟩

/-- Partitions with their scheduling policy and figures per field (key partition × 4 + field), and the floor window: the
frame that opened it and whether Plumb stepped or held in it (R187). `resEvt`, `faultEvt`, `hotEvt`: the partitions whose
`event_vector` a record of the kind has sent in this frame (R283, R341, R350). -/
structure Org where
  part    : Tab Part
  sched   : Tab SchedPol
  field   : Tab PField
  window  : W64
  skewed  : Bool
  winStep : Nat
  fewEng  : Tab Bool
  credits : Tab Nat
  needed  : Tab Nat
  dueBig  : Tab Bool
  resEvt  : List Nat
  faultEvt : List Nat
  hotEvt  : List Nat
deriving DecidableEq, Repr

/-- Every partition FREE. -/
def Org.init : Org := ⟨[], [], [], 0, false, 0, [], [], [], [], [], [], []⟩

/-- Contexts, rings, sequences and groups, with the caches of each field (least recently used first) and the chip-wide
orders of admission and stalling, and the frame since which a context of weight 1 or more has waited with ready work (R130). -/
structure Tenant where
  ctx       : Tab Ctx
  ctxf      : Tab CtxField
  lastAdmit : Tab Admit
  ring      : Tab Ring
  ringCache : Tab (List Nat)
  seq       : Tab Seq
  seqCache  : Tab (List Nat)
  reserve   : Tab Reserve
  group     : Tab Group
  order     : Nat
  waits     : Tab (Option Nat)
deriving DecidableEq, Repr

/-- No context, ring, sequence or group. -/
def Tenant.init : Tenant := ⟨[], [], [], [], [], [], [], [], [], 0, []⟩

/-- Fences, the imports that wait, the wait-for graph, and the abandonments (node and PROXY) that a path which is down keeps from their chip (R315). -/
structure FenceUnit where
  fence   : Tab Fence
  imports : List ImportWait
  wfg     : Wfg
  owed    : List (Nat × Nat)
deriving DecidableEq, Repr

/-- No fence. -/
def FenceUnit.init : FenceUnit := ⟨[], [], Wfg.init, []⟩

/-- Regulation: memory buckets (key ((partition × 4 + field) × 2 + tier) × 8 + class), lane and maintenance values (key
partition × 4 + field), class values (key (partition × 4 + field) × 8 + class), link buckets (key partition × 18 + port) and
engine-time misses. -/
structure Reg where
  bucket : Tab Bucket
  field  : Tab RegField
  cls    : Tab RegClass
  link   : Tab LinkBucket
  cycles : Tab Nat
deriving DecidableEq, Repr

/-- The reset columns of REG_SET. -/
def Reg.init : Reg := ⟨[], [], [], [], []⟩

/-- Translation: segments (key context × 16 + segment; 2^20 + partition × 16 + segment for a context-0 set), the translation
caches per engine and field, the tiles in service, the drains, hot counters, migration settings and the
tile streams by engine (R335). -/
structure Xlate where
  seg      : Tab Seg
  etlb     : Tab (List TlbEntry)
  stlb     : Tab (List TlbEntry)
  kv       : Tab (List KvEntry)
  tiles    : Tab (Option TileRun)
  nextTile : Nat
  drains   : List Drain
  hot      : List HotCount
  migrate  : Tab Migrate
  streams  : Tab (Option Stream)
deriving DecidableEq, Repr

/-- No segment; tiles are numbered from 1. -/
def Xlate.init : Xlate := ⟨[], [], [], [], [], 1, [], [], [], []⟩

/-- The memory gate: ranges, lines by local line address, tag caches per field (tag lines by address, least recently used
first) with the lines of them that are dirty (R366), the requests that wait at each lane (key field × 18 + lane, oldest first), the lane of its field behind
which a line lies where a request has shown it (the interleave is fixed, and the spec gives no map: DESIGN CHOICE, notes/assumptions/81.md), the data
extents whose tag words Lendor has cleared, with their lengths (R384), the save slots of engines that hold SRAM contents, each with the number of its save
and the key material that sealed it (R428), the
partition that each lane's round robin served last (R216), maintenance activities, shared-poison rewrites and `blocked_reserved` (R385). -/
structure Mem where
  range    : Tab Range
  line     : Tab Line
  tags     : Tab (List Nat)
  tagDirty : Tab (List Nat)
  lanes    : Tab (List Held)
  laneOf   : Tab (Option Nat)
  extents  : List (Nat × Nat)
  saves    : Tab (Option (Nat × Nat))
  laneLast : Tab Nat
  acts     : List Activity
  nextAct  : Nat
  rewrites : List Rewrite
  blocked  : W32
deriving DecidableEq, Repr

/-- Every range UNDEFINED, and nothing written. -/
def Mem.init : Mem := ⟨[], [], [], [], [], [], [], [], [], [], 1, [], 0⟩

/-- A write to host memory (address, PASID, bytes, little-endian data). -/
structure HostWrite where
  addr  : Nat
  pasid : Option Nat
  bytes : Nat
  data  : Nat
deriving DecidableEq, Repr

/-- What Lendor sends to a peer chip. The `id` of an access is the tile it belongs to, 2^32 and more for a write of Lendor's own, or 0 for a
read of Lendor's own; it carries its byte runs on the page, each an address and a length, the row or batch tag (R328) and a deadline as frame bits
[15:0] with the tick offset in them, 0 for none (R223). -/
inductive LinkMsg where
  | marker (port : Nat) (word : BitVec 96)
  | importRequest (node : Nat) (r : ImportReq)
  | importAnswer (node proxy : Nat) (a : ImportAns)
  | update (node proxy : Nat) (value : W64)
  | abandon (node proxy : Nat)
  | unsubscribe (node fence proxy : Nat)
  | access (id node : Nat) (part : Nat) (runs : List (Nat × Nat)) (sel : Selector) (tag : Option W64) (write : Bool) (cls : Nat) (span : W32)
      (deadline : Nat)
  | answer (port : Nat) (status : Status) (reason : Nat) (data : LineData)
  | resetNotice (port node : Nat) (incarnation : W32)
  | drift (on : Bool)
deriving DecidableEq, Repr

/-- An access that waits at a link port (R221): its partition and context, the unit whose level-4 credit it takes (an engine, or 128 and more for a
control unit; R200), payload bytes and deadline. -/
structure PortWait where
  part  : Nat
  ctx   : Nat
  unit  : Nat
  bytes : Nat
  dl    : Nat
  msg   : LinkMsg
deriving DecidableEq, Repr

/-- What a link port has carried out in this frame, and the accesses that wait for it, oldest first (R221). -/
structure PortOut where
  sent : Nat
  wait : List PortWait
  open_ : List (Nat × Nat)
deriving DecidableEq, Repr

/-- A port that has carried nothing. -/
def PortOut.init : PortOut := ⟨0, [], []⟩

/-- What a gate lane returns for a read (R361, R367): zeros where it refuses or fails. -/
structure ReadReply where
  who    : Requester
  addr   : Nat
  status : Status
  data   : LineData
deriving DecidableEq, Repr

/-- What Lendor has sent since the state began: MSI-X vectors (in LOW they are held, one message per vector, R431), host writes, the 8-byte reads of dirty logging (address, PASID, bytes: R505), dispatched descriptors, the batch tags and row tables of the side lane (R243), what gate lanes
returned for reads, the tokens read for decode rows (engine, row, token: R273), link messages, what waits at each link
port (R221), the host-tier bytes of tiles (PASID, host address, bytes, write: R327), PLDM events of the I3C port, what the TAP shifts out, and the engines sent ABORT (R520); oldest first. -/
structure Out where
  msix     : List Nat
  low      : Bool
  held     : List Nat
  host     : List HostWrite
  hostReads : List (Nat × Option Nat × Nat)
  dispatch : List (Nat × BitVec 512)
  tables   : List (Nat × BitVec 64 × List (BitVec 128))
  reads    : List ReadReply
  tokens   : List (Nat × Nat × W32)
  link     : List LinkMsg
  ports    : Tab PortOut
  pcie     : List (Nat × Nat × Nat × Bool)
  pldm     : List (Nat × Nat)
  tdo      : List Nat
  aborts   : List Nat
deriving DecidableEq, Repr

/-- Nothing sent. -/
def Out.init : Out := ⟨[], false, [], [], [], [], [], [], [], [], [], [], [], [], []⟩

end Sys2Proof.Machine
end

