-- ==== Sys2Proof/Machine/Unit/Record.lean ====
section
/-! DEFINITION. The state of the error log (18) and of the counters (19). -/

namespace Sys2Proof.Machine

/-- A record of the error log (R539, R540). -/
structure Rec where
  seq    : Nat
  tick   : W64
  kind   : Nat
  part   : Nat
  gen    : Byte
  inc    : W32
  ctx    : Nat
  place  : Nat
  status : Status
  a      : Nat
  b      : Nat
  c      : Nat
  d      : Nat
deriving DecidableEq, Repr

/-- A dump that a slot of the dump region holds (R542): the fields of its header, with the mask of its sections,
what its first section copies of the core memories (R35), and by offset the bytes behind the fixed header fields that reads have shown: the section table's
places and the sections are the maker's (R542), and what one read shows of them every later read shows. -/
structure Dump where
  id    : Nat
  cause : Nat
  mask  : Nat
  inc   : W32
  bytes : Nat
  tick  : W64
  first : Nat
  cores : Tab (Tab W32)
  shown : Tab (Option Byte)
deriving DecidableEq, Repr

/-- A DUMP that runs (R543): the slot that waits, the frame of its start, and the dump it fills. -/
structure DumpRun where
  ref   : SlotRef
  start : W32
  dump  : Dump
deriving DecidableEq, Repr

/-- The error log: its records, oldest first, the number of the next record, the records overwritten (R541), the
incarnation number (R532; in retained SRAM) and its copy in the boot flash, the dumps in the two slots, the DUMP that runs and the
number of dumps made. -/
structure Log where
  recs  : List Rec
  next  : Nat
  lost  : Nat
  inc   : W32
  flash : W32
  slot0 : Option Dump
  slot1 : Option Dump
  run   : Option DumpRun
  dumps : Nat
deriving DecidableEq, Repr

/-- An empty log: the first record has number 1 (R539). -/
def Log.init : Log := ⟨[], 1, 0, 0, 0, none, none, none, 0⟩

/-- A key slot (R454–R457): whether it is LOADED, its use and binding, its uses, and the key: 512 bits for a scramble slot, the low 256 for any
other. -/
structure KeySlot where
  loaded  : Bool
  use     : Nat
  count   : W32
  expire  : Bool
  binding : Nat
  mat     : BitVec 512
deriving DecidableEq, Repr

/-- An EMPTY slot. -/
def KeySlot.init : KeySlot := ⟨false, 0, 0, false, 0, 0⟩

/-- Life-cycle states (R464) with the codes of SEC_STATE. -/
inductive Lc where
  | blank | fabTest | provision | deploy | analysis | scrap
deriving DecidableEq, Repr

/-- A certificate that was loaded (R475): its rights, `lc_mask`, revocation level, last epoch and identifier. -/
structure Cert where
  rights   : Nat
  lcMask   : Nat
  rev      : Nat
  notAfter : Nat
  id       : W32
deriving DecidableEq, Repr

/-- The open challenge (R479). -/
structure Challenge where
  id       : W32
  notAfter : Nat
  nonce    : BitVec 256
  wanted   : Nat
deriving DecidableEq, Repr

/-- The root as the security core took it at the start (R451). -/
inductive Root where
  | absent | valid (root : BitVec 384) | destroyed | bad
deriving DecidableEq, Repr

/-- A life-cycle transition that runs (R465, R470): its row, the steps that are marked, the slot that waits and whether it is
over and waits for the epoch boundary. -/
structure LcRun where
  row   : Nat
  steps : Nat
  ref   : Option SlotRef
  ended : Bool
deriving DecidableEq, Repr

/-- The security island: the key store; the life-cycle state in effect since the start (`lc`) and as burned (`fuse`, `burned`
bits); the mark rows (R467), the anti-rollback and revocation fuses, the maker key hash (R460) and the root rows; what the start found (root, start value
of R457, `resumed`, `signed`, the measured image in retained SRAM with whether it was signed and its MAC); the certificate held with whether
it serves, and the persisted one; the challenge grant, the open challenge and the count of challenges; the slots derived by
KEY_DERIVE since the start; and the transition that runs. -/
structure Sec where
  slots      : Tab KeySlot
  lc         : Lc
  fuse       : Lc
  burned     : Nat
  marks      : Tab Nat
  rollback   : Nat
  rev        : Nat
  makerHash  : BitVec 384
  rowA       : RootRow
  rowB       : RootRow
  root       : Root
  start      : BitVec 128
  resumed    : Bool
  signed     : Bool
  measured   : Option (BitVec 384 × Bool × BitVec 384)
  cert       : Option (Cert × Bool)
  saved      : Option Cert
  grant      : Option Nat
  challenge  : Option Challenge
  challenges : W32
  derived    : W32
  run        : Option LcRun
deriving DecidableEq, Repr

/-- A part as manufactured: BLANK, with nothing burned. -/
def Sec.init : Sec :=
  ⟨[], .blank, .blank, 0, [], 0, 0, 0, ⟨0, 0⟩, ⟨0, 0⟩, .absent, 0, false, false, none, none, none, none, none, 0, 0, none⟩

/-- The chip as manufactured and as started (R46–R48, R530, R586, R590). `serial`, `fieldOk`, `site`, `stepping` and the
`pj` energies (R432) are fused. `pending` is the cause and the failing unit of a chip reset that Lendor has still to make;
`opened` the mailbox window (R589), `secOnly` that a failed start serves only the identification page and the security
mailbox; `stopped` that a scan instruction has stopped Lendor's clocks (R491). -/
structure Chip where
  serial   : BitVec 128
  fieldOk  : BitVec 4
  site     : BitVec 2
  stepping : Byte
  pjFast   : Nat
  pjSlow   : Nat
  islandOk : Bool
  phase    : Nat
  failed   : Bool
  attempts : Nat
  failUnit : Nat
  startMs  : Nat
  build    : W32
  version  : Nat
  commit   : Bool
  pending  : Option (Nat × Nat)
  opened   : Bool
  secOnly  : Bool
  stopped  : Bool
  powered  : Bool
deriving DecidableEq, Repr

/-- The chip before its first start: fused values other than those that R48 names are 0 (DESIGN CHOICE, notes/assumptions/3.md), and power-on is the
cause of the chip reset that is due (R530); `island_ok` has the reset value of R47. -/
def Chip.init : Chip := ⟨0, 0xF, 0, 0, 0, 0, true, 0, false, 1, 0, 0, 0, 0, false, some (8, 0), false, false, false, true⟩

/-- A board pair (R571, R572): its code, and the failing and good samples in a row. -/
structure Pair where
  code : Nat
  bad  : Nat
  good : Nat
deriving DecidableEq, Repr

/-- A pair that was classified OK. -/
def Pair.init : Pair := ⟨0, 0, 0⟩

/-- The instruction of the TAP (R474, R490, R491). -/
inductive TapIr where
  | bypass | idcode | sample | mbxAccess | extest | intest | scan | memAccess
deriving DecidableEq, Repr

/-- The board side (20_board_boundary): the pairs by number (BEAT 0, trace lane l 1 + l, sense pair p 5 + p, diode d 13 + d), the
last readings, the changes of codes, the record in use with its static address and trace polarities, `flash_fault` and
`i3c_*`, T_max from on-die sensors, and the TAP's instruction. -/
structure Board where
  pair     : Tab Pair
  sense    : Tab Nat
  diode    : Tab Int
  changes  : W32
  changed  : W64
  record   : Nat
  static_  : BitVec 7
  invert   : BitVec 4
  flash    : Bool
  active   : Bool
  addr     : BitVec 7
  stuck    : W32
  onDie    : Bool
  tap      : TapIr
deriving DecidableEq, Repr

/-- The board side after reset: every pair OK, no record, no address; an idle TAP holds IDCODE (PRESUMED, notes/assumptions/34.md). -/
def Board.init : Board := ⟨[], [], [], 0, 0, 0, 0, 0, false, false, 0, 0, false, .idcode⟩

/-- A link port (R90, R95, R592): whether it is trained, what its peer advertises (`pin`: its Plumb is locked on its own pin, R81), and the last
offset measured. `s3`: the port runs at protocol level 2; `due`: an offset pass is to be made (R90). -/
structure Port where
  up     : Bool
  node   : Nat
  inc    : W32
  s3     : Bool
  plumb  : Nat
  pin    : Bool
  drift  : Bool
  valid  : Bool
  offset : Int
  rtt    : Nat
  due    : Bool
deriving DecidableEq, Repr

/-- A port that has not trained. -/
def Port.init : Port := ⟨false, 0, 0, false, 0, false, false, false, 0, 0, false⟩

/-- What Lendor writes for an object (R299, R152, R159, R275, R558), as far as a peer chip's answer to the write decides what follows: a fence's mirror
at an address, a ring's completion entry (the descriptor, its `late` and whether it had started), a pushed descriptor, a sequence's step record (the slot's generation, the
position, `base_gen`, and whether its vector goes out), and a probe's record. -/
inductive ObjWrite where
  | mirror (fence addr : Nat)
  | entry (ring : Nat) (d : Desc) (late started : Bool)
  | push (ring : Nat) (index : W32)
  | record (seq : Nat) (gen : Byte) (pos : Nat) (baseGen : Byte) (irq : Bool)
  | digest (part probe : Nat)
deriving DecidableEq, Repr

/-- A write that a peer chip has still to answer (R203): the number that names it on the link, the node, and what it writes. -/
structure RemoteWrite where
  id   : Nat
  node : Nat
  what : ObjWrite
deriving DecidableEq, Repr

/-- The chip's links: its own node number (R43), its ports, the tick of the last offset pass (R95), the
incarnations marked RESET by node (R534), the nodes that cannot be reached with the frame boundaries since (R535), the writes of Lendor's own that
peers have still to answer and the number of the next of them (the model's own: DESIGN CHOICE, notes/assumptions/51.md). -/
structure Net where
  own      : Nat
  ports    : Tab Port
  measured : W64
  reset    : Tab (Option W32)
  gone     : Tab (Option Nat)
  writes   : List RemoteWrite
  nextWrite : Nat
deriving DecidableEq, Repr

/-- Every port untrained. -/
def Net.init : Net := ⟨0, [], 0, [], [], [], 0⟩

/-- The counters: byte vectors (R547; partition × 24 + index, and context × 24 + index with 65,536 + partition for the
context-0 share), operation counters (R549; partition × 45 + index) and the chip's own counters (R554; by number, see countGlob). `wdPart` counts the watchdog fires of a partition's life; `wdAll` and
`faultAll` count fires and `fault_overflow` of every partition since chip reset (R596). -/
structure Obs where
  glob   : Tab Nat
  pbytes : Tab Nat
  cbytes : Tab Nat
  ops    : Tab Nat
  wdPart : Tab Nat
  wdAll  : W32
  faultAll : W32
deriving DecidableEq, Repr

/-- Every counter 0. -/
def Obs.init : Obs := ⟨[], [], [], [], [], 0, 0⟩

end Sys2Proof.Machine
end

