-- ==== Sys2Proof/Machine/Unit/Power.lean ====
section
/-! DEFINITION. The state of power (14_power_and_capo). -/

namespace Sys2Proof.Machine

/-- Power states of a partition (R423). -/
inductive PowSt where
  | l0 | l1 | l2 | l3 | draining | saving | restoring
deriving DecidableEq, Repr

/-- Power state and budget of a partition (R423–R436). `serve`: the engines are in service as far as power goes; `nominal`
is the nominal keep in effect (R421); `target` and `busy` belong to a move that runs (`ref`: the slot that waits for it, none
for a wake or LOW); `step`: the move has a step due at the next frame boundary; `earlier` is the state recorded at LOW entry
(R430); `lastE`, `winE` and `winFrames` are the energies of the last frame and of the window so far in nJ; `eff` is the
effective budget b in 0.1 W; `left` counts the bytes of a save or restore that the maintenance bucket has still to pace; `since` is the frame at which the
state was reached; `gated` holds the engines that joined while the partition was DRAINING (R449). -/
structure PowPart where
  st        : PowSt
  serve     : Bool
  nominal   : Nat
  target    : Nat
  busy      : Bool
  ref       : Option SlotRef
  step      : Bool
  wake      : Bool
  earlier   : Option Nat
  tp        : Nat
  droopCls  : Nat
  droopPrio : Nat
  kMin      : Nat
  l1Keep    : Nat
  budget    : Nat
  burst     : Nat
  eff       : Nat
  lastE     : Nat
  winE      : Nat
  winFrames : Nat
  left      : Nat
  since     : W32
  gated     : List Nat
deriving DecidableEq, Repr

/-- The values at PART_CREATE without the budget, which follows the engines (PWR_BUDGET_SET). -/
def PowPart.init : PowPart :=
  ⟨.l0, true, 16, 0, false, none, false, false, none, 16, 0, 0, 4, 8, 0, 24, 0, 0, 0, 0, 0, 0, []⟩

/-- What Capo does in a field (R437–R439): nothing, the first stretch of the whole field, or the reassigned stretch with the
recovery hold before the ramp. -/
inductive CapoSt where
  | idle | whole | reassigned | ramp
deriving DecidableEq, Repr

/-- Capo in one field (R437–R440, R448): the sensors masked, those tripped with the frame boundaries that each has stayed tripped through, and of the frame
that runs: whether the field's lanes were stretched in it (R226), and whether Capo changed a keep in it. -/
structure Capo where
  st         : CapoSt
  detections : Nat
  masked     : List Nat
  tripped    : List (Nat × Nat)
  lanes      : Bool
  moved      : Bool
deriving DecidableEq, Repr

/-- Capo after a chip reset. -/
def Capo.init : Capo := ⟨.idle, 0, [], [], false, false⟩

/-- The power core (R432–R447): partitions, Capo per field with the Capo keep of each stretched engine and the engines stretched at some time of the
frame that runs (R441), the engines' last energy reports, the chip's limits, s of R434, the rail targets written at start and the rails' latest
voltage and current (R442), the AVSBus counts of R443, and the window's sums. -/
structure Power where
  part      : Tab PowPart
  capo      : Tab Capo
  keep      : Tab Nat
  report    : Tab Nat
  kept      : Tab Bool
  chipLimit : Nat
  reserve   : Nat
  tThrottle : Nat
  tTrip     : Nat
  droopMv   : Nat
  recoverMv : Nat
  shed      : Nat
  deepKeep  : Nat
  scale     : Nat
  rail      : Nat
  targets   : Tab (BitVec 16)
  rails     : Tab (Nat × Nat)
  avsBad    : Nat
  avsGood   : Nat
  avsFault  : Bool
  throttle  : Bool
  trip      : Bool
  coreSum   : Nat
  coreN     : Nat
  coreDw    : Nat
  tMax      : Int
  diode     : Nat
deriving DecidableEq, Repr

/-- The power core after a chip reset. -/
def Power.init : Power :=
  ⟨[], [], [], [], [], 18000, 2640, 95, 105, 40, 20, 4, 4, 256, 0, [], [], 0, 0, false, false, false, 0, 0, 0, 0, 0⟩

end Sys2Proof.Machine
end

