-- ==== Sys2Proof/Machine/Unit/Watch.lean ====
section
/-! DEFINITION. The state of dirty-page logging (17_virtual_instances), and of digests, trace and breakpoints (19_observability). -/

namespace Sys2Proof.Machine

/-- A boundary action of dirty logging that waits for its boundary (R509): BEGIN 0, FLIP 1, STOP 2. -/
structure DirtyWait where
  op    : Nat
  frame : Nat
  ref   : SlotRef
deriving DecidableEq, Repr

/-- Dirty-page logging of a partition (R505–R509). `ranges` lists what the area covers: range, base, length and byte offset of
the bitmap; `words` holds the 8-byte words of the current area that have a bit set, by word number. -/
structure DirtyLog where
  active  : Bool
  areaA   : Nat
  areaB   : Nat
  len     : Nat
  hostBase : Nat
  hostLen : Nat
  ranges  : List (Nat × Nat × Nat × Nat)
  hostOff : Nat
  pass    : Nat
  cur     : Nat
  start   : W32
  outside : W32
  words   : Tab Nat
  wait    : Option DirtyWait
deriving DecidableEq, Repr

/-- No logging. -/
def DirtyLog.init : DirtyLog := ⟨false, 0, 0, 0, 0, 0, [], 0, 0, 0, 0, 0, [], none⟩

/-- What a digest probe has summarised in its window (R556–R558); `lo` and `hi` are the least and greatest value times 2^149. -/
structure Digest where
  elements  : Nat
  lo        : Option Int
  hi        : Option Int
  nan       : Nat
  inf       : Nat
  digest    : W64
  lines     : Nat
  partials  : Nat
  straddled : Nat
  scaleMin  : Nat
  scaleMax  : Nat
  scaleNan  : Nat
  scales    : Nat
  unseen    : Nat
deriving DecidableEq, Repr

/-- Nothing summarised. -/
def Digest.zero : Digest := ⟨0, none, none, 0, 0, 0, 0, 0, 0, 0xFF, 0, 0, 0, 0⟩

/-- A digest probe (DIGEST_SET, R555–R558); `n` counts its records, `frames` the boundaries of its window. -/
structure Probe where
  armed    : Bool
  once     : Bool
  format   : Nat
  seg      : Nat
  filter   : Bool
  logSize  : Nat
  ctx      : Nat
  gen      : Byte
  seq      : Nat
  window   : Nat
  start    : Nat
  length   : Nat
  scaleAt  : Nat
  scaleLen : Nat
  out      : Nat
  n        : Nat
  frames   : Nat
  acc      : Digest
deriving DecidableEq, Repr

/-- A probe that is not armed. -/
def Probe.init : Probe := ⟨false, false, 0, 0, false, 0, 0, 0, 0, 0, 0, 0, 0, 0, 0, 0, 0, Digest.zero⟩

/-- A breakpoint (BREAK_SET). -/
structure Bp where
  armed : Bool
  kind  : Nat
  addr  : W32
  mask  : W32
  count : Nat
  hits  : Nat
deriving DecidableEq, Repr

/-- A breakpoint that is not set. -/
def Bp.init : Bp := ⟨false, 0, 0, 0, 0, 0⟩

/-- States of a control core as breakpoints see it (BREAK_SET). -/
inductive CoreSt where
  | idle | draining | held
deriving DecidableEq, Repr

/-- A control core (R34, R562–R564): `frames` counts the boundaries since the hit; `back`: its engines return at the next boundary; `mem`: the words of
its 256 KiB of instruction memory (0 to 65,535) and 256 KiB of data memory (65,536 to 131,071), 0 before a load (DESIGN CHOICE,
notes/assumptions/88.md); `missed`: the frame boundaries in a row at which its main loop did not refresh its watchdog (R545). -/
structure Core where
  st     : CoreSt
  pc     : W32
  hold   : W32
  frames : Nat
  hitBy  : Nat
  bps    : Tab Bp
  back   : Bool
  mem    : Tab W32
  missed : Nat
deriving DecidableEq, Repr

/-- A core that runs. -/
def Core.init : Core := ⟨.idle, 0, 0, 0, 0, [], false, [], 0⟩

/-- The trace port (R565, TRACE_SET): the settings of its kinds, the packets in its FIFO (oldest first), the packet count, and
the packets lost by source and not yet reported. -/
structure Trace where
  port     : Bool
  lanes    : Nat
  instr    : Bool
  stall    : Bool
  cores    : BitVec 9
  counter  : Bool
  period   : Nat
  parts    : BitVec 64
  frames   : Nat
  fifo     : List (BitVec 256)
  pseq     : Nat
  lost     : Tab Nat
deriving DecidableEq, Repr

/-- The reset column of TRACE_SET. -/
def Trace.init : Trace := ⟨false, 0, false, false, 0, false, 1, 0, 0, [], 0, []⟩

/-- A context window of a telemetry page (R553): the pair's shadow and its values in effect, the values that take effect at the
next snapshot, and what the last snapshot shows. -/
structure Win where
  shadow     : Nat
  sel        : Nat
  enable     : Bool
  expect     : Nat
  next       : Option (Nat × Bool × Nat)
  shown      : Nat
  gen        : Byte
  valid      : Bool
  engineNs   : Nat
  admissions : Nat
  bytes      : List Nat
deriving DecidableEq, Repr

/-- A window after reset. -/
def Win.init : Win := ⟨0, 0, false, 0, none, 0, 0, false, 0, 0, []⟩

/-- The telemetry window as the last snapshot left it (R551–R554): `seq`, the boundary's tick, the generations of the partitions
that were not FREE, the counters, and `rights_ok`. -/
structure Snapshot where
  seq    : W32
  tick   : W64
  gens   : List (Nat × Byte)
  pbytes : Tab Nat
  ops    : Tab Nat
  glob   : Tab Nat
  rights : Bool
deriving DecidableEq, Repr

/-- The telemetry window before the first snapshot. -/
def Snapshot.init : Snapshot := ⟨0, 0, [], [], [], [], false⟩

/-- What watches a partition and the chip: dirty logs, probes (key partition × 8 + probe), control cores, the trace port, context
windows (key partition × 8 + window) and the telemetry snapshot. -/
structure Watch where
  dirty : Tab DirtyLog
  probe : Tab Probe
  core  : Tab Core
  trace : Trace
  win   : Tab Win
  snap  : Snapshot
deriving DecidableEq, Repr

/-- Nothing watches. -/
def Watch.init : Watch := ⟨[], [], [], Trace.init, [], Snapshot.init⟩

end Sys2Proof.Machine
end

