-- ==== Sys2Proof/Machine/Unit/Coh.lean ====
section
/-! DEFINITION. The state of the coherence homes and of the agents' caches (13_coherence). -/

namespace Sys2Proof.Machine

/-- The states of a cached line (R394). -/
inductive CacheSt where
  | i | s | e | m
deriving DecidableEq, Repr

/-- A cached copy of a line: the agent that holds it, what the home's filter records (`own`: O, else S), the agent's own state
as far as messages tell it, the tweak (R395), the data as last seen, whether the agent keeps it in its spill buffer
(R408), the class that filled it, and the way of a field cache that holds it (R219). -/
structure Copy where
  agent : Nat
  own   : Bool
  st    : CacheSt
  tweak : Nat
  data  : LineData
  buf   : Bool
  cls   : Nat
  way   : Option Nat
deriving DecidableEq, Repr

/-- Where a transaction stands: it waits for its line (R403), for probes, for write data after DATA_GO, or for DONE_ACK. -/
inductive Phase where
  | queued | probing | writing | acking
deriving DecidableEq, Repr

/-- A transaction at a home (R402): its request, the agents whose probe response is awaited (1,000 + agent: the dirty data that
follows a PROBE_ACK, R400), the data a cache supplied and whether it was dirty, whether the owner sends its data straight to
the requester, whether an ATOMIC is near (R407), and whether DONE_ACK came early. -/
structure Txn where
  req    : Msg
  phase  : Phase
  need   : List Nat
  got    : Option LineData
  dirty  : Bool
  direct : Bool
  near   : Bool
  acked  : Bool
deriving DecidableEq, Repr

/-- The homes: the copies by line number, the transactions in order of arrival, the messages in flight with their class (R396),
`native_cap` (R416), the engines that change mode with their new mode and whether they have switched (R419), `atomic_place` by
partition, the predictors (R407; home × 4,096 + counter), and per home the agents that wait for a TICKET and those granted one
with the domain of the request (R404); the partition domains that are lost, whose requests no home accepts (R413). -/
structure Coh where
  copy    : Tab (List Copy)
  txns    : List Txn
  net     : List (Nat × Msg)
  cap     : BitVec 128
  switch  : List (Nat × Bool × Bool)
  place   : Tab Nat
  pred    : Tab Nat
  wait    : Tab (List (Nat × Nat))
  granted : Tab (List (Nat × Nat))
  lost    : List Nat
deriving DecidableEq, Repr

/-- The homes after a chip reset. -/
def Coh.init : Coh := ⟨[], [], [], 0, [], [], [], [], [], []⟩

end Sys2Proof.Machine
end

