-- ==== Sys2Proof/Machine/State.lean ====
section
/-! DEFINITION. The state of Lendor, the reasons a step can stop, and the state after reset. -/

namespace Sys2Proof.Machine

/-- The reasons for a fault: a command on a machine that the spec gives no next state. No command of this model raises one. -/
inductive Fault where
  /-- Raised by no command: every command of the table has an effect. Safe. -/
  | none
deriving DecidableEq, Repr

/-- The reasons for a refusal. -/
inductive Refusal where
  /-- Raised by the dispatch arm of a command that has no meaning yet. Safe: the machine stops by name. -/
  | notModelled (mnemonic : String)
deriving DecidableEq, Repr

/-- The state of Lendor: the waiting commands, then one field per unit. `free` counts the free values used (the model's own
field: DESIGN CHOICE, notes/assumptions/5.md); `pending` and `out` are the model's own too (DESIGN CHOICE, notes/assumptions/51.md). -/
structure State where
  pending : List Instr
  chip    : Chip
  beat    : Beat
  box     : Box
  org     : Org
  ten     : Tenant
  fen     : FenceUnit
  eng     : Tab Engine
  reg     : Reg
  xl      : Xlate
  mem     : Mem
  coh     : Coh
  sec     : Sec
  net     : Net
  pwr     : Power
  watch   : Watch
  log     : Log
  obs     : Obs
  board   : Board
  free    : Nat
  out     : Out
deriving DecidableEq, Repr

/-- The machine at power-on: every unit at its reset values, and the chip reset that power-on causes still to be made (R530, R589;
DEDUCED, notes/assumptions/2.md). -/
def State.reset : State where
  pending := []
  chip := Chip.init
  beat := Beat.init
  box := Box.init
  org := Org.init
  ten := Tenant.init
  fen := FenceUnit.init
  eng := enginesReset
  reg := Reg.init
  xl := Xlate.init
  mem := Mem.init
  coh := Coh.init
  sec := Sec.init
  net := Net.init
  pwr := Power.init
  watch := Watch.init
  log := Log.init
  obs := Obs.init
  board := Board.init
  free := 0
  out := Out.init

end Sys2Proof.Machine
end

