-- ==== Sys2Proof/Machine/Ops.lean ====
section
/-! DEFINITION. Reading and changing the numbered objects of State, who holds what (04_partitions), event vectors and
records. -/

namespace Sys2Proof.Machine

/-! ### Service -/

/-- Lendor serves: it has power, no scan has stopped its clocks (R491), and no chip reset is due (R37). -/
def State.alive (s : State) : Bool := s.chip.powered && !s.chip.stopped && s.chip.pending.isNone

/-- What a command does while Lendor serves; otherwise it finds nothing to act on. -/
def State.live (s : State) (f : State → State) : State := if s.alive then f s else s

/-- A chip reset is due (R37, R530): its cause and the failing unit. The first cause stands. -/
def State.needReset (s : State) (cause unit : Nat) : State :=
  if s.chip.pending.isSome then s else { s with chip := { s.chip with pending := some (cause, unit) } }

/-- A free value's number, and the state in which the next one is used. -/
def State.draw (s : State) : Nat × State := (s.free, { s with free := s.free + 1 })

/-! ### Objects by number -/

/-- A partition number. -/
def State.partAt (s : State) (n : Nat) : Part := s.org.part.get Part.init n

/-- Changes a partition number. -/
def State.modPart (s : State) (n : Nat) (f : Part → Part) : State :=
  { s with org := { s.org with part := s.org.part.upd Part.init n f } }

/-- A partition's scheduling policy. -/
def State.schedAt (s : State) (n : Nat) : SchedPol := s.org.sched.get SchedPol.init n

/-- Scheduling figures of a partition in a field. -/
def State.pfieldAt (s : State) (p f : Nat) : PField := s.org.field.get PField.init (p * 4 + f)

/-- Changes scheduling figures of a partition in a field. -/
def State.modPfield (s : State) (p f : Nat) (g : PField → PField) : State :=
  { s with org := { s.org with field := s.org.field.upd PField.init (p * 4 + f) g } }

/-- A context slot. -/
def State.ctxAt (s : State) (c : Nat) : Ctx := s.ten.ctx.get Ctx.init c

/-- Changes a context slot. -/
def State.modCtx (s : State) (c : Nat) (f : Ctx → Ctx) : State :=
  { s with ten := { s.ten with ctx := s.ten.ctx.upd Ctx.init c f } }

/-- Scheduling state of a context in a field. -/
def State.ctxfAt (s : State) (c f : Nat) : CtxField := s.ten.ctxf.get CtxField.init (c * 4 + f)

/-- Changes scheduling state of a context in a field. -/
def State.modCtxf (s : State) (c f : Nat) (g : CtxField → CtxField) : State :=
  { s with ten := { s.ten with ctxf := s.ten.ctxf.upd CtxField.init (c * 4 + f) g } }

/-- A ring. -/
def State.ringAt (s : State) (r : Nat) : Ring := s.ten.ring.get Ring.init r

/-- Changes a ring. -/
def State.modRing (s : State) (r : Nat) (f : Ring → Ring) : State :=
  { s with ten := { s.ten with ring := s.ten.ring.upd Ring.init r f } }

/-- A sequence slot. -/
def State.seqAt (s : State) (q : Nat) : Seq := s.ten.seq.get Seq.init q

/-- Changes a sequence slot. -/
def State.modSeq (s : State) (q : Nat) (f : Seq → Seq) : State :=
  { s with ten := { s.ten with seq := s.ten.seq.upd Seq.init q f } }

/-- A context's reserve lists. -/
def State.reserveAt (s : State) (c : Nat) : Reserve := s.ten.reserve.get Reserve.init c

/-- Changes a context's reserve lists. -/
def State.modReserve (s : State) (c : Nat) (f : Reserve → Reserve) : State :=
  { s with ten := { s.ten with reserve := s.ten.reserve.upd Reserve.init c f } }

/-- A co-batch group. -/
def State.groupAt (s : State) (g : Nat) : Group := s.ten.group.get Group.init g

/-- Changes a co-batch group. -/
def State.modGroup (s : State) (g : Nat) (f : Group → Group) : State :=
  { s with ten := { s.ten with group := s.ten.group.upd Group.init g f } }

/-- An engine. -/
def State.engAt (s : State) (e : Nat) : Engine := s.eng.get Engine.init e

/-- Changes an engine. -/
def State.modEng (s : State) (e : Nat) (f : Engine → Engine) : State := { s with eng := s.eng.upd Engine.init e f }

/-- A fence. -/
def State.fenceAt (s : State) (f : Nat) : Fence := s.fen.fence.get Fence.init f

/-- Changes a fence. -/
def State.modFence (s : State) (f : Nat) (g : Fence → Fence) : State :=
  { s with fen := { s.fen with fence := s.fen.fence.upd Fence.init f g } }

/-- A segment by its key. -/
def State.segAt (s : State) (k : Nat) : Seg := s.xl.seg.get Seg.init k

/-- Changes a segment. -/
def State.modSeg (s : State) (k : Nat) (f : Seg → Seg) : State :=
  { s with xl := { s.xl with seg := s.xl.seg.upd Seg.init k f } }

/-- A partition's migration settings. -/
def State.migrateAt (s : State) (p : Nat) : Migrate := s.xl.migrate.get Migrate.init p

/-- Changes a partition's migration settings. -/
def State.modMigrate (s : State) (p : Nat) (f : Migrate → Migrate) : State :=
  { s with xl := { s.xl with migrate := s.xl.migrate.upd Migrate.init p f } }

/-- A protected range. -/
def State.rangeAt (s : State) (r : Nat) : Range := s.mem.range.get Range.init r

/-- Changes a protected range. -/
def State.modRange (s : State) (r : Nat) (f : Range → Range) : State :=
  { s with mem := { s.mem with range := s.mem.range.upd Range.init r f } }

/-- The line with a number (local address ÷ 128). -/
def State.lineAt (s : State) (l : Nat) : Line := s.mem.line.get Line.init l

/-- Writes a line. -/
def State.putLine (s : State) (l : Nat) (v : Line) : State :=
  { s with mem := { s.mem with line := s.mem.line.put Line.init l v } }

/-- Changes the maintenance activity with a number. -/
def State.modAct (s : State) (id : Nat) (f : Activity → Activity) : State :=
  { s with mem := { s.mem with acts := s.mem.acts.map fun a => if a.id = id then f a else a } }

/-- The maintenance activity with a number. -/
def State.actAt (s : State) (id : Nat) : Option Activity := s.mem.acts.find? fun a => a.id == id

/-- Power state of a partition. -/
def State.powAt (s : State) (p : Nat) : PowPart := s.pwr.part.get PowPart.init p

/-- Changes the power state of a partition. -/
def State.modPow (s : State) (p : Nat) (f : PowPart → PowPart) : State :=
  { s with pwr := { s.pwr with part := s.pwr.part.upd PowPart.init p f } }

/-- Counts in a counter of the global page (R554): number 8f + i for the i-th counter of field f, 32 + 2p and 33 + 2p for port
p, 68 doorbells, 69 bad doorbells, 70 digest records lost, 71 trace packets dropped. -/
def State.countGlob (s : State) (i n : Nat) : State :=
  { s with obs := { s.obs with glob := s.obs.glob.upd 0 i fun x => (x + n) % 2 ^ 64 } }

/-- The key of a memory bucket (R212). -/
def bucketKey (p f tier cls : Nat) : Nat := ((p * 4 + f) * 2 + tier) * 8 + cls

/-- Changes the lane and maintenance values of a partition in a field. -/
def State.modRegField (s : State) (p f : Nat) (g : RegField → RegField) : State :=
  { s with reg := { s.reg with field := s.reg.field.upd RegField.init (p * 4 + f) g } }

/-- Changes the values of a class of a partition in a field. -/
def State.modRegClass (s : State) (p f k : Nat) (g : RegClass → RegClass) : State :=
  { s with reg := { s.reg with cls := s.reg.cls.upd RegClass.init ((p * 4 + f) * 8 + k) g } }

/-- The values of a class of a partition in a field. -/
def State.regClassAt (s : State) (p f k : Nat) : RegClass := s.reg.cls.get RegClass.init ((p * 4 + f) * 8 + k)

/-- A control core (R562). -/
def State.coreAt (s : State) (c : Nat) : Core := s.watch.core.get Core.init c

/-- Changes a control core. -/
def State.modCore (s : State) (c : Nat) (f : Core → Core) : State :=
  { s with watch := { s.watch with core := s.watch.core.upd Core.init c f } }

/-- A breakpoint has stopped a core (R563): its duties wait (R564). -/
def State.coreStopped (s : State) (c : Nat) : Bool := (s.coreAt c).st != .idle

/-- The engines of a core's scope (R563). -/
def coreScope (c e : Nat) : Bool := if 1 ≤ c ∧ c ≤ 4 then e / 32 == c - 1 else decide (c < 8)

/-- A breakpoint holds an engine out of service, or it has still to return (R563). -/
def State.scopeHeld (s : State) (e : Nat) : Bool :=
  s.watch.core.any fun x => (x.2.st != .idle || x.2.back) && coreScope x.1 e

/-- Hawk's service pass is counted while no breakpoint has stopped Hawk (R59, R564). -/
def State.hawkCount (s : State) : State :=
  if s.coreStopped 0 then s else { s with beat := { s.beat with heartbeat := s.beat.heartbeat + 1, hawkPass := s.beat.tick } }

/-- What the watchdogs of the control cores count at a frame boundary (R545): a boundary whose service pass has not come found MB_HEARTBEAT where it
stood, and a core whose main loop did not refresh its watchdog missed one. A core that a breakpoint has stopped counts nothing, and the heartbeat's watch
is suspended while any is (R564). -/
def State.watchCores (s : State) : State :=
  let (n, t) := s.draw
  let stopped := (List.range 9).any fun c => s.coreStopped c
  { t with
    beat := { t.beat with hbMissed := if stopped then t.beat.hbMissed else if t.beat.due.contains 9 then t.beat.hbMissed + 1 else 0 }
    watch := { t.watch with core := (List.range 9).foldl (fun (l : Tab Core) c => l.upd Core.init c fun x =>
      if x.st = .idle then { x with missed := if (Config.coreRefresh n).getLsbD c then 0 else x.missed + 1 } else x) t.watch.core } }

/-- The floor window or the thermal window of the boundary (orders 5 and 6 of R89) is still to be carried out; a power core that a breakpoint has
stopped holds nothing up (R564). -/
def State.epochWaits (s : State) : Bool :=
  s.beat.due.contains 5 || s.beat.due.contains 50 || (s.beat.due.contains 6 && !s.coreStopped 5)

/-- Order 9 of R89: the service pass of a boundary (9 in `due`) is counted once its orders 5 to 8 are through. -/
def State.servicePass (s : State) : State :=
  if s.beat.due.contains 9 && s.beat.due.all fun x => x == 9 || x == 51 || (x == 6 && s.coreStopped 5) then
    ({ s with beat := { s.beat with due := s.beat.due.filter fun x => x != 9 } } : State).hawkCount
  else s

/-- The next number of the chip-wide order of events. -/
def State.tickOrder (s : State) : State := { s with ten := { s.ten with order := s.ten.order + 1 } }

/-! ### Time -/

/-- The frame number of the counter (R87). -/
def State.frame (s : State) : Nat := s.beat.tick.toNat / 8192

/-- Frame bits [44:13] (R87). -/
def frameBits (frame : Nat) : W32 := BitVec.ofNat 32 frame

/-- The `done_frame` of a response or completion written now (R66, R152). -/
def State.nowFrame (s : State) : W32 := frameBits s.frame

/-- The epoch number of the counter (R87). -/
def State.epoch (s : State) : Nat := s.beat.tick.toNat / 8388608

/-! ### Numbers and their holders (R96, R101) -/

/-- The field of an engine (R28). -/
def engField (e : Nat) : Nat := e / 32

/-- The engines that a partition holds in a field. -/
def PartRec.engIn (r : PartRec) (f : Nat) : List Nat := (bitsOf r.engines).filter fun e => engField e == f

/-- A partition holds a context: its block is held and it is not context 0 (R97). -/
def PartRec.hasCtx (r : PartRec) (c : Nat) : Bool := c != 0 && r.ctxBlocks.getLsbD (c / 256)

/-- A partition holds a sequence. -/
def PartRec.hasSeq (r : PartRec) (q : Nat) : Bool := r.seqBlocks.getLsbD (q / 512)

/-- A partition holds a fence. -/
def PartRec.hasFence (r : PartRec) (f : Nat) : Bool := r.fenBlocks.getLsbD (f / 64)

/-- A partition holds a ring. -/
def PartRec.hasRing (r : PartRec) (n : Nat) : Bool := decide (r.ringBase ≤ n / 512) && decide (n / 512 < r.ringBase + r.ringPages)

/-- A partition holds an MSI-X vector. -/
def PartRec.hasVector (r : PartRec) (v : Nat) : Bool := decide (r.vecBase ≤ v) && decide (v < r.vecBase + r.vecCount)

/-- The partition numbers. -/
def parts : List Nat := List.range 64

/-- The partition whose record meets a condition; a FREE partition holds nothing. -/
def State.holder (s : State) (f : PartRec → Bool) : Option Nat :=
  parts.find? fun p => (s.partAt p).st != .free && f (s.partAt p).record

/-- The partition that holds a context. -/
def State.ctxPart (s : State) (c : Nat) : Option Nat := s.holder fun r => r.hasCtx c

/-- The partition that holds an engine. -/
def State.engPart (s : State) (e : Nat) : Option Nat := s.holder fun r => r.engines.getLsbD e

/-- The partition that holds a ring. -/
def State.ringPart (s : State) (r : Nat) : Option Nat := s.holder fun x => x.hasRing r

/-- The partition that holds a fence. -/
def State.fencePart (s : State) (f : Nat) : Option Nat := s.holder fun r => r.hasFence f

/-- The contexts of a partition that have state, with their slots. -/
def State.ctxsOf (s : State) (p : Nat) : List (Nat × Ctx) := s.ten.ctx.filter fun e => (s.partAt p).record.hasCtx e.1

/-- The sequences of a partition that have state. -/
def State.seqsOf (s : State) (p : Nat) : List (Nat × Seq) := s.ten.seq.filter fun e => (s.partAt p).record.hasSeq e.1

/-- The rings of a partition that have state. -/
def State.ringsOf (s : State) (p : Nat) : List (Nat × Ring) := s.ten.ring.filter fun e => (s.partAt p).record.hasRing e.1

/-- The fences of a partition that have state. -/
def State.fencesOf (s : State) (p : Nat) : List (Nat × Fence) := s.fen.fence.filter fun e => (s.partAt p).record.hasFence e.1

/-- The groups that a partition owns (R231). -/
def State.groupsOf (s : State) (p : Nat) : List (Nat × Group) := s.ten.group.filter fun e => e.2.owner == some p

/-- The ranges that a partition owns. -/
def State.rangesOf (s : State) (p : Nat) : List (Nat × Range) :=
  s.mem.range.filter fun e => e.2.st == .owned && e.2.owner == p

/-- The lowest number of a block mask that meets a condition: blocks of `size` numbers. -/
def lowestIn {w : Nat} (m : BitVec w) (size : Nat) (ok : Nat → Bool) : Option Nat :=
  firstSome (fun b => ((List.range size).find? fun i => ok (b * size + i)).map fun i => b * size + i) (bitsOf m)

/-- The chip's own node (R43, R592). -/
def State.ownNode (s : State) : Nat := s.net.own

/-- A node is the chip's own or lies in a partition's span list (R124). -/
def State.nodeAllowed (s : State) (p n : Nat) : Bool := n == s.ownNode || (s.partAt p).nodes.getLsbD n

/-! ### Messages and records -/

/-- Sends an MSI-X message; in LOW it is held, one message per vector (R431). -/
def State.msix (s : State) (v : Nat) : State :=
  { s with out := if s.out.low then
      (if s.out.held.contains v then s.out else { s.out with held := s.out.held ++ [v] })
    else { s.out with msix := s.out.msix ++ [v] } }

/-- Sends the partition's `event_vector` (R101, group 11). -/
def State.partEvent (s : State) (p : Nat) : State :=
  let r := (s.partAt p).record
  if (s.partAt p).st = .free then s else s.msix (r.vecBase + r.eventVec)

/-- Sends chip event vector 3 (R51). -/
def State.chipEvent (s : State) : State := s.msix 3

/-- Sends a vector of a partition by its index; 0xFFFF names none (R160, R287). -/
def State.indexVector (s : State) (p v : Nat) : State :=
  if v = 0xFFFF then s else s.msix ((s.partAt p).record.vecBase + v)

/-- Writes to host memory. -/
def State.hostWrite (s : State) (addr : Nat) (pasid : Option Nat) (bytes data : Nat) : State :=
  { s with out := { s.out with host := s.out.host ++ [⟨addr, pasid, bytes, data⟩] } }

/-- The port by which an access to a node leaves: a trained port to that node, else the first trained port (DESIGN CHOICE,
notes/assumptions/83.md). -/
def State.portFor (s : State) (node : Nat) : Nat :=
  ((s.net.ports.find? fun e => e.2.up && e.2.node == node).orElse fun _ => s.net.ports.find? fun e => e.2.up).map Prod.fst |>.getD 0

/-- Reads host memory. -/
def State.hostRead (s : State) (addr : Nat) (pasid : Option Nat) (bytes : Nat) : State :=
  { s with out := { s.out with hostReads := s.out.hostReads ++ [(addr, pasid, bytes)] } }

/-- The kind of a control message, and the ports by which it leaves; none: an access or an answer, whose payload counts where it passes its port. -/
def State.controlMsg (s : State) : LinkMsg → Option (Nat × List Nat)
  | .marker p _ => some (0, [p])
  | .importRequest n _ => some (1, [s.portFor n])
  | .importAnswer n _ _ => some (2, [s.portFor n])
  | .update n _ _ => some (3, [s.portFor n])
  | .abandon n _ => some (4, [s.portFor n])
  | .unsubscribe n _ _ => some (5, [s.portFor n])
  | .resetNotice p _ _ => some (6, [p])
  | .drift _ => some (7, (s.net.ports.filter fun e => e.2.up).map Prod.fst)
  | .access _ _ _ _ _ _ _ _ _ _ | .answer _ _ _ _ => none

/-- Counts the payload of a control message at a port (R554), as sent or as received. -/
def State.countMsg (s : State) (port kind : Nat) (tx : Bool) : State :=
  s.countGlob ((if tx then 32 else 33) + 2 * port) (Config.linkBytes kind).toNat

/-- The counters once a message to a peer chip has left: a control message counts at each port that it leaves by (R554). -/
def State.sentObs (s : State) (m : LinkMsg) : Obs :=
  match s.controlMsg m with
  | some x => (x.2.foldl (fun (t : State) p => t.countMsg p x.1 true) s).obs
  | none => s.obs

/-- Sends a message to a peer chip. -/
def State.linkSend (s : State) (m : LinkMsg) : State := { s with obs := s.sentObs m, out := { s.out with link := s.out.link ++ [m] } }

/-- The contents of a record beside its number, tick, generation and incarnation. -/
structure RecBody where
  kind   : Nat
  part   : Nat
  ctx    : Nat := 0
  place  : Nat := 0
  status : Status := .ok
  a      : Nat := 0
  b      : Nat := 0
  c      : Nat := 0
  d      : Nat := 0

/-- The records that the log ring holds (R538). -/
def logCapacity : Nat := 262144

/-- Writes a record (R539); a full ring loses its oldest record (R541). -/
def State.logRec (s : State) (r : RecBody) : State :=
  let e : Rec := ⟨s.log.next, s.beat.tick, r.kind, r.part, if r.part < 64 then (s.partAt r.part).gen else 0, s.log.inc,
    r.ctx, r.place, r.status, r.a, r.b, r.c, r.d⟩
  let full := decide (logCapacity ≤ s.log.recs.length)
  { s with log := { s.log with
      recs := (if full then s.log.recs.drop 1 else s.log.recs) ++ [e],
      next := s.log.next + 1,
      lost := if full then s.log.lost + 1 else s.log.lost } }

end Sys2Proof.Machine
end

