-- ==== Sys2Proof/Machine/Operands.lean ====
section
/-! DEFINITION. The framing of mailbox commands: headers and indirect descriptors (R65, R66), the opcode table (R75), the
checks of R73 and R595, and the writing of responses (R62–R64). -/

namespace Sys2Proof.Machine

/-! ### Mailboxes -/

/-- The number under which State keeps a mailbox. -/
def mbNum : Mailbox → Nat
  | .part n => n
  | .manager => 64
  | .security => 65
  | .debug => 66

/-- A mailbox page exists (R49): partition mailboxes 0 to 63 and the three chip-level ones. -/
def mbExists : Mailbox → Bool
  | .part n => decide (n < 64)
  | _ => true

/-- A mailbox. -/
def State.mbAt (s : State) (m : Mailbox) : Mbx := s.box.mbx.get Mbx.init (mbNum m)

/-- Changes a mailbox. -/
def State.modMb (s : State) (m : Mailbox) (f : Mbx → Mbx) : State :=
  { s with box := { s.box with mbx := s.box.mbx.upd Mbx.init (mbNum m) f } }

/-- A slot of a mailbox. -/
def Mbx.slotAt (m : Mbx) (n : Nat) : Slot := m.slots.get Slot.init n

/-- Changes a slot of a mailbox. -/
def Mbx.modSlot (m : Mbx) (n : Nat) (f : Slot → Slot) : Mbx := { m with slots := m.slots.upd Slot.init n f }

/-- The MSI-X vector of a mailbox and whether a message goes out under it (R51–R53). -/
def State.mbVector (s : State) (m : Mailbox) : Option Nat :=
  match m with
  | .part n =>
    let v := (s.mbAt m).vector.toNat
    if (s.partAt n).st != .free && (s.partAt n).record.hasVector v then some v else none
  | .manager => some 0
  | .security => some 1
  | .debug => some 2

/-- The PASID of indirect reads and responses (R66): bound for a partition mailbox, none otherwise. -/
def State.mbPasid (s : State) : Mailbox → Option Nat
  | .part n => some (s.partAt n).record.mbPasid
  | _ => none

/-! ### Status codes (R74) -/

/-- The 8-bit code of a status. -/
def statusCode : Status → Nat
  | .ok => 0x00
  | .deferred => 0x01
  | .rejectedInconsistent => 0x02
  | .notPermitted => 0x03
  | .contextLost => 0x04
  | .staleGeneration => 0x05
  | .poisoned => 0x06
  | .stepRetry => 0x07
  | .peerReset => 0x08
  | .abandoned => 0x09
  | .versionUnsupported => 0x0A
  | .faultTranslation => 0x0B
  | .faultRange => 0x0C

/-! ### Requests (R65, R66) -/

/-- A field of a latched request. -/
def reqFld (req : BitVec 2048) (byte bit w : Nat) : Nat := fld req.toNat byte bit w

/-- The `opcode` of a request. -/
def reqOpcode (req : BitVec 2048) : Nat := reqFld req 0 0 16

/-- `req_indirect`. -/
def reqIndirect (req : BitVec 2048) : Bool := req.getLsbD 16

/-- `resp_indirect`. -/
def respIndirect (req : BitVec 2048) : Bool := req.getLsbD 17

/-- `payload_len`. -/
def reqLen (req : BitVec 2048) : Nat := reqFld req 8 0 16

/-- The length in the length test for the opcode (R66). -/
def effLen (req : BitVec 2048) : Nat := if reqIndirect req then reqFld req 40 0 32 else reqLen req

/-- Header reserved fields are zero (R65). -/
def headerZero (req : BitVec 2048) : Bool :=
  reqFld req 2 2 6 == 0 && reqFld req 3 0 8 == 0 && reqFld req 10 0 16 == 0 && reqFld req 14 0 16 == 0 && reqFld req 28 0 32 == 0

/-- The bytes of response payload that have room (R66): 176 inline, or `resp_len`. -/
def respSpace (req : BitVec 2048) : Nat := if respIndirect req then reqFld req 24 0 32 else 176

/-- A command that passed checks 1 to 7 of R73. -/
structure Cmd where
  ref    : SlotRef
  opcode : Nat
  part   : Nat
  gen    : Nat
  len    : Nat
  pay    : Nat
  space  : Nat
deriving DecidableEq, Repr

/-- A field of a command's payload. -/
def Cmd.f (c : Cmd) (byte bit w : Nat) : Nat := fld c.pay byte bit w

/-- Every listed field (byte, bit, width) of a payload is zero (R17). -/
def Cmd.zeros (c : Cmd) (l : List (Nat × Nat × Nat)) : Bool := l.all fun x => c.f x.1 x.2.1 x.2.2 == 0

/-! ### The opcode table (R75) -/

/-- A row of R75: mailboxes P, M, S, D, the minor, and whether `part` on the manager mailbox must be 0xFF (0), any number
(1), an existing partition (2), or 0xFF or an existing partition (3) (R595). -/
structure OpInfo where
  p     : Bool
  m     : Bool
  s     : Bool
  d     : Bool
  minor : Nat
  fit   : Nat

/-- The opcodes that Tirok accepts (R75, R595). PWR_STATE_SET stands in no row of R595 for the manager mailbox: an existing partition is asked for
(DESIGN CHOICE, notes/assumptions/69.md). -/
def opInfo (op : Nat) : Option OpInfo :=
  match op with
  | 0x0001 | 0x0002 | 0x0003 => some ⟨true, true, true, true, 0, 0⟩
  | 0x0101 => some ⟨true, true, false, false, 0, 0⟩
  | 0x0102 => some ⟨false, true, false, false, 0, 0⟩
  | 0x0201 => some ⟨false, true, false, false, 0, 0⟩
  | 0x0202 => some ⟨true, true, false, false, 0, 2⟩
  | 0x0203 => some ⟨true, true, false, false, 0, 0⟩
  | 0x0204 => some ⟨false, true, false, false, 0, 2⟩
  | 0x0205 => some ⟨true, true, false, false, 0, 1⟩
  | 0x0206 => some ⟨false, true, false, false, 1, 2⟩
  | 0x0301 | 0x0302 | 0x0303 | 0x0304 => some ⟨true, false, false, false, 0, 0⟩
  | 0x0305 => some ⟨true, true, false, false, 0, 2⟩
  | 0x0401 | 0x0402 => some ⟨true, true, false, false, 0, 2⟩
  | 0x0501 => some ⟨false, true, false, false, 0, 2⟩
  | 0x0502 => some ⟨true, true, false, false, 0, 2⟩
  | 0x0601 | 0x0602 | 0x0603 => some ⟨true, false, false, false, 0, 0⟩
  | 0x0701 | 0x0702 | 0x0703 | 0x0704 => some ⟨true, false, false, false, 0, 0⟩
  | 0x0801 | 0x0802 | 0x0803 | 0x0804 => some ⟨true, false, false, false, 0, 0⟩
  | 0x0805 => some ⟨true, true, false, false, 3, 2⟩
  | 0x0901 => some ⟨true, false, false, false, 0, 0⟩
  | 0x0902 => some ⟨true, false, false, false, 2, 0⟩
  | 0x0903 => some ⟨true, false, false, false, 0, 0⟩
  | 0x0904 => some ⟨true, true, false, false, 0, 2⟩
  | 0x0A01 => some ⟨false, true, false, false, 0, 0⟩
  | 0x0A02 => some ⟨true, true, false, false, 0, 2⟩
  | 0x0A03 => some ⟨true, true, false, false, 0, 0⟩
  | 0x0B01 => some ⟨false, true, false, false, 0, 3⟩
  | 0x0C01 => some ⟨false, true, false, false, 0, 3⟩
  | 0x0C02 => some ⟨true, true, false, false, 0, 2⟩
  | 0x0D01 | 0x0D02 | 0x0D03 => some ⟨false, false, true, false, 0, 0⟩
  | 0x0D04 | 0x0D05 | 0x0D06 => some ⟨false, false, false, true, 0, 0⟩
  | 0x0E01 | 0x0E02 => some ⟨false, true, false, false, 4, 2⟩
  | 0x0F01 => some ⟨true, true, false, false, 0, 2⟩
  | 0x0F02 => some ⟨false, true, false, false, 0, 2⟩
  | 0x0F03 => some ⟨false, true, false, true, 0, 0⟩
  | 0x0F04 => some ⟨true, true, false, false, 0, 3⟩
  | 0x1001 => some ⟨true, true, false, false, 0, 2⟩
  | 0x1002 | 0x1003 => some ⟨false, false, false, true, 0, 0⟩
  | 0x1101 => some ⟨false, true, false, false, 0, 0⟩
  | _ => none

/-- The opcode is accepted on a mailbox (R75). -/
def OpInfo.onMb (i : OpInfo) : Mailbox → Bool
  | .part _ => i.p
  | .manager => i.m
  | .security => i.s
  | .debug => i.d

/-- A length suits an opcode (R73, check 4): the payload lengths that the owning chapters give. -/
def lenOk (op n : Nat) : Bool :=
  match op with
  | 0x0001 | 0x0301 => n == 16
  | 0x0002 | 0x0003 | 0x0101 | 0x0102 | 0x1101 => n == 0
  | 0x0201 | 0x0202 => n == 224
  | 0x0203 | 0x0204 | 0x0205 | 0x0302 | 0x0304 | 0x0305 | 0x0402 | 0x0502 | 0x0603 | 0x0702 | 0x0704 | 0x0802 => n == 8
  | 0x0206 => n == 72
  | 0x0303 => n == 48
  | 0x0401 | 0x0501 | 0x0601 => n == 32
  | 0x0602 | 0x0701 => n == 40
  | 0x0703 => decide (8 ≤ n) && n % 4 == 0
  | 0x0801 | 0x0804 => n == 24
  | 0x0803 => n == 16
  | 0x0805 => n == 8
  | 0x0901 => n == 64
  | 0x0902 | 0x0903 => n == 16
  | 0x0904 | 0x0A01 | 0x0A02 | 0x0B01 | 0x0C01 | 0x0D01 | 0x1002 => n == 32
  | 0x0A03 | 0x0C02 | 0x0D02 | 0x0D03 | 0x0D05 | 0x0E02 | 0x0F01 | 0x0F03 => n == 8
  | 0x0D04 => n == 264 || n == 8
  | 0x0D06 => n == 256
  | 0x0E01 | 0x1001 => n == 64
  | 0x0F02 | 0x0F04 | 0x1003 => n == 16
  | _ => false

/-- A partition exists for R595: LIVE, RESETTING or DESTROYING. -/
def State.exists_ (s : State) (n : Nat) : Bool :=
  decide (n < 64) && ((s.partAt n).st == .live || (s.partAt n).st == .resetting || (s.partAt n).st == .destroying)

/-- The header `part` fits the mailbox and the opcode (R595, R68). -/
def State.partFits (s : State) (m : Mailbox) (i : OpInfo) (part : Nat) : Bool :=
  match m with
  | .part n => part == n && s.exists_ n
  | .security | .debug => part == 0xFF
  | .manager =>
    match i.fit with
    | 0 => part == 0xFF
    | 1 => decide (part < 64)
    | 2 => s.exists_ part
    | _ => part == 0xFF || s.exists_ part

/-- The first failing condition of a list decides (R73): condition, status and `detail`. -/
def firstFail : List (Bool × Status × Nat) → Option (Status × Nat)
  | [] => none
  | (ok, st, d) :: t => if ok then firstFail t else some (st, d)

/-- The image failed verification in a state that runs signed images only (R461, R488). -/
def State.imageBad (s : State) : Bool := s.chip.failed && s.chip.failUnit == 0xF0 && (s.sec.lc == .provision || s.sec.lc == .deploy)

/-- The security and debug mailboxes refuse every command in SCRAP (R461, R494); a part whose image failed verification
serves HELLO and LC_TRANSITION to SCRAP only (R461, R488; DEDUCED, notes/assumptions/35.md). -/
def State.scrapOk (s : State) (m : Mailbox) (op target : Nat) : Bool :=
  if m = .security ∨ m = .debug then
    if s.sec.lc = .scrap then false
    else if s.imageBad then op == 1 || (op == 0x0D03 && target == 5) else true
  else true

/-- The payload of a latched request, or what the host link returned for it (R66). -/
def reqPay (req : BitVec 2048) (host : Option Nat) : Nat := if reqIndirect req then host.getD 0 else req.toNat / 2 ^ 256

/-- The place for an indirect response meets R66. -/
def respFits (req : BitVec 2048) : Bool :=
  !respIndirect req || (reqFld req 16 0 64 % 128 == 0 && decide (1 ≤ reqFld req 24 0 32 ∧ reqFld req 24 0 32 ≤ 65536))

/-- Checks 1 to 7 of R73 for the latched request of a mailbox, with R529. `host` is what the host link returns for an
indirect request. Within check 4 the order is header, `payload_len`, the descriptor's reserved word, its address and length, the response's place
(DESIGN CHOICE, notes/assumptions/67.md). -/
def State.checks (s : State) (m : Mailbox) (req : BitVec 2048) (host : Option Nat) : Option (Status × Nat) :=
  let b := s.mbAt m
  let op := reqOpcode req
  let part := reqFld req 12 0 8
  match opInfo op with
  | none => some (.versionUnsupported, if b.open_ then 0x0001 else 0x0002)
  | some i =>
    firstFail [
      (b.open_ || op == 1, .versionUnsupported, 0x0002),
      (decide (i.minor ≤ if b.open_ then b.minor.toNat else 0), .versionUnsupported, 0x0001),
      (i.onMb m, .notPermitted, 0x0003),
      (headerZero req, .rejectedInconsistent, 0x0005),
      (!reqIndirect req || reqLen req == 16, .rejectedInconsistent, 0x0004),
      (lenOk op (effLen req) || (reqIndirect req && (effLen req == 0 || decide (65536 < effLen req))),
        .rejectedInconsistent, 0x0004),
      (!reqIndirect req || reqFld req 44 0 32 == 0, .rejectedInconsistent, 0x0005),
      (!reqIndirect req || (reqFld req 32 0 64 % 128 == 0 && decide (1 ≤ effLen req ∧ effLen req ≤ 65536)),
        .rejectedInconsistent, 0x000B),
      (reqIndirect req || decide (reqLen req ≤ 224), .rejectedInconsistent, 0x0004),
      (respFits req, .rejectedInconsistent, 0x000B),
      (s.partFits m i part, .notPermitted, 0x0006),
      (op == 1 || reqFld req 13 0 8 == (if part == 0xFF then 0 else (s.partAt part).gen.toNat), .staleGeneration, 0),
      (!reqIndirect req || host.isSome, .rejectedInconsistent, 0x0007),
      (match m with
        | .part n => (s.partAt n).st != .resetting || [0x0001, 0x0002, 0x0003, 0x0205, 0x0F04].contains op
        | _ => true, .rejectedInconsistent, 0x0F11),
      (s.scrapOk m op (reqPay req host % 256), .notPermitted, 0x0D28)]

/-! ### Responses (R62–R66) -/

/-- Sets `done` bit s, and sends the mailbox's vector on a new edge (R52, R53, R64). -/
def State.setDone (s : State) (m : Mailbox) (slot : Nat) : State :=
  let b := s.mbAt m
  let t := s.modMb m fun b => { b with done := b.done ||| (1#8 <<< slot) }
  if b.irqEn && !b.done.getLsbD slot then
    match s.mbVector m with
    | some v => t.msix v
    | none => t
  else t

/-- Writes a response (R63): payload, header, `done` bit, message. A response payload longer than its space becomes
REJECTED_INCONSISTENT with `detail` 0x0008 and the length needed. `session` overrides the session byte (R66). -/
def State.respond (s : State) (ref : SlotRef) (st : Status) (detail len pay : Nat) (session : Option W32) : State :=
  let slot := (s.mbAt ref.mb).slotAt ref.slot
  let fits := decide (len ≤ respSpace slot.req)
  let st := if fits then st else .rejectedInconsistent
  let detail := if fits then detail else 0x0008
  let sid := session.getD slot.session
  let inline := fits && !respIndirect slot.req
  let resp : Resp := ⟨BitVec.ofNat 16 (reqOpcode slot.req), st, sid.setWidth 8, BitVec.ofNat 32 (reqFld slot.req 4 0 32),
    BitVec.ofNat 16 len, BitVec.ofNat 16 detail, s.nowFrame,
    if inline && len != 0 then
      BitVec.ofNat 1408 (pay % 2 ^ (8 * len) + slot.resp.payload.toNat / 2 ^ (8 * len) * 2 ^ (8 * len)) else slot.resp.payload⟩
  let t := if fits && respIndirect slot.req && len != 0 then
      s.hostWrite (reqFld slot.req 16 0 64) (s.mbPasid ref.mb) len (pay % 2 ^ (8 * len)) else s
  let t := t.modMb ref.mb fun b => b.modSlot ref.slot fun x => { x with resp := resp, st := if st = .deferred then .parked else .done }
  t.setDone ref.mb ref.slot

/-- The final response of a command that went on in the background or was parked, while its slot still waits for it. -/
def State.finish (s : State) (ref : SlotRef) (st : Status) (detail len pay : Nat) : State :=
  let slot := (s.mbAt ref.mb).slotAt ref.slot
  if slot.ticket = ref.ticket ∧ (slot.st = .running ∨ slot.st = .parked) then s.respond ref st detail len pay none else s

/-- The final response, when the object has a slot that waits. -/
def State.finishOpt (s : State) (ref : Option SlotRef) (st : Status) (detail len pay : Nat) : State :=
  match ref with
  | some r => s.finish r st detail len pay
  | none => s

/-- The partition of a mailbox, or 0xFF. -/
def mbPart : Mailbox → Nat
  | .part n => n
  | _ => 0xFF

/-- The HELLO response payload (R68, R69): `minor`, `session_id` and `open_frame` read 0 in a failing one. -/
def helloFields (s : State) (m : Mailbox) (minor : Nat) (sid frame : W32) : List (Nat × Nat) :=
  [(8, 3), (8, minor), (8, 0), (8, 4), (32, sid.toNat), (32, s.chip.build.toNat), (8, 8), (8, 0), (16, 64), (8, mbPart m),
    (8, match m with
      | .part n => (s.partAt n).gen.toNat
      | _ => 0), (16, 0), (32, frame.toNat), (64, 0)]

/-- A failing HELLO: its payload comes back with every status (R69), but where it has no place that meets R66 (DEDUCED,
notes/assumptions/78.md). -/
def State.refuseHello (s : State) (ref : SlotRef) (st : Status) (d : Nat) : State :=
  if respFits ((s.mbAt ref.mb).slotAt ref.slot).req then s.respond ref st d 32 (pack (helloFields s ref.mb 0 0 0)) none
  else s.respond ref st d 0 0 none

/-- The response of a command that checks 1 to 7 of R73 turn away. -/
def State.turnAway (s : State) (ref : SlotRef) (op : Nat) (st : Status) (d : Nat) : State :=
  if op = 1 then s.refuseHello ref st d else s.respond ref st d 0 0 none

/-- A failing response (R21): no payload. -/
def State.reject (s : State) (c : Cmd) (st : Status) (detail : Nat) : State := s.respond c.ref st detail 0 0 none

/-- A command's response: the state after its effect, or, where the response does not fit, the state before it (R66, R21). -/
def State.answer (before after : State) (c : Cmd) (fields : List (Nat × Nat)) : State :=
  let len := (fields.map Prod.fst).sum / 8
  if len ≤ c.space then after.respond c.ref .ok 0 len (pack fields) none
  else before.respond c.ref .ok 0 len 0 none

/-- The state goes on in the background when the response it will give fits (R66, R76): the slot stays RUNNING. -/
def State.background (before after : State) (c : Cmd) (len : Nat) : State :=
  if len ≤ c.space then after else before.respond c.ref .ok 0 len 0 none

/-- The checks of an owning chapter, then the effect. -/
def State.checked (s : State) (c : Cmd) (l : List (Bool × Status × Nat)) (f : State → State) : State :=
  match firstFail l with
  | some (st, d) => s.reject c st d
  | none => f s

/-! ### Taking a slot (R62, R76) -/

/-- The commands that an owning chapter lets run past the bound of R78, so that they go on in the background (R76): PART_COMMIT (R106),
PART_DESTROY (R117), RING_UNBIND (R161), BASE_LOAD (R252), BASE_SWAP (R259), SEQ_CLOSE (R294), FENCE_IMPORT (R314), SEG_SYNC UNLOAD and
TLB_INVALIDATE (R348), MAINT_START (R388), PWR_STATE_SET (R425), LC_TRANSITION (R470), DIRTY_LOG_START and DIRTY_LOG_STOP (R509), CTX_REVOKE
(R521), PART_RESET (R528) and DUMP_START (R543). -/
def inBackground (op : Nat) : Bool :=
  [0x0203, 0x0204, 0x0304, 0x0602, 0x0603, 0x0702, 0x0804, 0x0901, 0x0903, 0x0A02, 0x0C02, 0x0D03, 0x0E01, 0x0E02, 0x0F01, 0x0F02, 0x0F03].contains op

/-- A foreground command of a mailbox has still to write its response (R76): Hawk takes no further slot of it. One that waits for its boundary, a PART_CREATE or
a TRACE_SET, holds no Hawk time, so that the other mailboxes are served meanwhile (DESIGN CHOICE, notes/assumptions/99.md: R78 leaves it open). -/
def Mbx.busy (b : Mbx) : Bool := b.slots.any fun e => e.2.st == .running && !inBackground (reqOpcode e.2.req)

/-- The mailboxes with a slot that Hawk may take, in the order of their numbers. While a breakpoint stops Hawk, the debug mailbox alone is served
(R564). -/
def State.mailboxesWaiting (s : State) : List Nat :=
  (s.box.mbx.filter fun e => !e.2.queue.isEmpty && !e.2.busy && (e.1 == 66 || !s.coreStopped 0)).map Prod.fst

/-- The mailbox whose turn it is (R78): round-robin, the next that waits after the one served last. -/
def State.turnOf (s : State) : Option Nat :=
  match s.mailboxesWaiting.find? fun n => decide (s.box.turn < n) with
  | some n => some n
  | none => s.mailboxesWaiting.head?

/-- The reference of the slot that Hawk takes next, when it is the mailbox's turn (R76, R78). -/
def State.headRef (s : State) (m : Mailbox) : Option SlotRef :=
  match if mbExists m ∧ s.turnOf = some (mbNum m) then (s.mbAt m).queue else [] with
  | [] => none
  | n :: _ => some ⟨m, n, ((s.mbAt m).slotAt n).ticket⟩

/-- Moves the head slot to RUNNING: the mailbox has had its turn. -/
def State.takeSlot (s : State) (ref : SlotRef) : State :=
  let t := s.modMb ref.mb fun b => { (b.modSlot ref.slot fun x => { x with st := .running }) with queue := b.queue.drop 1 }
  { t with box := { t.box with turn := mbNum ref.mb } }

/-- The command of a latched request. -/
def cmdOf (ref : SlotRef) (req : BitVec 2048) (host : Option Nat) : Cmd :=
  let n := effLen req
  ⟨ref, reqOpcode req, reqFld req 12 0 8, reqFld req 13 0 8, n,
    reqPay req host % 2 ^ (8 * n), respSpace req⟩

/-- The security core serves an opcode on a mailbox whose page takes a MAC of each request (R459). -/
def islandServes (m : Mailbox) (op : Nat) : Bool := (m == .security || m == .debug) && decide (op / 256 = 0x0D)

/-- The MAC that the security and debug mailbox pages take of a request with slot 0 (R459). -/
def State.pageMac (s : State) (req : BitVec 2048) : BitVec 384 :=
  BitVec.ofNat 384 (hmac384 32 ((s.sec.slots.get KeySlot.init 0).mat.toNat % 2 ^ 256) 256 (messageOf 256 req.toNat))

/-- What Hawk relays of the request in a slot does not match the MAC that the page took of it (R459). -/
def State.forged (s : State) (k : Take) (ref : SlotRef) : Bool :=
  match k.altered with
  | some req => s.pageMac req != ((s.mbAt ref.mb).slotAt ref.slot).mac
  | none => false

/-- A request whose MAC fails (R459): it is not acted on, completes with NOT_PERMITTED, and is a control-domain error of cause 4 (R530). The
unit and the syndrome of its record are free values (DESIGN CHOICE, notes/assumptions/65.md). -/
def State.forgedRequest (s : State) (ref : SlotRef) : State :=
  let t := s.respond ref .notPermitted 0x0D2F 0 0 none
  let unit := (Config.islandError t.log.next 0).toNat
  (t.logRec { kind := 0x0018, part := 0xFF, a := unit, b := (Config.islandError t.log.next 1).toNat }).needReset 4 unit

/-- Hawk takes the oldest SUBMITTED slot of a mailbox when its request is this row's: `op` is the row's opcode and `mine`
tells the row's requests from those of another row with the same opcode. A request with an opcode that no row has is
answered by any row (R73, check 2). On every other head nothing happens (DESIGN CHOICE, notes/assumptions/1.md). While a breakpoint stops
Hawk, the telemetry core serves the debug mailbox alone, and runs BREAK_SET only (R564). What the island serves runs only where its MAC matches
(R459). -/
def hawk (op : Nat) (mine : Cmd → Bool) (k : Take) (run : Cmd → State → State) (s : State) : State :=
  match s.headRef k.mb with
  | none => s
  | some ref =>
    let req := ((s.mbAt k.mb).slotAt ref.slot).req
    let held := s.coreStopped 0
    if ((opInfo (reqOpcode req)).isSome ∧ reqOpcode req ≠ op) ∨ (held = true ∧ k.mb ≠ .debug) then s
    else
      let t := s.takeSlot ref
      if held = true ∧ reqOpcode req ≠ 0x1003 then t.turnAway ref (reqOpcode req) .rejectedInconsistent 0x1024
      else match t.checks k.mb req k.host with
      | some (st, d) => t.turnAway ref (reqOpcode req) st d
      | none =>
        if mine (cmdOf ref req k.host) = false then s
        else if s.forged k ref = true ∧ islandServes k.mb op = true then t.forgedRequest ref
        else run (cmdOf ref req k.host) t

/-- Every request of the opcode is the row's. -/
def anyCmd : Cmd → Bool := fun _ => true

end Sys2Proof.Machine
end

