-- ==== Sys2Proof/Machine/Dirty.lean ====
section
/-! DEFINITION. Marking pages in the dirty log (R505–R507). -/

namespace Sys2Proof.Machine

/-- A partition's dirty log. -/
def State.dirtyAt (s : State) (p : Nat) : DirtyLog := s.watch.dirty.get DirtyLog.init p

/-- Changes a partition's dirty log. -/
def State.modDirty (s : State) (p : Nat) (f : DirtyLog → DirtyLog) : State :=
  { s with watch := { s.watch with dirty := s.watch.dirty.upd DirtyLog.init p f } }

/-- The host address of the current area. -/
def DirtyLog.area (d : DirtyLog) : Nat := if d.cur = 0 then d.areaA else d.areaB

/-- A write to host memory under a PASID is none that dirty logging leaves out: those under `host_pasid` and `mb_pasid` (R506). -/
def State.logsPasid (s : State) (p pasid : Nat) : Bool :=
  let r := (s.partAt p).record
  pasid != r.hostPasid && pasid != r.mbPasid

/-- Sets a bit of the current area: bit `i` of the bitmap at a byte offset (R507), by an 8-byte read and, where the word changes, an 8-byte write of its
word under `host_pasid` (R505). The word in memory is the one that the log holds, since the manager zeroed the area and no other writes it. -/
def State.dirtyBit (s : State) (p offset i : Nat) : State :=
  let d := s.dirtyAt p
  let w := (offset * 8 + i) / 64
  let old := d.words.get 0 w
  let new := old ||| 2 ^ ((offset * 8 + i) % 64)
  let t := s.hostRead (d.area + 8 * w) (some (s.partAt p).record.hostPasid) 8
  if old = new then t
  else (t.modDirty p fun d => { d with words := d.words.put 0 w new }).hostWrite (d.area + 8 * w) (some (s.partAt p).record.hostPasid) 8 new

/-- A write to a local address of a range is logged for the partition that owned the range at BEGIN (R506). -/
def State.dirtyMark (s : State) (r a : Nat) : State :=
  let p := (s.rangeAt r).owner
  let d := s.dirtyAt p
  if d.active = false ∨ d.pass = 0 then s
  else match d.ranges.find? fun e => e.1 == r with
    | some e => s.dirtyBit p e.2.2.2 ((a - e.2.1) / 65536)
    | none => s

/-- A host-tier write of a partition under a PASID: its bytes inside the host window are logged, and a write with bytes outside it is counted (R506,
R508). -/
def State.dirtyHost (s : State) (p pasid a n : Nat) : State :=
  let d := s.dirtyAt p
  if d.active = false ∨ d.pass = 0 ∨ n = 0 ∨ s.logsPasid p pasid = false then s
  else
    let first := max a d.hostBase
    let last := min (a + n) (d.hostBase + d.hostLen)
    let t := if first < last then
        (List.range ((last - 1 - d.hostBase) / 65536 - (first - d.hostBase) / 65536 + 1)).foldl
          (fun s i => s.dirtyBit p d.hostOff ((first - d.hostBase) / 65536 + i)) s
      else s
    if d.hostBase ≤ a ∧ a + n ≤ d.hostBase + d.hostLen then t else t.modDirty p fun d => { d with outside := inc32 d.outside }

end Sys2Proof.Machine
end

