-- ==== Sys2Proof/Machine/Lane.lean ====
section
/-! DEFINITION. The memory map (R357, R358), the checks of a gate lane (R361, R363) and what a lane does with a line
(R367–R375), with the buckets that meter it (R212–R215). -/

namespace Sys2Proof.Machine

/-! ### The map -/

/-- The tier of a local address with the codes of R326 (slow 1, fast 2); none: not memory (R357). -/
def localTier (a : Nat) : Option Nat :=
  if a < 0x006000000000 then some 2
  else if 0x010000000000 ≤ a ∧ a < 0x028000000000 then some 1
  else none

/-- The field of a line (R357). -/
def lineField (a : Nat) : Nat := if localTier a = some 2 then a / 2 ^ 34 % 4 else a / 2 ^ 36 % 4

/-- The control region (R357). -/
def inControl (a : Nat) : Bool := decide (0x005F80000000 ≤ a ∧ a ≤ 0x005FFFFFFFFF)

/-- The dump region (R357). -/
def inDump (a : Nat) : Bool := decide (0x027F00000000 ≤ a ∧ a ≤ 0x027FFFFFFFFF)

/-- The save slot in which a line of the dump region lies: its engine (R428, R537). -/
def slotOf (l : Nat) : Option Nat :=
  if 0x027F80000000 ≤ l * 128 ∧ l * 128 < 0x027FC0000000 then some ((l * 128 - 0x027F80000000) / 8388608) else none

/-- Writes or clears the whole save slot of an engine: every line of it takes the save's contents, or every tag word the state CLEAR (R428, R429). -/
def State.markSlot (s : State) (e : Nat) (v : Option (Nat × Nat)) : State :=
  { s with mem := { s.mem with
    line := s.mem.line.filter fun x => slotOf x.1 != some e
    saves := s.mem.saves.put none e v } }

/-- The data extents of the two regions (R358). -/
def inRegionData (a : Nat) : Bool :=
  decide (0x005F80000000 ≤ a ∧ a ≤ 0x005FF7FFFFFF) || decide (0x027F00000000 ≤ a ∧ a ≤ 0x027FBFFFFFFF)

/-- The bucket tier of a local address: 0 fast, 1 slow (R212). -/
def bucketTier (a : Nat) : Nat := if localTier a = some 2 then 0 else 1

/-- An address lies in a defined range's data extent (R360). -/
def Range.holds (r : Range) (a : Nat) : Bool := r.st != .undefined && decide (r.base ≤ a ∧ a < r.base + r.len)

/-- An address lies in a defined range's data extent or in its tag extent (R360). -/
def Range.spans (r : Range) (a : Nat) : Bool :=
  r.st != .undefined && decide (r.base ≤ a ∧ a < r.base + r.len + r.len / 16)

/-- The defined range whose data extent holds an address. -/
def State.rangeOf (s : State) (a : Nat) : Option Nat := (s.mem.range.find? fun e => e.2.holds a).map Prod.fst

/-- The defined range whose data or tag extent holds an address. -/
def State.rangeSpan (s : State) (a : Nat) : Option Nat := (s.mem.range.find? fun e => e.2.spans a).map Prod.fst

/-- The local address of a physical address, bits [47:0] (R43). -/
def localAddr (a : Nat) : Nat := a % 2 ^ 48

/-- The node of a physical address, bits [56:48] (R43). -/
def addrNode (a : Nat) : Nat := a / 2 ^ 48 % 512

/-! ### Tweaks (R363) -/

/-- A tweak from its kind and identifier. -/
def tweakOf (kind id : Nat) : Nat := kind * 65536 + id

/-- The kind of a tweak, bits [17:16]. -/
def tweakKind (t : Nat) : Nat := t / 65536 % 4

/-- The identifier of a tweak, bits [15:0]. -/
def tweakId (t : Nat) : Nat := t % 65536

/-- A row of an engine's running batch. -/
def State.rowAt (s : State) (e i : Nat) : Option (Batch × Row) :=
  match (s.engAt e).running with
  | some (.batch b) => b.rows[i]?.map fun r => (b, r)
  | _ => none

/-- The partition for which a request is made (R361, step 4). -/
def State.reqPart (s : State) : Requester → Option Nat
  | .row e i _ => (s.rowAt e i).map fun x => x.1.part
  | .batch e _ => match (s.engAt e).running with
    | some (.batch b) => some b.part
    | _ => none
  | .work e => match (s.engAt e).running with
    | some (.work w) => some w.part
    | _ => none
  | .lendor p _ _ => some p
  | _ => none

/-- The requesters that a tweak fits (R363). -/
def State.tweakFits (s : State) (who : Requester) (write : Bool) (t : Nat) : Bool :=
  let id := tweakId t
  decide (t < 2 ^ 18) &&
  match tweakKind t, who with
  | 0, .row e i _ => match s.rowAt e i with
    | some x => x.2.ctx == id
    | none => false
  | 0, .work e => match (s.engAt e).running with
    | some (.work w) => w.ctx == id
    | _ => false
  | 0, .lendor p _ _ => s.ctxPart id == some p
  | 0, .peer _ _ _ _ => true
  | 1, .row _ _ _ => s.reqPart who == some id
  | 1, .batch _ _ => s.reqPart who == some id
  | 1, .work _ => !write && s.reqPart who == some id
  | 1, .peer _ _ _ _ => true
  | 1, .lendor p _ _ => p == id
  | 2, .lendor p _ _ => p == id
  | 3, .control _ => id == 0
  | _, _ => false

/-- The parity of a request's tag holds (R239). -/
def parityHolds : Requester → Bool
  | .row _ _ ok => ok
  | .batch _ ok => ok
  | _ => true

/-- Lendor's own control traffic. -/
def isControl : Requester → Bool
  | .control _ => true
  | _ => false

/-- The first check of R361 that refuses a request, 1 to 6; none: the line decides (R367). -/
def State.gateStep (s : State) (who : Requester) (a : Nat) (sel : Selector) (write : Bool) : Option Nat :=
  if localTier a = none then some 1
  else if (who = .dma ∨ who = .debug) ∧ ((s.rangeSpan a).isSome ∨ inControl a ∨ inDump a) then some 2
  else if isControl who = true ∧ inRegionData a then
    (if tweakKind sel.tweak = 3 ∧ s.tweakFits who write sel.tweak then none else some 6)
  else match s.rangeOf a with
    | none => some 3
    | some r =>
      let range := s.rangeAt r
      let owner := s.partAt range.owner
      let mine := match who with
        | .peer node span _ _ => owner.st == .live && owner.span == BitVec.ofNat 32 span && owner.nodes.getLsbD node
        | .control _ => false
        | _ => s.reqPart who == some range.owner
      if range.st ≠ .owned ∨ mine = false then some 4
      else if sel.range ≠ r then some 5
      else if parityHolds who = false ∨ s.tweakFits who write sel.tweak = false then some 6
      else none

/-! ### Buckets (R212–R215) -/

/-- The memory bucket of a partition for a local address and a class. -/
def State.bucketFor (s : State) (p a cls : Nat) : Bucket :=
  s.reg.bucket.get Bucket.init (bucketKey p (lineField a) (bucketTier a) cls)

/-- Charges a request that passed a lane (R214). -/
def State.charge (s : State) (p a cls bytes : Nat) (waited : Bool) : State :=
  let k := bucketKey p (lineField a) (bucketTier a) cls
  let b := s.bucketFor p a cls
  let b' := { b with t := b.t - bytes, g := b.g - bytes, passed := b.passed + bytes, waited := b.waited || (waited && decide (0 < b.g)) }
  { s with reg := { s.reg with bucket := s.reg.bucket.put Bucket.init k b' } }.countGlob (8 * lineField a + bucketTier a) bytes

/-- Adds to an entry of a partition's byte vector (R547). -/
def State.countPart (s : State) (p i n : Nat) : State :=
  { s with obs := { s.obs with pbytes := s.obs.pbytes.upd 0 (p * 24 + i) fun x => (x + n) % 2 ^ 64 } }

/-- Adds to an entry of a context's byte vector; the context-0 share of partition p is kept at number 65,536 + p (R548). -/
def State.countCtx (s : State) (c i n : Nat) : State :=
  let t := { s with obs := { s.obs with cbytes := s.obs.cbytes.upd 0 (c * 24 + i) fun x => (x + n) % 2 ^ 64 } }
  if c < 65536 then t.modCtx c fun x => { x with now := { x.now with bytes := (x.now.bytes + n) % 2 ^ 64 } } else t

/-- The number that keeps a context's byte vector: the partition's share for context 0. -/
def ctxCount (p c : Nat) : Nat := if c = 0 then 65536 + p else c

/-- Counts bytes for a context and its partition (R548). -/
def State.countBoth (s : State) (p c i n : Nat) : State := (s.countPart p i n).countCtx (ctxCount p c) i n

/-- The byte-vector index of a local address: FAST 2, SLOW 3 (R547). -/
def tierIndex (a : Nat) : Nat := if localTier a = some 2 then 2 else 3

/-- Charges maintenance traffic to the owner of a line (R211, R215). -/
def State.chargeMaint (s : State) (p a bytes : Nat) : State :=
  let t := s.modRegField p (lineField a) fun f =>
    if bucketTier a = 0 then { f with fastLeft := f.fastLeft - bytes, fastNow := f.fastNow + bytes }
    else { f with slowLeft := f.slowLeft - bytes, slowNow := f.slowNow + bytes }
  (((t.countPart p 5 bytes).countPart p (tierIndex a) bytes).countGlob (8 * lineField a + bucketTier a) bytes).countGlob
    (8 * lineField a + 3) bytes

/-- Lendor's control traffic in the field of a line (R211, R554). -/
def State.countControl (s : State) (a bytes : Nat) : State :=
  (s.countGlob (8 * lineField a + bucketTier a) bytes).countGlob (8 * lineField a + 2) bytes

/-! ### Lines (R365–R375) -/

/-- The key material of a key slot: 0 for an EMPTY slot. -/
def State.slotMat (s : State) (n : Nat) : Nat :=
  let k := s.sec.slots.get KeySlot.init n
  if k.loaded then k.mat.toNat else 0

/-- A SKIM runs on a range. -/
def State.skimOn (s : State) (r : Nat) : Option Activity :=
  s.mem.acts.find? fun a => a.code == 2 && a.running && a.ranges.contains r

/-- The newest live generation of a range (R362, R372). -/
def State.newestGen (s : State) (r : Nat) : Nat :=
  if (s.skimOn r).isSome then ((s.rangeAt r).keyGen + 1) % 4 else (s.rangeAt r).keyGen

/-- The keys of a scramble slot and of the tag slot after it, as one number: 512 bits and 256 bits (R454). -/
def State.pairMat (s : State) (n : Nat) : Nat := s.slotMat n * 2 ^ 256 + s.slotMat (n + 1) % 2 ^ 256

/-- The keys with which a generation of a range seals; none: no live generation (R362). -/
def State.genKey (s : State) (r g : Nat) : Option Nat :=
  let range := s.rangeAt r
  if g = range.keyGen then some (s.pairMat range.keySlot)
  else match s.skimOn r with
    | some a => if g = (range.keyGen + 1) % 4 then some (s.pairMat a.skimSlot) else none
    | none => none

/-- T of R364: the address of line `l`, the tweak, the generation and the write counter. -/
def lineTweak (l tweak gen wcount : Nat) : Nat :=
  l % 2 ^ 41 * 2 ^ 87 + tweak % 2 ^ 20 * 2 ^ 67 + gen % 4 * 2 ^ 65 + wcount % 2 ^ 16 * 2 ^ 49

/-- A line scrambled or unscrambled under a pair of slots and T (R364; byte orders PRESUMED, notes/assumptions/98.md). -/
def scramble (enc : Bool) (key tweak : Nat) (d : LineData) : LineData :=
  BitVec.ofNat 1024 (xts enc (messageOf 64 (key / 2 ^ 256)) tweak d.toNat)

/-- The stored bytes of a line (R364); none: the spec does not give them, as nothing has written them. -/
def Line.bytes (v : Line) : Option LineData :=
  match v.kept with
  | .unwritten => none
  | .raw => some v.data
  | .sealed key tweak => some (scramble true key tweak v.data)

/-- The MAC of a VALID line over T, ciphertext and line state (R364). -/
def lineMac (key tweak : Nat) (cipher : LineData) : Nat := cmac (messageOf 32 (key % 2 ^ 256)) 9 (tweak + cipher.toNat * 2 ^ 128) % 2 ^ 44

/-- The `mac` of a line's tag word (R365): 0 where it is not VALID. -/
def Line.mac (v : Line) : Nat :=
  match v.st, v.kept with
  | .valid, .sealed key tweak => lineMac key tweak (scramble true key tweak v.data)
  | _, _ => 0

/-- What a VALID line gives under a pair of slots and T (R364, R367): the bytes that were sealed under both; else its ciphertext unscrambled, where the MAC
happens to pass; none: the MAC fails. -/
def Line.opened (v : Line) (key tweak : Nat) : Option LineData :=
  if v.kept = .sealed key tweak then some v.data
  else match v.bytes with
    | some b => if lineMac key tweak b = v.mac then some (scramble false key tweak b) else none
    | none => none

/-- What line `l` of a range gives under a tweak (R364, R367); none: its MAC fails. -/
def State.opened (s : State) (r l : Nat) (v : Line) (tweak : Nat) : Option LineData :=
  (s.genKey r v.gen).bind fun key => v.opened key (lineTweak l tweak v.gen v.wcount)

/-- Lines of a range whose counter stands at 65,535 (R389). -/
def State.frozenLines (s : State) (r : Nat) : Nat :=
  (s.mem.line.filter fun e => (s.rangeAt r).holds (e.1 * 128) && e.2.st == .valid && e.2.wcount == 65535).length

/-- Adds a maintenance activity that waits. -/
def State.addAct (s : State) (a : Activity) : State :=
  { s with mem := { s.mem with acts := s.mem.acts ++ [{ a with id := s.mem.nextAct }], nextAct := s.mem.nextAct + 1 } }

/-- An activity of a code on ranges of a partition, waiting, with nothing done. -/
def Activity.new (code : Nat) (ranges : List Nat) (part : Nat) : Activity :=
  ⟨0, code, ranges, part, false, false, none, 0, 0, 0, 0, 0, 0, 0xFFFF, 0, 0, 0, 0, 0, 0, false, [], 0⟩

/-- Queues SKIM, or writes SKIM_NEEDED, once per key generation (R371). -/
def State.raiseSkim (s : State) (r : Nat) : State :=
  let range := s.rangeAt r
  if range.raised then s
  else
    let t := s.modRange r fun x => { x with raised := true }
    if s.mem.acts.any (fun a => a.code == 2 && a.ranges.contains r) then t
    else if range.skimSlot = 0xFFFF then
      (t.logRec { kind := 0x000A, part := if range.st = .owned then range.owner else 0xFF, a := r, b := s.frozenLines r }).chipEvent
    else t.addAct { Activity.new 2 [r] range.owner with skimSlot := range.skimSlot }

/-- The tag lines that a field's tag cache holds (R366): 65,536. -/
def tagCacheSize : Nat := 65536

/-- A field's tag cache holds the tag line of a line. -/
def State.tagHeld (s : State) (l : Nat) : Bool := (s.mem.tags.get [] (lineField (l * 128))).contains (l / 16)

/-- Uses the tag line of a line (R366): on a miss it is read as control traffic, the line it displaces is written back when it is dirty, and a
write leaves it dirty. -/
def State.tagUse (s : State) (l : Nat) (write : Bool) : State :=
  let f := lineField (l * 128)
  let t := if s.tagHeld l then s else s.countControl (l * 128) 128
  let c := touch (s.mem.tags.get [] f) (l / 16)
  let d := s.mem.tagDirty.get [] f
  let d' := if write && !d.contains (l / 16) then d ++ [l / 16] else d
  if tagCacheSize < c.length then
    let out := c.headD 0
    let t := if d.contains out then t.countControl (out * 2048) 128 else t
    { t with mem := { t.mem with tags := t.mem.tags.put [] f (c.drop 1), tagDirty := t.mem.tagDirty.put [] f (d'.filter (· != out)) } }
  else { t with mem := { t.mem with tags := t.mem.tags.put [] f c, tagDirty := t.mem.tagDirty.put [] f d' } }

/-- Writes a whole line under the newest generation (R367, R370, R371). -/
def State.writeLine (s : State) (r l : Nat) (data : LineData) (tweak : Nat) : State :=
  let old := s.lineAt l
  let g := s.newestGen r
  let same := old.st == .valid && old.gen == g
  let n := if same then min (old.wcount + 1) 65535 else 1
  let t := (s.tagUse l true).putLine l ⟨data, .valid, g, n, .sealed ((s.genKey r g).getD 0) (lineTweak l tweak g n), false⟩
  let t := if tweakKind tweak = 2 then t else t.dirtyMark r (l * 128)
  let t := if same && old.wcount == 65535 then t.modRange r fun x => { x with frozen := satAdd 64 x.frozen 1 } else t
  if n = 65535 then t.raiseSkim r else t

/-- Sets a line POISONED or SHARED_POISONED; the stored bytes stay (R365, R374). -/
def State.poisonLine (s : State) (l : Nat) (st : LineSt) : State :=
  let t := (s.tagUse l true).putLine l { (s.lineAt l) with st := st }
  match s.rangeOf (l * 128) with
  | some r => t.dirtyMark r (l * 128)
  | none => t

/-- The bytes of a line with those that a mask names replaced. -/
def mergeBytes (old new : LineData) (mask : LineMask) : LineData :=
  let m : BitVec 1024 := (List.range 128).foldl (fun m b => if mask.getLsbD b then m ||| (0xFF#1024 <<< (8 * b)) else m) 0#1024
  (old &&& ~~~m) ||| (new &&& m)

/-- A tag line's uncorrectable error (R374): 16 words POISONED, the tag line listed, TAG_REBUILD queued. -/
def State.loseTagLine (s : State) (r l : Nat) : State :=
  let first := l / 16 * 16
  let t := (List.range 16).foldl (fun t i =>
    let u := t.poisonLine (first + i) .poisoned
    u.putLine (first + i) { (u.lineAt (first + i)) with lost := true }) s
  let t := t.modRange r fun x =>
    if x.lost.contains first then x
    else if x.lost.length < 64 then { x with lost := x.lost ++ [first] } else { x with overflow := true }
  if t.mem.acts.any (fun a => a.code == 1 && a.ranges.contains r) then t
  else t.addAct (Activity.new 1 [r] (s.rangeAt r).owner)

/-- What a lane answers: the state, the data of a read, the status, the `lost_reason` of a failure that costs the
requester's context (R515), whether the line was a poisoned shared line (R375), and whether a write met a failing line
(R369). -/
structure LaneOut where
  st     : State
  data   : LineData
  status : Status
  reason : Nat
  shared : Bool
  failed : Bool

/-- A read of memory at a lane that passed R361 (R367, R373, R375). `base` is set for a batch tag, and for a row tag
or a peer under a kind-1 tweak. -/
def State.bareRead (s : State) (r l : Nat) (tweak : Nat) (ecc : EccEvent) (base : Bool) : LaneOut :=
  let v := s.lineAt l
  let range := s.rangeAt r
  let bad := v.st == .valid && (ecc == .uncorrectable || (ecc == .correctable && range.act))
  let t := if v.st == .valid && ecc == .correctable && !range.act then
      s.modRange r fun x => { x with fixed := inc32 x.fixed } else s
  if bad || v.st == .poisoned || v.st == .shared then
    if base then ⟨t.poisonLine l .shared, 0, .poisoned, 0, true, false⟩
    else if tweakKind tweak = 1 then ⟨if bad then t.poisonLine l .shared else t, 0, .poisoned, 0, bad || v.st == .shared, false⟩
    else ⟨if bad then t.poisonLine l .poisoned else t, 0, .poisoned, 4, false, false⟩
  else if v.st == .clear then ⟨t, 0, .ok, 0, false, false⟩
  else match s.opened r l v tweak with
    | some d => ⟨t, d, .ok, 0, false, false⟩
    | none => ⟨(t.modRange r fun x => { x with mismatch := inc32 x.mismatch }).logRec
      { kind := 0x0008, part := range.owner, a := r, b := l * 128, c := tweak }, 0, .faultRange, 3, false, false⟩

/-- A write of memory at a lane that passed R361 (R367–R370, R373). -/
def State.bareWrite (s : State) (r l : Nat) (tweak : Nat) (data : LineData) (mask : LineMask) (ecc : EccEvent) : LaneOut :=
  let v := s.lineAt l
  let range := s.rangeAt r
  let bad := v.st == .valid && (ecc == .uncorrectable || (ecc == .correctable && range.act) || (s.opened r l v tweak).isNone)
  let fixed := v.st == .valid && ecc == .correctable && !range.act
  if mask = BitVec.allOnes 128 then ⟨s.writeLine r l data tweak, 0, .ok, 0, false, false⟩
  else if v.st == .poisoned || v.st == .shared then ⟨s, 0, .poisoned, 0, false, false⟩
  else if bad then
    ⟨s.poisonLine l (if tweakKind tweak = 1 then .shared else .poisoned), 0, .poisoned,
      if tweakKind tweak = 0 then 5 else 0, tweakKind tweak == 1, true⟩
  else
    let t := if fixed then s.modRange r fun x => { x with fixed := inc32 x.fixed } else s
    ⟨t.writeLine r l (mergeBytes (if v.st == .clear then 0 else (s.opened r l v tweak).getD 0) data mask) tweak, 0, .ok, 0, false, false⟩

end Sys2Proof.Machine
end

