-- ==== Sys2Proof/Machine/CohOps.lean ====
section
/-! DEFINITION. Cached copies as Lendor's own accesses and its probes meet them (R395, R405, R410, R411). -/

namespace Sys2Proof.Machine

/-- The copies of a line. -/
def State.copies (s : State) (l : Nat) : List Copy := s.coh.copy.get [] l

/-- Writes the copies of a line. -/
def State.putCopies (s : State) (l : Nat) (c : List Copy) : State := { s with coh := { s.coh with copy := s.coh.copy.put [] l c } }

/-- Changes an agent's copy of a line. -/
def State.modCopy (s : State) (l a : Nat) (f : Copy → Copy) : State :=
  s.putCopies l ((s.copies l).map fun c => if c.agent = a then f c else c)

/-- An agent loses its copy of a line. -/
def State.dropCopy (s : State) (l a : Nat) : State := s.putCopies l ((s.copies l).filter fun c => c.agent != a)

/-- An agent gets a copy of a line. -/
def State.addCopy (s : State) (l : Nat) (c : Copy) : State := s.putCopies l ((s.copies l).filter (fun x => x.agent != c.agent) ++ [c])

/-- An agent that may move a line from E to M silently (R394): an operand cache, or a cache of the control domain. -/
def writesSilently (a : Nat) : Bool := decide (a < 128 ∨ 136 ≤ a)

/-- Writes a line through its lane, charged to the range's owner in the class that filled the copy (R214). -/
def State.putBack (s : State) (r l : Nat) (c : Copy) (d : LineData) : State :=
  let p := (s.rangeAt r).owner
  let ctx := if tweakKind c.tweak = 0 then tweakId c.tweak else 0
  ((s.charge p (l * 128) c.cls 128 false).countBoth p ctx (tierIndex (l * 128)) 128).writeLine r l d c.tweak

/-- Writes an owned line's dirty bytes to memory; a clean line writes nothing. An operand cache may have made its line dirty silently (R394), in
M and in its spill buffer it surely has; a field cache's line is as it was given. -/
def State.writeBack (s : State) (l : Nat) (c : Copy) : State :=
  match s.rangeOf (l * 128) with
  | none => s
  | some r =>
    if c.own = false then s
    else if writesSilently c.agent then
      let (n, t) := s.draw
      if c.buf || c.st == .m || Config.cacheDirty n then t.putBack r l c (Config.cacheData n) else t
    else if c.st = .m then s.putBack r l c c.data else s

/-- A read that keeps no copy (FETCH_TRANSIENT, R410): the owner's dirty data reaches memory and the owner keeps the line clean in E; one whose line
sits in its spill buffer holds it no more (R408). -/
def State.snoopRead (s : State) (l : Nat) : State :=
  match (s.copies l).find? fun c => c.own with
  | some c =>
    let t := s.writeBack l c
    if c.buf then t.dropCopy l c.agent else t.modCopy l c.agent fun c => { c with st := .e, data := (t.lineAt l).data }
  | none => s

/-- A write that keeps no copy (STORE_THROUGH, R410): dirty data reaches memory and every copy goes. -/
def State.snoopWrite (s : State) (l : Nat) : State :=
  match s.copies l with
  | [] => s
  | cs => (cs.foldl (fun s c => s.writeBack l c) s).putCopies l []

/-- Probes an agent's copies out of the lines that meet a condition, dirty data to memory (R405, R411). -/
def State.probeOut (s : State) (agent : Nat) (f : Nat → Bool) : State :=
  s.coh.copy.foldl (fun s e =>
    if f e.1 then match e.2.find? fun c => c.agent == agent with
      | some c => (s.writeBack e.1 c).dropCopy e.1 agent
      | none => s
    else s) s

/-- Probes an engine's operand cache out. -/
def State.probeEngine (s : State) (e : Nat) : State := s.probeOut e fun _ => true

/-! ### Entries of a home (R402, R404) -/

/-- An agent runs in compatibility mode. -/
def State.compatAgent (s : State) (a : Nat) : Bool := decide (a < 128) && (s.engAt a).compat

/-- A message back to the sender of a request, with nothing in it. -/
def msgBack (m : Msg) (op : Nat) : Msg :=
  { m with op := op, src := m.dst, dst := m.src, ticket := false, state := 0, dirty := false, noop := false, direct := false, status := .ok, data := 0, mask := 0 }

/-- The domain and agent of each entry held at a home. -/
def State.homeEntries (s : State) (h : Nat) : List (Nat × Nat) :=
  ((s.coh.txns.filter fun (t : Txn) => t.req.dst == h).map fun (t : Txn) => (t.req.domain, t.req.src)) ++
  (s.coh.granted.get [] h).map fun x => (x.2, x.1)

/-- The partitions that own a range with lines in a home's field. -/
def State.homeParts (s : State) (h : Nat) : List Nat :=
  parts.filter fun p => (s.rangesOf p).any fun e => 132 + lineField e.2.base == h

/-- Shared entries in use, for a list of entries: what exceeds the two of each compatibility agent and the eight of each
partition. -/
def State.sharedUsed (s : State) (h : Nat) (l : List (Nat × Nat)) : Nat :=
  let count := fun (d : Nat) =>
    let mine := l.filter fun x => x.1 == d
    let compat := (mine.filter fun x => s.compatAgent x.2).map Prod.snd
    (mine.filter fun x => !s.compatAgent x.2).length + (compat.eraseDups.map fun a => compat.count a - 2).sum -
      (if (s.homeParts h).contains d then 8 else 0)
  (((l.map Prod.fst).eraseDups.filter fun d => d != 64).map count).sum

/-- A home has an entry for a request. -/
def State.hasEntry (s : State) (h d a : Nat) : Bool :=
  let l := s.homeEntries h
  if d = 64 then decide ((l.filter fun x => x.1 == 64).length < 64)
  else
    let pool := 1024 - 8 * (s.homeParts h).length - 2 * ((List.range 128).filter s.compatAgent).length
    let after := s.sharedUsed h (l ++ [(d, a)])
    decide (after ≤ pool) || after == s.sharedUsed h l

/-- A TICKET of a home to an agent, for a request of a domain. -/
def ticketTo (home agent domain : Nat) : Msg :=
  ⟨0x09, home, agent, domain, false, 0, 0, false, false, false, .ok, 0, 0, 0, 0, 0, false, 0, 0, 0, 0, .clean, 0⟩

/-- The oldest waiting agent of a home gets a TICKET, with the entry reserved, when an entry is free for it (R404). -/
def State.ticketNext (s : State) (h : Nat) : State :=
  match s.coh.wait.get [] h with
  | [] => s
  | a :: rest =>
    if s.hasEntry h a.2 a.1 then
      { s with coh := { s.coh with
        wait := s.coh.wait.put [] h rest, granted := s.coh.granted.put [] h (s.coh.granted.get [] h ++ [a])
        net := s.coh.net ++ [(2, ticketTo h a.1 a.2)] } }
    else s

/-- The entries that have come free at a home go to its waiting agents, oldest first (R404). -/
def State.ticketAll (s : State) (h : Nat) : Nat → State
  | 0 => s
  | n + 1 => (s.ticketNext h).ticketAll h n

/-- No transaction that an engine asked for is open. -/
def State.engQuiet (s : State) (e : Nat) : Bool := s.coh.txns.all fun t => t.req.src != e

/-- A line is blocked by a transaction (R403). -/
def State.lineBusy (s : State) (l : Nat) : Bool := s.coh.txns.any fun t => t.req.line == l

/-- A read that fails a line's MAC (R367): the state with its TAG_MISMATCH record. -/
def State.tagMismatch (s : State) (r l tweak : Nat) : State :=
  (s.modRange r fun x => { x with mismatch := inc32 x.mismatch }).logRec
    { kind := 0x0008, part := (s.rangeAt r).owner, a := r, b := l * 128, c := tweak }

/-- A read at a lane: the home's probes come first (R410). One whose tweak differs from that of a cached copy fails as its MAC would
(R395). -/
def State.laneRead (s : State) (r l : Nat) (tweak : Nat) (ecc : EccEvent) (base : Bool) : LaneOut :=
  if (s.copies l).any fun c => c.tweak != tweak then ⟨s.tagMismatch r l tweak, 0, .faultRange, 3, false, false⟩
  else ((s.snoopRead l).tagUse l false).bareRead r l tweak ecc base

/-- A write at a lane: the home's probes come first (R410). -/
def State.laneWrite (s : State) (r l : Nat) (tweak : Nat) (data : LineData) (mask : LineMask) (ecc : EccEvent) : LaneOut :=
  ((s.snoopWrite l).tagUse l true).bareWrite r l tweak data mask ecc

end Sys2Proof.Machine
end

