-- ==== Sys2Proof/Machine/Trans.lean ====
section
/-! DEFINITION. Segments and page entries (R322–R331), the translation caches (R332–R337), and Lendor's own accesses for an
object of a context (R339, R361). -/

namespace Sys2Proof.Machine

/-! ### Segments and entries -/

/-- The key of a segment: context × 16 + segment, or the partition's context-0 set (R322). -/
def segKey (p c g : Nat) : Nat := if c = 0 then 2 ^ 20 + p * 16 + g else c * 16 + g

/-- The page size of a segment in bytes (R324). -/
def Seg.pageSize (g : Seg) : Nat := if g.big then 2097152 else 65536

/-- The pages of a segment. -/
def Seg.pages (g : Seg) : Nat := g.limit / g.pageSize

/-- A segment holds a context address. -/
def Seg.holds (g : Seg) (a : Nat) : Bool := g.valid && decide (g.base ≤ a ∧ a < g.base + g.limit)

/-- The valid segment of a set that holds a context address (R323): its key. -/
def State.findSeg (s : State) (p c a : Nat) : Option Nat :=
  ((List.range 16).find? fun g => (s.segAt (segKey p c g)).holds a).map fun g => segKey p c g

/-- The bytes from `a` lie in one valid segment of the set that permits the access (R160, R287, R310). -/
def State.covered (s : State) (p c a len : Nat) (write : Bool) : Bool :=
  match s.findSeg p c a with
  | some k =>
    let g := s.segAt k
    g.holds (a + len - 1) && (if write then g.write else g.read)
  | none => false

/-- Page-entry fields (R326). -/
def entryPresent (w : Nat) : Bool := w.testBit 0

/-- The tier of a page entry. -/
def entryTier (w : Nat) : Nat := w / 2 % 4

/-- The physical address of a page entry's page. -/
def entryPhys (w : Nat) : Nat := w / 65536 % 2 ^ 48 * 65536

/-- The key selector's range for a tier (R327). -/
def Seg.keyFor (g : Seg) (tier : Nat) : Nat := if tier = 2 then g.keyFast else g.keySlow

/-- The local address of a device-copy word (R323, R330). -/
def Seg.wordAddr (g : Seg) (i : Nat) : Nat := localAddr g.table + 8 * i

/-- Reads the device-copy word of a page under the partition's table tweak (R330); a failing line is logged and gives no
word (R356). `ecc` is the error state in which the walk finds the line. -/
def State.tableWord (s : State) (p k i : Nat) (ecc : EccEvent) : State × Option Nat :=
  let a := (s.segAt k).wordAddr i
  match s.rangeOf a with
  | none => (s, none)
  | some r =>
    if (s.rangeAt r).st ≠ .owned ∨ (s.rangeAt r).owner ≠ p then (s, none)
    else
      let o := s.laneRead r (a / 128) (tweakOf 2 p) ecc false
      if o.status = .ok then (o.st, some ((o.data >>> (8 * (a % 128))).toNat % 2 ^ 64))
      else (o.st.logRec { kind := 0x0014, part := p, a := k % 16, b := a / 128 * 128, ctx := if k < 2 ^ 20 then k / 16 else 0 }, none)

/-- Writes device-copy words from an index on (R344), in ranges that the partition owns (R361): lines written whole where all sixteen words are given. -/
def State.putWords (s : State) (p k first : Nat) (ws : List W64) : State :=
  (ws.zipIdx).foldl (fun s (x : W64 × Nat) =>
    let a := (s.segAt k).wordAddr (first + x.2)
    match s.rangeOf a with
    | none => s
    | some r =>
      if (s.rangeAt r).st ≠ .owned ∨ (s.rangeAt r).owner ≠ p then s
      else
      let b := a % 128
      let l := a / 128
      let first16 := decide (b = 0 ∧ x.2 + 16 ≤ ws.length)
      let whole := decide (b / 8 ≤ x.2 ∧ x.2 - b / 8 + 16 ≤ ws.length)
      if first16 then
        s.writeLine r l (((ws.drop x.2).take 16).zipIdx.foldl
          (fun (d : LineData) (y : W64 × Nat) => d ||| ((y.1.setWidth 1024) <<< (64 * y.2))) 0#1024) (tweakOf 2 p)
      else if whole then s
      else (s.laneWrite r l (tweakOf 2 p) ((x.1.setWidth 1024) <<< (8 * b)) ((0xFF#128) <<< b) .clean).st) s

/-! ### Translation caches -/

/-- A cached translation serves a page. -/
def TlbEntry.is (e : TlbEntry) (k page : Nat) : Bool := e.seg == k && e.page == page

/-- Puts an entry at the recent end of a list of bounded length. -/
def lruPush (size : Nat) (l : List TlbEntry) (e : TlbEntry) : List TlbEntry :=
  let l := l.filter fun x => !(x.is e.seg e.page)
  (if size ≤ l.length then l.drop 1 else l) ++ [e]

/-- Removes the first entry that meets a condition (the least recently used of them). -/
def dropFirst (f : TlbEntry → Bool) : List TlbEntry → List TlbEntry
  | [] => []
  | e :: t => if f e then t else e :: dropFirst f t

/-- The STLB entries guaranteed to a partition in a field (R333). -/
def State.stlbGuarantee (s : State) (p f : Nat) : Nat := 1024 * ((s.partAt p).record.engIn f).length

/-- Fills an STLB entry (R333): a full STLB evicts p's least recently used entry, or, while p holds fewer than its
guarantee, that of a partition above its own. -/
def State.stlbFill (s : State) (f : Nat) (e : TlbEntry) : State :=
  let l := (s.xl.stlb.get [] f).filter fun x => !(x.is e.seg e.page)
  let held := fun p => (l.filter fun x => x.part == p).length
  let l :=
    if l.length < 32768 then l
    else if held e.part < s.stlbGuarantee e.part f then dropFirst (fun x => decide (s.stlbGuarantee x.part f < held x.part)) l
    else dropFirst (fun x => x.part == e.part) l
  { s with xl := { s.xl with stlb := s.xl.stlb.put [] f (if l.length < 32768 then l ++ [e] else l) } }

/-- Fills an ETLB entry (R332). -/
def State.etlbFill (s : State) (eng : Nat) (e : TlbEntry) : State :=
  { s with xl := { s.xl with etlb := s.xl.etlb.upd [] eng fun l => lruPush 128 l e } }

/-- Walks one page for a field (R334): the STLB takes a present entry; an absent page is never cached (R337). The answer is
whether the device copy was readable, and the entry. -/
def State.walk (s : State) (f p k page : Nat) (ecc : EccEvent) : State × Bool × Option TlbEntry :=
  match s.tableWord p k page ecc with
  | (t, none) => (t, false, none)
  | (t, some w) =>
    if entryPresent w then
      let e : TlbEntry := ⟨p, k, page, entryPhys w, entryTier w⟩
      (t.stlbFill f e, true, some e)
    else (t, true, none)

/-- Looks a page up for an engine: ETLB, then the field's STLB, then a walk (R332–R334). -/
def State.lookup (s : State) (eng p k page : Nat) : State × Bool × Option TlbEntry :=
  let f := engField eng
  match (s.xl.etlb.get [] eng).find? fun e => e.is k page with
  | some e => (s.etlbFill eng e, true, some e)
  | none => match (s.xl.stlb.get [] f).find? fun e => e.is k page with
    | some e => ((s.stlbFill f e).etlbFill eng e, true, some e)
    | none => match s.walk f p k page .clean with
      | (t, ok, some e) => (t.etlbFill eng e, ok, some e)
      | (t, ok, none) => (t, ok, none)

/-- Removes cached translations that meet a condition, in every engine and field (R348). -/
def State.dropTlb (s : State) (f : TlbEntry → Bool) : State :=
  { s with xl := { s.xl with
      etlb := s.xl.etlb.mapAll [] fun _ l => l.filter fun e => !f e
      stlb := s.xl.stlb.mapAll [] fun _ l => l.filter fun e => !f e } }

/-- Removes cached KV page-list lookups of sequences that meet a condition (R333, R348). -/
def State.dropKv (s : State) (f : Nat → Bool) : State :=
  { s with xl := { s.xl with kv := s.xl.kv.mapAll [] fun _ l => l.filter fun e => !f e.seq } }

/-- The tweak of a segment's lines (R327, R363). -/
def segTweak (p k : Nat) : Nat := if k < 2 ^ 20 then tweakOf 0 (k / 16) else tweakOf 1 p

/-! ### Hot counters (R350, R352) -/

/-- The page is moving, or a fault wait holds its entry (R352). -/
def State.pageBusy (s : State) (k page : Nat) : Bool :=
  s.mem.acts.any fun a => a.code == 3 && a.running && a.seg == k && a.page == page

/-- The context number and segment number of a segment's key. -/
def keyCtx (k : Nat) : Nat := if k < 2 ^ 20 then k / 16 else 0

/-- Writes a HOT record (R350). -/
def State.hotRecord (s : State) (p : Nat) (h : HotCount) : State :=
  let m := s.migrateAt p
  let phase := if m.hotN.testBit m.hotLog then 0 else 1
  let t := s.hostWrite (m.logAddr + 16 * (m.hotN % 2 ^ m.hotLog)) (some (s.partAt p).record.hostPasid) 16
    (pack [(16, keyCtx h.seg), (4, h.seg % 16), (2, h.tier), (1, 0), (1, phase), (8, 0), (32, h.page), (32, h.count), (32, s.nowFrame.toNat)])
  let t := t.modMigrate p fun m => { m with hotN := m.hotN + 1 }
  if t.org.hotEvt.contains p then t else { t with org := { t.org with hotEvt := t.org.hotEvt ++ [p] } }.partEvent p

/-- The counter that makes room for a new page: the partition's lowest count. -/
def State.coldest (s : State) (f p : Nat) : Option HotCount :=
  argMin (fun h => (h.count : Int)) (s.xl.hot.filter fun h => h.field == f && h.part == p)

/-- Counts accesses to a page (R350): slow-tier lines at a gate lane, host-tier tiles at the translator. -/
def State.hotCount (s : State) (f p k page tier n : Nat) : State :=
  let m := s.migrateAt p
  let is := fun (h : HotCount) => h.field == f && h.part == p && h.seg == k && h.page == page
  if m.fault = true ∨ m.threshold = 0 ∨ (s.segAt k).hot = false ∨ (s.segAt k).node ≠ s.ownNode ∨ n = 0 then s
  else
    let mine := (s.xl.hot.filter fun h => h.field == f && h.part == p).length
    let room := decide (mine < 128 * (((s.partAt p).record.engIn f).length))
    let l := if s.xl.hot.any is then s.xl.hot
      else if room then s.xl.hot ++ [⟨f, p, k, page, tier, 0, false⟩]
      else match s.coldest f p with
        | some c => s.xl.hot.filter (· != c) ++ [⟨f, p, k, page, tier, 0, false⟩]
        | none => s.xl.hot
    let l := l.map fun h => if is h && !h.recorded then { h with count := h.count + n, tier := tier } else h
    let t := { s with xl := { s.xl with hot := l } }
    match l.find? is with
    | some h =>
      if h.recorded = false ∧ m.threshold ≤ h.count ∧ s.pageBusy k page = false then
        { t with xl := { t.xl with hot := l.map fun x => if is x then { x with recorded := true } else x } }.hotRecord p h
      else t
    | none => t

/-! ### Link ports (R221) -/

/-- A link bucket of a partition at a port. -/
def State.linkAt (s : State) (p port : Nat) : LinkBucket := s.reg.link.get LinkBucket.init (p * 18 + port)

/-- Counts payload bytes of a partition at a port (R221, R547, R554). -/
def State.countLink (s : State) (p c port bytes : Nat) (tx : Bool) : State :=
  let t := { s with reg := { s.reg with link := s.reg.link.upd LinkBucket.init (p * 18 + port) fun b =>
    if tx then { b with txLeft := b.txLeft - bytes, tx := b.tx + bytes } else { b with rxLeft := b.rxLeft - bytes, rx := b.rx + bytes } } }
  (t.countBoth p c (6 + port) bytes).countGlob ((if tx then 32 else 33) + 2 * port) bytes

/-- The payload bytes that a port carries per frame and direction (R221). -/
def portBytes : Nat := 1818624

/-- The number by which a peer answers a message; none: no answer comes, or the access is whole in its step. -/
def LinkMsg.id : LinkMsg → Option Nat
  | .access id _ _ _ _ _ _ _ _ _ => if id = 0 then none else some id
  | _ => none

/-- A unit has a level-4 credit left at a port (R200): 64 for an engine, 32 for a control unit. -/
def PortOut.credit (x : PortOut) (w : PortWait) : Bool :=
  w.msg.id.isNone || decide ((x.open_.filter fun y => y.1 == w.unit).length < if w.unit < 128 then 64 else 32)

/-- Sends an access out by a port: its payload counts, on the partition's bucket or on spare capacity. It holds its level-4 credit there until the peer
has answered (R203). -/
def State.passPort (s : State) (n : Nat) (w : PortWait) : State :=
  let t := { s with
    out := { s.out with ports := s.out.ports.upd PortOut.init n fun x => { x with
      sent := x.sent + w.bytes, open_ := x.open_ ++ (w.msg.id.map fun id => (w.unit, id)).toList } }
    reg := { s.reg with link := s.reg.link.upd LinkBucket.init (w.part * 18 + n) fun b =>
      if b.txLeft = 0 then { b with spare := b.spare + w.bytes } else b } }
  (if w.bytes = 0 then t else t.countLink w.part w.ctx n w.bytes true).linkSend w.msg

/-- The place of a waiting access at a port (R221): a bucket that holds bytes first, by deadline; then spare capacity by round robin in proportion to the
shares; then partitions without a share. Ties go by age. -/
def State.portPlace (s : State) (n : Nat) (w : PortWait) : Int :=
  let b := s.linkAt w.part n
  let share := (s.partAt w.part).record.linkShare
  if 0 < b.txLeft then (if w.dl = 0 then 2 ^ 70 else w.dl)
  else if 0 < share then 2 ^ 80 + (b.spare * 2048 / share : Nat)
  else 2 ^ 160

/-- A port sends what its capacity and the credits still carry. -/
def State.drainPort (s : State) (n : Nat) : Nat → State
  | 0 => s
  | k + 1 =>
    let x := s.out.ports.get PortOut.init n
    match argMin (s.portPlace n) (x.wait.filter x.credit) with
    | none => s
    | some w =>
      if portBytes < x.sent + w.bytes then s
      else ({ s with out := { s.out with ports := s.out.ports.put PortOut.init n { x with wait := x.wait.erase w } } }.passPort n w).drainPort n k

/-- A new frame at every port (R221). -/
def State.drainPorts (s : State) : State :=
  s.out.ports.foldl (fun t e =>
    ({ t with out := { t.out with ports := t.out.ports.upd PortOut.init e.1 fun x => { x with sent := 0 } } }).drainPort e.1 e.2.wait.length) s

/-- A message with payload leaves by a port at once, or waits there while earlier ones wait, the frame's capacity is used or its unit has no credit
(R200, R221); one that needs no credit waits for no credit (R202). -/
def State.portSend (s : State) (n : Nat) (w : PortWait) : State :=
  let x := s.out.ports.get PortOut.init n
  if x.wait = [] ∧ x.sent + w.bytes ≤ portBytes ∧ x.credit w = true then s.passPort n w
  else ({ s with out := { s.out with ports := s.out.ports.put PortOut.init n { x with wait := x.wait ++ [w] } } } : State).drainPort n (x.wait.length + 1)

/-- An access leaves by the port for its node. -/
def State.linkAccess (s : State) (node : Nat) (w : PortWait) : State := s.portSend (s.portFor node) w

/-- A peer has answered a message: its credit frees at the port that sent it, which sends what waits for it (R203). -/
def State.freeCredit4 (s : State) (id : Nat) : State :=
  match s.out.ports.find? fun e => e.2.open_.any fun y => y.2 == id with
  | some e =>
    ({ s with out := { s.out with ports := s.out.ports.put PortOut.init e.1 { e.2 with open_ := e.2.open_.eraseP fun y => y.2 == id } } } : State).drainPort
      e.1 e.2.wait.length
  | none => s

/-- Every credit of a number frees: its access is over. -/
def State.freeCredits (s : State) (id : Nat) : State :=
  { s with out := { s.out with ports := s.out.ports.mapAll PortOut.init fun _ x => { x with open_ := x.open_.filter fun y => y.2 != id } } }

/-- A deadline as a request carries it (R223): frame bits [15:0] and the tick offset; 0 for none. -/
def wireDl (dl : Nat) : Nat := if dl = 0 then 0 else dl % 2 ^ 29

/-- The absolute deadline that a carried one names: the tick nearest to now with those bits. -/
def State.readDl (s : State) (w : Nat) : Nat :=
  if w = 0 then 0
  else
    let now := s.beat.tick.toNat + 2 ^ 29
    let d := (w % 2 ^ 29 + 2 ^ 29 - now % 2 ^ 29) % 2 ^ 29
    if d < 2 ^ 28 then now + d - 2 ^ 29 else now + d - 2 * 2 ^ 29

/-! ### Lendor's own accesses for a context (R203, R244, R363) -/

/-- Where a byte run of a context lies: the page's tier and physical address, and the segment. -/
structure Place where
  tier : Nat
  phys : Nat
  seg  : Nat

/-- Resolves a context address for Lendor's own access: the checks of R339 with a walk of the device copy. -/
def State.place (s : State) (p c a : Nat) (write : Bool) : State × Option Place :=
  if 2 ^ 48 ≤ a then (s, none)
  else match s.findSeg p c a with
    | none => (s, none)
    | some k =>
      let g := s.segAt k
      if (if write then g.write else g.read) = false then (s, none)
      else if g.node ≠ s.ownNode ∧ (s.partAt p).nodes.getLsbD g.node = false then (s, none)
      else match s.tableWord p k ((a - g.base) / g.pageSize) .clean with
        | (t, none) => (t, none)
        | (t, some w) =>
          if entryPresent w = false then (t, none)
          else if entryTier w ≠ 0 ∧ g.keyFor (entryTier w) = 0xFF then (t, none)
          else (t, some ⟨entryTier w, entryPhys w + (a - g.base) % g.pageSize, k⟩)

/-- The PASID of a segment's host-tier pages (R324). -/
def State.segPasid (s : State) (p k : Nat) : Nat :=
  if (s.segAt k).pasid = 0 then (s.partAt p).record.hostPasid else (s.segAt k).pasid

/-- The bucket class and byte counts of an access that Lendor makes for a context: charged to the partition (R210, R214)
and counted for both (R548); a slow-tier line counts for its page (R350). -/
def State.meter (s : State) (p c : Nat) (x : Place) (page cls bytes : Nat) : State :=
  let a := localAddr x.phys
  let t := (s.charge p a cls bytes false).countBoth p c (tierIndex a) bytes
  if x.tier = 1 then t.hotCount (lineField a) p x.seg page 1 1 else t

/-- Accesses to a node complete PEER_RESET at once: it is marked RESET, or no link is up (R534, R535). -/
def State.nodeDown (s : State) (node : Nat) : Bool := (s.net.reset.get none node).isSome || !(s.net.ports.any fun e => e.2.up)

/-- The page of a segment that holds a context address. -/
def State.pageOf (s : State) (k a : Nat) : Nat := (a - (s.segAt k).base) / (s.segAt k).pageSize

/-- An access of Lendor's own for a context that has to wait at its lane: its bucket holds neither G nor T (R216). -/
def State.objWaits (s : State) (p c a cls : Nat) (write : Bool) : Bool :=
  match (s.place p c a write).2 with
  | some x =>
    let b := s.bucketFor p (localAddr x.phys) cls
    x.tier != 0 && addrNode x.phys == addrNode (s.segAt x.seg).table && b.ceil != 0xFFFF && b.g == 0 && b.t == 0
  | none => false

/-- How a write for an object ends: it faulted in translation or at the gate, it is made, or it went to a peer chip that has still to answer. -/
inductive Written where
  | failed | made | sent
deriving DecidableEq, Repr

/-- The number that names the k-th write of Lendor's own at a peer chip. -/
def writeId (k : Nat) : Nat := 2 ^ 32 + k

/-- A write for an object goes out to a peer chip, which will answer it (R203). -/
def State.remoteWrite (s : State) (what : ObjWrite) (node : Nat) (w : Nat → PortWait) : State :=
  let id := writeId s.net.nextWrite
  ({ s with net := { s.net with writes := s.net.writes ++ [⟨id, node, what⟩], nextWrite := s.net.nextWrite + 1 } } : State).linkAccess node (w id)

/-- Lendor writes up to 128 bytes of one line for an object of a context: a completion entry, a step record, a fence mirror,
a pushed descriptor or a digest record. A write to a peer chip uses the credits of the partition's control unit (DESIGN CHOICE,
notes/assumptions/92.md). -/
def State.objWriteAs (s : State) (what : ObjWrite) (p c a bytes cls : Nat) (data : Nat) : State × Written :=
  match s.place p c a true with
  | (t, none) => (t, .failed)
  | (t, some x) =>
    if x.tier = 0 then
      (((t.hostWrite x.phys (some (t.segPasid p x.seg)) bytes data).countBoth p c 4 bytes).dirtyHost p (t.segPasid p x.seg) x.phys bytes, .made)
    else
      let sel : Selector := ⟨(t.segAt x.seg).keyFor x.tier, tweakOf 0 c⟩
      let node := addrNode x.phys
      if node ≠ addrNode (t.segAt x.seg).table then
        if t.nodeDown node then (t, .failed)
        else (t.remoteWrite what node fun id => ⟨p, c, 128 + p, bytes, 0, .access id node p [(x.phys, bytes)] sel none true cls (t.partAt p).span 0⟩, .sent)
      else
        let la := localAddr x.phys
        match t.gateStep (.lendor p cls (128 + p)) la sel true with
        | some _ => (t, .failed)
        | none =>
          let o := t.laneWrite sel.range (la / 128) sel.tweak ((BitVec.ofNat 1024 data) <<< (8 * (la % 128)))
            (BitVec.ofNat 128 ((2 ^ bytes - 1) * 2 ^ (la % 128))) .clean
          (o.st.meter p c x (t.pageOf x.seg a) cls (if bytes ≤ 32 then 32 else 128), if o.status = .ok then .made else .failed)

/-- Lendor reads up to 64 bytes of one line for an object of a context: a descriptor or the ring memory of a scan. `host` is
what the host link returns when the page lies in the host tier. -/
def State.objRead (s : State) (p c a bytes cls : Nat) (host : Option Nat) : State × Option Nat :=
  match s.place p c a false with
  | (t, none) => (t, none)
  | (t, some x) =>
    if x.tier = 0 then (t.countBoth p c 4 bytes, host)
    else
      let sel : Selector := ⟨(t.segAt x.seg).keyFor x.tier, tweakOf 0 c⟩
      let node := addrNode x.phys
      if node ≠ addrNode (t.segAt x.seg).table then
        if t.nodeDown node then (t, none)
        else ((t.linkAccess node ⟨p, c, 128 + p, 0, 0, .access 0 node p [(x.phys, bytes)] sel none false cls (t.partAt p).span 0⟩).countLink p c (t.portFor node) bytes false, host)
      else
        let la := localAddr x.phys
        match t.gateStep (.lendor p cls (128 + p)) la sel false with
        | some _ => (t, none)
        | none =>
          let o := t.laneRead sel.range (la / 128) sel.tweak .clean false
          let t := o.st.meter p c x (t.pageOf x.seg a) cls (if bytes ≤ 32 then 32 else 128)
          if o.status = .ok then (t, some ((o.data >>> (8 * (la % 128))).toNat % 2 ^ (8 * bytes))) else (t, none)

end Sys2Proof.Machine
end

