-- ==== Sys2Proof/Machine/WorkOps.lean ====
section
/-! DEFINITION. Shared operations on rings (R142–R162), fences (R297–R308), sequences (R269–R286) and groups (R253, R259),
and the loss of a context through a fault (R517). -/

namespace Sys2Proof.Machine

/-! ### Descriptors (R146, R147) -/

/-- A field of a descriptor. -/
def Desc.f (d : Desc) (byte bit w : Nat) : Nat := fld d.bits.toNat byte bit w

/-- `type`. -/
def Desc.type (d : Desc) : Nat := d.f 0 0 8
/-- `irq`. -/
def Desc.irq (d : Desc) : Bool := d.f 1 0 1 == 1
/-- `serial`. -/
def Desc.serial (d : Desc) : Bool := d.f 1 1 1 == 1
/-- `part_gen`. -/
def Desc.partGen (d : Desc) : Nat := d.f 2 0 8
/-- `ctx_gen`. -/
def Desc.ctxGen (d : Desc) : Nat := d.f 3 0 8
/-- `user_tag`: 32 bits in v3, 16 in v2. -/
def Desc.tag (d : Desc) (fmt : Nat) : Nat := if fmt = 3 then d.f 4 0 32 else d.f 4 0 16
/-- `deadline`; a v2 descriptor has none (R147). -/
def Desc.deadline (d : Desc) (fmt : Nat) : Nat := if fmt = 3 then d.f 8 0 16 else 0
/-- The fence of a WAIT or SIGNAL. -/
def Desc.fence (d : Desc) (fmt : Nat) : Nat := d.f 16 0 (if fmt = 3 then 14 else 32)
/-- The value of a WAIT or SIGNAL; 32 bits in v2, zero-extended (R147). -/
def Desc.value (d : Desc) (fmt : Nat) : Nat := if fmt = 3 then d.f 24 0 64 else d.f 20 0 32
/-- `cmd_addr`. -/
def Desc.cmdAddr (d : Desc) (fmt : Nat) : Nat := if fmt = 3 then d.f 16 0 64 else d.f 8 0 64
/-- `cmd_len`. -/
def Desc.cmdLen (d : Desc) (fmt : Nat) : Nat := if fmt = 3 then d.f 24 0 32 else d.f 16 0 32
/-- `args`: 32 zero bytes in v2 (R147). -/
def Desc.args (d : Desc) (fmt : Nat) : Nat := if fmt = 3 then d.f 32 0 256 else 0
/-- The sequence of a PREFILL. -/
def Desc.seq (d : Desc) (fmt : Nat) : Nat := if fmt = 3 then d.f 16 0 17 else d.f 16 0 32
/-- `tokens`. -/
def Desc.tokens (d : Desc) (fmt : Nat) : Nat := if fmt = 3 then d.f 20 0 16 else d.f 20 0 16
/-- `tok_addr`. -/
def Desc.tokAddr (d : Desc) (fmt : Nat) : Nat := if fmt = 3 then d.f 24 0 64 else d.f 8 0 64
/-- `pos`. -/
def Desc.pos (d : Desc) (fmt : Nat) : Nat := if fmt = 3 then d.f 32 0 32 else d.f 24 0 32

/-- The absolute deadline of a carrier (R88): 0 for none, else a tick. -/
def deadlineAt (frame deadline : Nat) : Nat := if deadline = 0 then 0 else frame * 8192 + deadline

/-- Whether a deadline has passed; 0 names none. -/
def State.late (s : State) (dl : Nat) : Bool := dl != 0 && decide (dl < s.beat.tick.toNat)

/-! ### Rings -/

/-- How far an index lies above another, modulo 2^32. -/
def ahead (a b : W32) : Nat := (a - b).toNat

/-- The slots of a ring. -/
def Ring.slots (r : Ring) : Nat := 2 ^ r.size

/-- `done` advances past each index whose entry has been written (R156). -/
def Ring.advance (r : Ring) : Nat → Ring
  | 0 => r
  | n + 1 => if r.written.contains r.done then
      Ring.advance { r with done := r.done + 1, written := r.written.filter (· != r.done) } n
    else r

/-- The bytes of a completion entry (R152, R153). -/
def Ring.entry (r : Ring) (d : Desc) (st : Status) (late : Bool) (frame : W32) : Nat :=
  let phase := if d.index.getLsbD r.size then 0 else 1
  if r.fmt = 3 then
    pack [(32, d.tag 3), (8, statusCode st), (8, d.partGen), (8, d.ctxGen), (1, phase), (1, bit late), (6, 0),
      (32, d.index.toNat), (32, frame.toNat)]
  else
    pack [(16, d.tag 2), (8, statusCode st), (1, phase), (7, 0), (16, d.index.toNat), (8, d.partGen), (8, d.ctxGen)]

/-- A ring-state cache's entries (R163). -/
def ringCacheSize : Nat := 4096

/-- An entry is pinned while a descriptor of its ring runs on an engine or has a completion not yet written; a WAIT that is
held does not pin it (R163). -/
def Ring.pinned (r : Ring) : Bool := (r.running.any fun d => d.type != 3) || !r.writing.isEmpty

/-- Takes a ring out of the caches. -/
def State.uncache (s : State) (r : Nat) : State :=
  { s with ten := { s.ten with ringCache := s.ten.ringCache.mapAll [] fun _ l => l.filter (· != r) } }

/-- A ring is in its home field's cache. -/
def State.cached (s : State) (r : Nat) : Bool := (s.ten.ringCache.get [] (s.ringAt r).home).contains r

/-- The entry that a fill replaces (R163): the least recently doorbelled entry that is not pinned, of a partition above its
floor of 16 entries. -/
def State.ringVictim (s : State) (f : Nat) : Option Nat :=
  let l := s.ten.ringCache.get [] f
  let count := fun q => (l.filter fun x => s.ringPart x == q).length
  argMin (fun x => ((s.ringAt x).belled : Int)) (l.filter fun x => !(s.ringAt x).pinned && decide (16 < count (s.ringPart x)))

/-- Installs a ring in its home field's cache; none: every evictable entry is pinned. A ring that leaves with descriptors that are still to be fetched
or to be started misses at its next step, and is filled again (R164). -/
def State.cacheRing (s : State) (r : Nat) : Option State :=
  let f := (s.ringAt r).home
  let l := s.ten.ringCache.get [] f
  if l.contains r then some s
  else if l.length < ringCacheSize then some { s with ten := { s.ten with ringCache := s.ten.ringCache.put [] f (l ++ [r]) } }
  else match s.ringVictim f with
    | some v => some (({ s with ten := { s.ten with ringCache := s.ten.ringCache.put [] f ((l.filter (· != v)) ++ [r]) } } : State).modRing v
        fun x => { x with fill := x.fetch != x.prod || !x.queue.isEmpty })
    | none => none

/-- A fault halts a ring (R157, R158): its first fault is the one that is kept. R157 has no row for a fault on an UNBINDING ring: the ring stays
UNBINDING and does the rest of what a halt does (DESIGN CHOICE, notes/assumptions/91.md). -/
def State.haltRing (s : State) (r : Nat) (code : Nat) (index : W32) : State :=
  let x := s.ringAt r
  let t := s.modRing r fun x => { x with
    running := x.running.filter (fun d => d.index != index), writing := x.writing.filter fun d => d.index != index }
  if x.haltCode ≠ 0 ∨ (x.st ≠ .active ∧ x.st ≠ .unbinding) then t
  else
    let p := (s.ringPart r).getD 0xFF
    ((t.modRing r fun x => { x with
        st := if x.st = .active then .halted else x.st, haltCode := BitVec.ofNat 16 code, haltTick := s.beat.tick, haltIndex := index }).logRec
      { kind := 0x0002, part := p, ctx := x.ctx, a := code, b := index.toNat, c := r }).partEvent p

/-- An UNBINDING ring whose last descriptor has completed becomes UNBOUND and answers (R157, R161). -/
def State.unbindCheck (s : State) (r : Nat) : State :=
  let x := s.ringAt r
  match x.unbind with
  | none => s
  | some u =>
    let ended := u.discard || x.haltCode != 0
    if x.st = .unbinding ∧ x.running = [] ∧ x.writing = [] ∧ (ended = true ∨ x.done = u.upto) then
      let left := if ended then x.queue.length else 0
      let t := (s.modRing r fun x => { x with st := .unbound, queue := [], pushed := [], frames := [], written := [], flushes := [],
                                              unbind := none, fill := false }).uncache r
      t.finish u.ref .ok 0 16 (pack [(32, x.done.toNat), (32, u.discarded + left), (16, x.haltCode.toNat), (48, 0)])
    else s

/-- A completion entry is written (R154, R156): the descriptor leaves the ring, `done` advances, the figures of its context count, and its vector goes
out. -/
def State.entryWritten (s : State) (r : Nat) (d : Desc) (late : Bool) : State :=
  let x := s.ringAt r
  let t := s.modRing r fun x => ({ x with
    queue := x.queue.filter fun e => e.index != d.index
    running := x.running.filter fun e => e.index != d.index
    writing := x.writing.filter fun e => e.index != d.index
    written := x.written ++ [d.index] } : Ring).advance (x.written.length + 1)
  let t := t.modCtx x.ctx fun c => { c with now := { c.now with
    descs := satAdd 32 c.now.descs 1, misses := satAdd 32 c.now.misses (bit late) } }
  let t := if d.irq then t.indexVector ((s.ringPart r).getD 0xFF) x.vector else t
  t.unbindCheck r

/-- A completion entry's write faults (R158): the ring halts, and a descriptor that had been fetched and had not started stays queued (R161). -/
def State.entryFails (s : State) (r : Nat) (d : Desc) (started : Bool) : State :=
  let t := s.modRing r fun x => if started || x.queue.any fun e => e.index == d.index then x else { x with queue := d :: x.queue }
  (t.haltRing r 0x0322 d.index).unbindCheck r

/-- Writes a completion entry (R152–R156). A fault of the write halts the ring (R158); an entry that goes to a peer chip is written when the peer has
accepted it. A ring that halted writes nothing for a descriptor that had not started; one that had started completes, also where its index lies above
`halt_index` (DESIGN CHOICE, notes/assumptions/91.md). -/
def State.complete (s : State) (r : Nat) (d : Desc) (st : Status) : State :=
  let x := s.ringAt r
  let late := s.late (deadlineAt d.frame (d.deadline x.fmt))
  let bytes := if x.fmt = 3 then 16 else 8
  let a := x.cqAddr + bytes * (d.index.toNat % x.slots)
  let started := x.running.any fun e => e.index == d.index
  match s.objWriteAs (.entry r d late started) ((s.ringPart r).getD 0xFF) x.ctx a bytes x.cls (x.entry d st late s.nowFrame) with
  | (t, .failed) => t.entryFails r d started
  | (t, .made) => t.entryWritten r d late
  | (t, .sent) => t.modRing r fun x => { x with
      queue := x.queue.filter fun e => e.index != d.index
      running := x.running.filter fun e => e.index != d.index
      writing := x.writing ++ [d] }

/-- The next descriptor that a ring may start (R151): no held WAIT stands before it, and a serial descriptor or SIGNAL waits
for every earlier completion; a HALTED ring and a discarding unbind start nothing (R158, R161). -/
def Ring.next (x : Ring) : Option Desc :=
  match x.queue with
  | [] => none
  | d :: _ =>
    let ok := x.running.all (fun e => e.type != 3) &&
      (!(d.serial || d.type == 4) || x.done == d.index) &&
      (match x.st, x.unbind with
        | .active, _ => true
        | .unbinding, some u => !u.discard && x.haltCode == 0 && decide (1 ≤ ahead u.upto d.index ∧ ahead u.upto d.index ≤ 2 * x.slots)
        | _, _ => false)
    if ok then some d else none

/-- The next descriptor that a ring may start now: its ring state is in its home field's cache (R164). -/
def State.nextDesc (s : State) (r : Nat) : Option Desc := if s.cached r then (s.ringAt r).next else none

/-- Moves a ring's next descriptor to those that have started. -/
def State.startDesc (s : State) (r : Nat) (d : Desc) : State :=
  s.modRing r fun x => { x with queue := x.queue.filter (fun e => e.index != d.index), running := x.running ++ [d] }

/-- Completes with a status every fetched descriptor that has not started, and marks those published and not fetched to take
it at their fetch (R305, R519, R528). A ring that halted writes nothing (R158). -/
def State.flushRing (s : State) (r : Nat) (st : Status) : State :=
  let x := s.ringAt r
  let dropped := match x.unbind with
    | some u => u.discard
    | none => false
  if x.haltCode ≠ 0 ∨ x.st = .unbound ∨ dropped = true then s
  else
    let t := if x.fetch = x.prod then s else s.modRing r fun x => { x with flushes := x.flushes ++ [(x.prod, st)] }
    x.queue.foldl (fun t d => if (t.ringAt r).haltCode = 0 then t.complete r d st else t) t

/-! ### Fences -/

/-- The mirror of a fence (R299). -/
def Fence.mirrorWord (f : Fence) : Nat :=
  if f.compat then f.value.toNat % 2 ^ 32 + (if f.st = .abandoned then 2 ^ 63 else 0)
  else if f.st = .abandoned then 2 ^ 64 - 1 else f.value.toNat

/-- A write of a fence's mirror to an address faulted: the mirror is disabled, with a record (R299). -/
def State.mirrorFault (s : State) (n a : Nat) : State :=
  (s.modFence n fun f => { f with mirror := none }).logRec
    { kind := 0x0010, part := (s.fencePart n).getD 0xFF, ctx := (s.fenceAt n).owner, a := n, b := a }

/-- Writes the mirror; a fault disables it (R299). -/
def State.mirror (s : State) (n : Nat) : State :=
  let f := s.fenceAt n
  match f.mirror with
  | none => s
  | some a =>
    let p := (s.fencePart n).getD 0xFF
    match s.objWriteAs (.mirror n a) p f.owner a 8 0 f.mirrorWord with
    | (t, .failed) => t.mirrorFault n a
    | (t, _) => t

/-- A WAIT value is satisfied by a LIVE fence's value (R303). -/
def Fence.satisfies (f : Fence) (w : W64) : Bool :=
  if f.compat then decide ((f.value.toNat + 2 ^ 32 - w.toNat % 2 ^ 32) % 2 ^ 32 < 2 ^ 31) else decide (w.toNat ≤ f.value.toNat)

/-- The order of a fence's waiters: ascending value, ties to the lower ring (R306). -/
def Waiter.before (a b : Waiter) : Bool := decide (a.value.toNat < b.value.toNat) || (a.value == b.value && decide (a.ring < b.ring))

/-- Enters a waiter in order. -/
def addWaiter (w : Waiter) : List Waiter → List Waiter
  | [] => [w]
  | x :: t => if w.before x then w :: x :: t else x :: addWaiter w t

/-- The started descriptor of a ring with an index. -/
def Ring.started (x : Ring) (i : W32) : Option Desc := x.running.find? fun d => d.index == i

/-- Completes a WAIT with OK. -/
def State.releaseOk (s : State) (w : Waiter) : State :=
  match (s.ringAt w.ring).started w.index with
  | some d => s.complete w.ring d .ok
  | none => s

/-- Completes a WAIT with ABANDONED and flushes its ring up to the `prod` in effect (R305). -/
def State.releaseAbandoned (s : State) (w : Waiter) : State :=
  match (s.ringAt w.ring).started w.index with
  | some d => (s.complete w.ring d .abandoned).flushRing w.ring .abandoned
  | none => s

/-- Releases the satisfied waiters of a fence in order (R306). -/
def State.releaseWaiters (s : State) (n : Nat) : State :=
  let f := s.fenceAt n
  let ready := f.waiters.filter fun w => f.satisfies w.value
  ready.foldl State.releaseOk (s.modFence n fun f => { f with waiters := f.waiters.filter fun w => !f.satisfies w.value })

/-- Applies an accepted value to a fence: raises it, releases waiters and writes the mirror (R297). -/
def State.setFence (s : State) (n : Nat) (v : W64) : State :=
  ((s.modFence n fun f => { f with value := v }).releaseWaiters n).mirror n

/-- The outcome of a signal of value v (R301, R302): accepted, stale or rejected. -/
inductive SignalOut where
  | accepted | stale | rejected
deriving DecidableEq, Repr

/-- How a fence judges a signal (R301, R302). -/
def Fence.judge (f : Fence) (v : W64) : SignalOut :=
  if f.compat then
    let d := (v.toNat + 2 ^ 32 - f.value.toNat % 2 ^ 32) % 2 ^ 32
    if d = 0 then .stale else if d < 2 ^ 31 then .accepted else .rejected
  else if v = BitVec.allOnes 64 then .rejected
  else if v.toNat ≤ f.value.toNat then .stale else .accepted

/-- A LIVE PROXY takes an update as a signal (R315); an ABANDONED one ignores it (R321). -/
def State.updateProxy (s : State) (n : Nat) (v : W64) : State :=
  let f := s.fenceAt n
  if f.st = .live ∧ f.kind = .proxy then
    match f.judge v with
    | .accepted => s.setFence n v
    | .stale => s.modFence n fun f => { f with stale := inc32 f.stale }
    | .rejected => s.modFence n fun f => { f with rejected := inc32 f.rejected }
  else s

/-- Carries an accepted value to the PROXY fences of a fence's exports (R315). -/
def State.updateSubs (s : State) (n : Nat) : State :=
  let f := s.fenceAt n
  (f.exports_.flatMap fun e => e.subs).foldl (fun t x =>
    if x.1 = t.ownNode then t.updateProxy x.2 f.value else t.linkSend (.update x.1 x.2 f.value)) s

/-- A signal at a fence's bank (R301, R302, R304). -/
def State.signal (s : State) (n : Nat) (v : W64) : State × SignalOut :=
  let f := s.fenceAt n
  match f.judge v with
  | .accepted => ((s.setFence n v).updateSubs n, .accepted)
  | .stale => (s.modFence n fun f => { f with stale := inc32 f.stale }, .stale)
  | .rejected => (s.modFence n fun f => { f with rejected := inc32 f.rejected }, .rejected)

/-- One fence becomes ABANDONED: its value, its waiters and its mirror (R297, R305). -/
def State.abandonOne (s : State) (n : Nat) : State :=
  let f := s.fenceAt n
  if f.st ≠ .live then s
  else
    let t := s.modFence n fun f => { f with
      st := .abandoned, value := if f.compat then f.value else BitVec.allOnes 64, waiters := [] }
    (f.waiters.foldl State.releaseAbandoned t).mirror n

/-- Tells a chip that a PROXY of it is abandoned; while the path to it is down the abandonment is kept for the retraining (R315). -/
def State.tellAbandon (s : State) (node proxy : Nat) : State :=
  if (s.net.gone.get none node).isSome || s.nodeDown node then
    { s with fen := { s.fen with owed := if s.fen.owed.contains (node, proxy) then s.fen.owed else s.fen.owed ++ [(node, proxy)] } }
  else s.linkSend (.abandon node proxy)

/-- Abandons the PROXY of every listed subscription (R313, R315). -/
def State.abandonSubs (s : State) (subs : List (Nat × Nat)) : State :=
  subs.foldl (fun t x => if x.1 = t.ownNode then t.abandonOne x.2 else t.tellAbandon x.1 x.2) s

/-- A fence becomes ABANDONED with the proxies of its exports (R297). -/
def State.abandonFence (s : State) (n : Nat) : State :=
  let f := s.fenceAt n
  if f.st ≠ .live then s else (s.abandonOne n).abandonSubs (f.exports_.flatMap fun e => e.subs)

/-- Drops the subscription of a PROXY at its source (R315). -/
def State.unsubscribe (s : State) (n : Nat) : State :=
  match (s.fenceAt n).src with
  | none => s
  | some x =>
    if x.node = s.ownNode then s.modFence x.fence fun f => { f with
      exports_ := f.exports_.map fun e => { e with subs := e.subs.filter fun y => y != (x.node, n) } }
    else s.linkSend (.unsubscribe x.node x.fence n)

/-- A fence becomes FREE; `fence_gen` stays (R297, R311). -/
def State.freeFence (s : State) (n : Nat) : State :=
  (s.unsubscribe n).modFence n fun f => { Fence.init with gen := f.gen }

/-- STEP fences of a group that are LIVE. -/
def State.stepFences (s : State) (g : Nat) : List Nat :=
  (s.fen.fence.filter fun e => e.2.st == .live && e.2.kind == .step && e.2.group == g).map Prod.fst

/-- The groups that meet a condition are removed: what is left of their STEP fences counts for no later group (R310). -/
def State.orphanSteps (s : State) (gone : Nat → Bool) : State :=
  { s with fen := { s.fen with fence := s.fen.fence.mapAll Fence.init fun _ f =>
    if f.kind = .step ∧ f.st ≠ .free ∧ gone f.group = true then { f with orphan := true } else f } }

/-- Raises each STEP fence of a group by 1 (R308). -/
def State.stepGroup (s : State) (g : Nat) : State :=
  (s.stepFences g).foldl (fun t n =>
    let f := t.fenceAt n
    if f.compat then (t.setFence n (BitVec.ofNat 64 ((f.value.toNat + 1) % 2 ^ 32))).updateSubs n
    else if f.value.toNat + 1 = 2 ^ 64 - 1 then t.modFence n fun f => { f with rejected := inc32 f.rejected }
    else (t.setFence n (f.value + 1)).updateSubs n) s

/-! ### Sequences -/

/-- Positions on one KV page: T (R279). -/
def Seq.perPage (q : Seq) : Nat := 512 / q.tokLines

/-- A sequence has a row in flight. -/
def Seq.inFlight (q : Seq) : Bool := q.decFly || decide (0 < q.preFly)

/-- The event of a step-log write that faulted, of no stated kind (R295; DESIGN CHOICE, notes/assumptions/59.md). -/
def State.recordFault (s : State) (p c : Nat) : State :=
  let open_ := fun (i : Nat) => (Config.stepFault s.log.next i).toNat
  s.logRec { kind := open_ 0 % 65536, part := p, ctx := c, status := .faultTranslation, a := open_ 1, b := open_ 2, c := open_ 3 }

/-- Writes a sequence's step record (R275, R276). A write that faults leaves an event in the log (R295). -/
def State.stepRecord (s : State) (n : Nat) (pos : Nat) (st : Status) (late stop end_ : Bool) (baseGen : Byte) (token : Nat) :
    State × Bool :=
  let q := s.seqAt n
  let p := (s.ctxPart q.ctx).getD 0xFF
  let phase := if q.logCount.getLsbD q.logSize then 0 else 1
  let w := pack [(32, pos), (8, statusCode st), (8, (s.ctxAt q.ctx).gen.toNat), (1, phase), (1, bit late), (1, bit stop), (1, bit end_),
    (4, 0), (8, baseGen.toNat), (32, if st = .ok then token else 0), (32, s.nowFrame.toNat)]
  let irq := q.irqEach || end_ || st != .ok
  let next := fun (t : State) => t.modSeq n fun q => { q with logCount := q.logCount + 1 }
  match s.objWriteAs (.record n q.gen pos baseGen irq) p q.ctx (q.logAddr + 16 * (q.logCount.toNat % 2 ^ q.logSize)) 16 q.cls w with
  | (t, .failed) => (t.recordFault p q.ctx, false)
  | (t, .made) => (if irq then (next t).indexVector p q.vector else next t, true)
  | (t, .sent) => (next t, true)

/-- Completes a sequence's held chunks with a status (R277). -/
def State.dropChunks (s : State) (n : Nat) (st : Status) : State :=
  let q := s.seqAt n
  q.chunks.foldl (fun t c => t.complete c.ring c.desc st) (s.modSeq n fun q => { q with chunks := [] })

/-- A sequence FAILS (R269): the status and position are kept, a record with `end` 1 is written where `record` says so, and
its chunks complete with the status. A record whose write faults leaves only a log event (R295). -/
def State.failSeq (s : State) (n : Nat) (st : Status) (pos : Nat) (baseGen : Byte) (record late stop : Bool) : State :=
  let t := s.modSeq n fun q => { q with st := .failed, last := st, failPos := pos, stall := false }
  let t := if record then (t.stepRecord n pos st late stop true baseGen 0).1 else t
  t.dropChunks n st

/-- The tier of a KV page entry's segment (R282): 2 fast, 1 slow, 0 where the segment is gone. -/
def State.pageTier (s : State) (c e : Nat) : Nat :=
  let g := s.segAt (segKey 0 c (e / 2 ^ 28))
  if g.valid then g.homeTier else 0

/-- Clears `stall` on a context's stalled sequences that entries which have just joined its lists can serve, in the order in which they stalled
(R284): `fast` and `slow` entries. -/
def State.unstall (s : State) (c fast slow : Nat) : State :=
  let stalled := (s.ten.seq.filter fun e => e.2.ctx == c && e.2.stall && e.2.st != .free)
  let sorted := sortOn (fun e => (e.2.stallAt : Int)) stalled
  (sorted.foldl (fun (x : State × Nat × Nat) e =>
    let wantFast := decide (e.2.pages.length < e.2.fastPages)
    let useFast := if wantFast then decide (0 < x.2.1) else e.2.fallback && x.2.2 == 0 && decide (0 < x.2.1)
    let useSlow := if wantFast then e.2.fallback && x.2.1 == 0 && decide (0 < x.2.2) else decide (0 < x.2.2)
    if useFast then (x.1.modSeq e.1 fun q => { q with stall := false }, x.2.1 - 1, x.2.2)
    else if useSlow then (x.1.modSeq e.1 fun q => { q with stall := false }, x.2.1, x.2.2 - 1)
    else x) (s, fast, slow)).1

/-- Returns pages, each with the tier it was drawn with (R282), to a context's lists up to their capacity (R286): the state, the number returned
and the pages listed. A page whose segment was gone when it was drawn has no list. -/
def State.returnPages (s : State) (c : Nat) : List (Nat × Nat) → State × Nat × List Nat
  | [] => (s, 0, [])
  | (e, tier) :: t =>
    let r := s.reserveAt c
    let fast := decide (tier = 2)
    if tier ≠ 0 ∧ (if fast then r.fast.length else r.slow.length) < 64 then
      let s := s.modReserve c fun r => if fast then { r with fast := r.fast ++ [e] } else { r with slow := r.slow ++ [e] }
      let (s, n, l) := State.returnPages s c t
      (s, n + 1, l)
    else
      let (s, n, l) := State.returnPages s c t
      (s, n, e :: l)

/-- A closed sequence becomes FREE, its pages leave it, and SEQ_CLOSE answers (R269, R286). -/
def State.endSeq (s : State) (n : Nat) (ref : Option SlotRef) (keep : Bool) : State :=
  let q := s.seqAt n
  let (t, back, listed) := if keep then s.returnPages q.ctx (q.pages.zip q.tiers) else (s, 0, q.pages)
  let t := t.modSeq n fun q => { Seq.init with gen := q.gen }
  let t := t.unstall q.ctx ((t.reserveAt q.ctx).fast.length - (s.reserveAt q.ctx).fast.length)
    ((t.reserveAt q.ctx).slow.length - (s.reserveAt q.ctx).slow.length)
  let t := { t with ten := { t.ten with seqCache := t.ten.seqCache.mapAll [] fun _ l => l.filter (· != n) } }
  let t := t.dropKv fun k => k == n
  t.finishOpt ref .ok 0 (12 + 4 * listed.length)
    (pack ([(16, back), (16, listed.length), (32, q.len), (8, statusCode q.last), (24, 0)] ++ listed.map fun e => (32, e)))

/-- A row of a sequence leaves flight: a CLOSING sequence with none left becomes FREE (R269). -/
def State.seqLanded (s : State) (n : Nat) : State :=
  let q := s.seqAt n
  if q.st = .closing ∧ q.inFlight = false then
    match q.close with
    | some (ref, keep) => s.endSeq n (some ref) keep
    | none => s.endSeq n none false
  else s

/-! ### Groups -/

/-- The ACTIVE slot of a group. -/
def Group.active (g : Group) : Option Nat :=
  if g.slot0.st = .active then some 0 else if g.slot1.st = .active then some 1 else none

/-- A slot of a group. -/
def Group.slot (g : Group) (n : Nat) : BaseSlot := if n = 0 then g.slot0 else g.slot1

/-- Changes a slot of a group. -/
def Group.modSlot (g : Group) (n : Nat) (f : BaseSlot → BaseSlot) : Group :=
  if n = 0 then { g with slot0 := f g.slot0 } else { g with slot1 := f g.slot1 }

/-- A member entry of a context. -/
def Group.member (g : Group) (c : Nat) : Option Member := g.members.get none c

/-- A member context is held: its entry's `base_id` is neither 0 nor that of the ACTIVE slot (R234). -/
def Group.holds (g : Group) (c : Nat) : Bool :=
  match g.member c, g.active with
  | some m, some a => m.baseId != 0 && m.baseId != (g.slot a).baseId
  | _, _ => false

/-- `refs` of a slot (R253): the LIVE member contexts while the slot is ACTIVE. -/
def State.refs (s : State) (g n : Nat) : Nat :=
  let x := s.groupAt g
  if (x.slot n).st = .active then (x.members.filter fun e => (s.ctxAt e.1).st == .live).length else 0

/-- The batches of a group that read a slot: open, queued or running (R257). -/
def State.slotBatches (s : State) (g n : Nat) : Nat :=
  let is := fun (b : Batch) => b.group == g && b.slot == n
  (s.eng.map fun e =>
    let job := fun (j : Option Job) => match j with
      | some (.batch b) => bit (is b)
      | _ => 0
    job e.2.running + job e.2.queued + (match e.2.open_ with
      | some b => bit (is b)
      | none => 0) + (match e.2.replay with
      | some r => bit (is r.batch)
      | none => 0)).sum

/-- A context is a suspect of a hung batch, and held (R523). -/
def State.suspect (s : State) (c : Nat) : Bool :=
  s.eng.any fun e => match e.2.replay with
    | some r => r.todo.contains c || r.now == some c || r.guilty.contains c
    | none => false

/-- The swap of a group answers once no batch reads its old slot (R251, R259). -/
def State.swapCheck (s : State) (g : Nat) : State :=
  let x := s.groupAt g
  match x.swap with
  | none => s
  | some w =>
    let old := 1 - w.toSlot
    if w.passed ∧ s.slotBatches g old = 0 then
      (s.modGroup g fun x => { (x.modSlot old fun b => if b.st = .retiring then { b with st := .standby } else b) with swap := none }).finish
        w.ref .ok 0 16 (pack [(32, w.swapAt.toNat), (8, w.baseGen.toNat), (8, 0), (16, w.held), (32, w.refs), (32, w.old)])
    else s

/-- The swaps of a partition's groups answer where nothing reads an old slot any more. -/
def State.swapChecks (s : State) (p : Nat) : State := (s.groupsOf p).foldl (fun t e => t.swapCheck e.1) s

/-- A batch opened on a slot or generation that is no longer its group's own: no row enters it any more (R251). -/
def State.stale (s : State) (b : Batch) : Bool :=
  (s.groupAt b.group).active != some b.slot || (s.groupAt b.group).baseGen != b.baseGen

/-! ### Rows in open batches -/

/-- Takes a row back out of a batch that did not run: its charge returns, and its sequence has it to admit again. -/
def State.unadmit (s : State) (f : Nat) (r : Row) : State :=
  let t := s.modCtxf r.ctx f fun x => { x with deficit := x.deficit + r.charge }
  let t := t.modSeq r.seq fun q =>
    if r.prefill then { q with preFly := q.preFly - 1, next := min q.next r.pos }
    else { q with decFly := false, st := if q.st = .running then .ready else q.st }
  t.seqLanded r.seq

/-- Removes a context's rows from every open batch (R205): no completion comes for them. A batch that is left without a row keeps its credit
(R185), unless no row can enter it any more. -/
def State.dropOpenRows (s : State) (c : Nat) : State :=
  s.eng.foldl (fun t e =>
    match e.2.open_ with
    | none => t
    | some b =>
      let out := b.rows.filter fun r => r.ctx == c
      let left := b.rows.filter fun r => r.ctx != c
      let t := t.modEng e.1 fun x => { x with open_ := if left = [] ∧ t.stale b = true then none else some { b with rows := left } }
      (out.foldl (fun t r =>
        (t.modSeq r.seq fun q =>
          if r.prefill then { q with preFly := q.preFly - 1 } else { q with decFly := false }).seqLanded r.seq) t).swapCheck b.group) s

/-- Takes a context off the owed and due lists of every field (R205). -/
def State.clearFloor (s : State) (c : Nat) : State :=
  [0, 1, 2, 3].foldl (fun t f => t.modCtxf c f fun x => { x with owed := false, due := false }) s

/-- The sequences of a context that are open. -/
def State.openSeqs (s : State) (c : Nat) : List Nat := (s.ten.seq.filter fun e => e.2.ctx == c && e.2.st != .free).map Prod.fst

/-- A LIVE context becomes LOST through a fault (R517): its rows leave open batches, its sequences fail with a record, and a
CTX_LOST record is written. Its fences stay LIVE. -/
def State.loseCtx (s : State) (c reason addr obj : Nat) : State :=
  if (s.ctxAt c).st ≠ .live then s
  else
    let p := (s.ctxPart c).getD 0xFF
    let t := s.modCtx c fun x => { x with st := .lost, reason := BitVec.ofNat 16 reason }
    let t := (t.dropOpenRows c).clearFloor c
    let t := (t.openSeqs c).foldl (fun t q =>
      if (t.seqAt q).st = .filling ∨ (t.seqAt q).st = .ready ∨ (t.seqAt q).st = .running then
        t.failSeq q .contextLost (t.seqAt q).len ((t.groupAt (t.seqAt q).group).baseGen) true false false else t) t
    (t.logRec { kind := 0x0001, part := p, ctx := c, a := reason, b := addr, c := obj }).modPart p fun x => { x with tally := { x.tally with ctxLost := satAdd 16 x.tally.ctxLost 1 } }

end Sys2Proof.Machine
end

