-- ==== Sys2Proof/Machine/Mailbox.lean ====
section
/-! DEFINITION. The mailbox family: writes to the window (R52–R64) and the commands of 02_mailboxes_and_tirok and
03_beat_and_frames (HELLO to PEER_OFFSETS). -/

namespace Sys2Proof.Machine

/-- A host access to a mailbox page reaches it: the window is open, or a failed start serves the security mailbox alone
(R589, R590), and the page exists (R49). -/
def State.mbOpen (s : State) (m : Mailbox) : Bool := mbExists m && (s.chip.opened || (s.chip.secOnly && m == .security))

/-- What a host access to BAR 0 does: in LOW the function is in D3hot and takes none (R430, R490). -/
def State.bar (s : State) (f : State → State) : State := s.live fun s => if s.out.low then s else f s

/-- REQUEST_AREA_WRITE (R60): accepted while the slot is FREE or DONE, else dropped with MB_ERR.`write_dropped`. -/
def requestAreaWrite (mb : Mailbox) (slot word : Nat) (v : W32) (s : State) : State :=
  if s.mbOpen mb = false ∨ 8 ≤ slot ∨ 64 ≤ word then s
  else
    let x := (s.mbAt mb).slotAt slot
    if x.st = .free ∨ x.st = .done then
      s.modMb mb fun b => b.modSlot slot fun x => { x with
        area := (x.area &&& ~~~((0xFFFFFFFF#2048) <<< (32 * word))) ||| ((v.setWidth 2048) <<< (32 * word)) }
    else s.modMb mb fun b => { b with dropped := true }

/-- REQUEST_AREA_WRITE. -/
def execRequestAreaWrite (mb : Mailbox) (slot word : Nat) (v : W32) (s : State) : Host.Outcome State Fault Refusal :=
  .next (s.bar (requestAreaWrite mb slot word v))

/-- MB_SUBMIT (R54, R61, R62): latches and queues a slot that is FREE or DONE, with the MAC of the security and debug pages (R459), else sets
MB_ERR.`bad_submit`; a submit of a DONE slot sets no bit
(DEDUCED, notes/assumptions/66.md). -/
def mbSubmit (mb : Mailbox) (v : W32) (s : State) : State :=
  if s.mbOpen mb = false then s
  else
    let n := v.toNat % 8
    let x := (s.mbAt mb).slotAt n
    if x.st = .free ∨ x.st = .done then
      let t := s.modMb mb fun b => { (b.modSlot n fun x => { x with
        st := .submitted, req := x.area, session := if b.open_ then b.session else 0, ticket := s.box.tickets + 1
        mac := if mb = .security ∨ mb = .debug then s.pageMac x.area else 0 }) with
        queue := b.queue ++ [n] }
      { t with box := { t.box with tickets := t.box.tickets + 1 } }
    else s.modMb mb fun b => { b with badSubmit := true }

/-- MB_SUBMIT. -/
def execMbSubmit (mb : Mailbox) (v : W32) (s : State) : Host.Outcome State Fault Refusal := .next (s.bar (mbSubmit mb v))

/-- MB_DONE_CLEAR (R56, R62, R64): clears the written bits; a DONE slot whose set bit is cleared becomes FREE. -/
def mbDoneClear (mb : Mailbox) (v : W32) (s : State) : State :=
  if s.mbOpen mb = false then s
  else s.modMb mb fun b =>
    { (List.range 8).foldl (fun (b : Mbx) n =>
        if v.getLsbD n ∧ (b.slotAt n).st = .done then b.modSlot n fun x => { x with st := .free } else b) b with
      done := b.done &&& ~~~(v.setWidth 8) }

/-- MB_DONE_CLEAR. -/
def execMbDoneClear (mb : Mailbox) (v : W32) (s : State) : Host.Outcome State Fault Refusal := .next (s.bar (mbDoneClear mb v))

/-- The end of a session (R72): SUBMITTED slots become FREE, the staged set is discarded. -/
def State.endSession (s : State) (m : Mailbox) (byLendor : Bool) : State :=
  if (s.mbAt m).open_ = false then s
  else s.modMb m fun b =>
    { b with
      open_ := false, staged := [], queue := [], ended := b.ended || byLendor
      slots := b.slots.mapAll Slot.init fun _ x => if x.st = .submitted then { x with st := .free } else x }

/-- A write to MB_CTRL (R52, R53): `irq_en`, a `vector` that the partition owns, and `end_session`. -/
def writeCtrl (mb : Mailbox) (v : W32) (s : State) : State :=
  if s.mbOpen mb = false then s
  else
    let vec := v.toNat / 65536 % 4096
    let t := s.modMb mb fun b => { b with irqEn := v.getLsbD 0 }
    let t := match mb with
      | .part n =>
        if (s.partAt n).st != .free && (s.partAt n).record.hasVector vec then t.modMb mb fun b => { b with vector := BitVec.ofNat 12 vec }
        else t.modMb mb fun b => { b with badVector := true }
      | _ => t
    if v.getLsbD 1 then t.endSession mb false else t

/-- VECTOR_WRITE: a write of MB_CTRL for its `vector` (R53). -/
def execVectorWrite (mb : Mailbox) (v : W32) (s : State) : Host.Outcome State Fault Refusal := .next (s.bar (writeCtrl mb v))

/-- END_SESSION: a write of MB_CTRL for its `end_session` (R71). -/
def execEndSession (mb : Mailbox) (v : W32) (s : State) : Host.Outcome State Fault Refusal := .next (s.bar (writeCtrl mb v))

/-- The mailbox whose page has a number (R49). -/
def pageMailbox (page : Nat) : Option Mailbox :=
  if 1 ≤ page ∧ page ≤ 64 then some (.part (page - 1))
  else if page = 65 then some .manager
  else if page = 66 then some .security
  else if page = 67 then some .debug
  else none

/-- Changes a context window of a partition's telemetry page. -/
def State.modWin (s : State) (p w : Nat) (f : Win → Win) : State :=
  { s with watch := { s.watch with win := s.watch.win.upd Win.init (p * 8 + w) f } }

/-- A write to CTX_WIN_SEL loads the shadow only (R119). -/
def ctxWinSel (p w : Nat) (v : W32) (s : State) : State :=
  if s.chip.opened = false ∨ 64 ≤ p ∨ 8 ≤ w then s else s.modWin p w fun x => { x with shadow := v.toNat % 65536 }

/-- CTX_WIN_SEL_WRITE. -/
def execCtxWinSelWrite (part win : Nat) (v : W32) (s : State) : Host.Outcome State Fault Refusal := .next (s.bar (ctxWinSel part win v))

/-- A write to CTX_WIN_CTL: with the shadow it takes effect at the next snapshot (R120, R553). -/
def ctxWinCtl (p w : Nat) (v : W32) (s : State) : State :=
  if s.chip.opened = false ∨ 64 ≤ p ∨ 8 ≤ w then s
  else s.modWin p w fun x => { x with next := some (x.shadow, v.getLsbD 0, v.toNat / 256 % 256) }

/-- CTX_WIN_CTL_WRITE. -/
def execCtxWinCtlWrite (part win : Nat) (v : W32) (s : State) : Host.Outcome State Fault Refusal := .next (s.bar (ctxWinCtl part win v))

/-- A 32-bit write in the telemetry window (R550, R553): only the pairs take it. -/
def writeTelemetry (o : Nat) (v : W32) (s : State) : State :=
  let p := o / 4096
  let a := o % 4096
  if a < 0x300 ∨ 0xB00 ≤ a then s
  else if (a - 0x300) % 0x100 = 0 then ctxWinSel p ((a - 0x300) / 0x100) v s
  else if (a - 0x300) % 0x100 = 4 then ctxWinCtl p ((a - 0x300) / 0x100) v s
  else s

/-- A 32-bit write at an offset of BAR 0 (R13–R16, R49–R60, R550): MB_CTRL, MB_SUBMIT, MB_DONE, MB_ERR, the request areas and the
context-window pairs take it, every other register ignores it. -/
def writeWindow (offset : Nat) (v : W32) (s : State) : State :=
  if 0x100000 ≤ offset then writeTelemetry (offset - 0x100000) v s
  else match pageMailbox (offset / 4096) with
  | none => s
  | some mb =>
    let o := offset % 4096
    if o % 4 ≠ 0 then s
    else if o = 0 then writeCtrl mb v s
    else if o = 4 then mbSubmit mb v s
    else if o = 0xC then mbDoneClear mb v s
    else if o = 0x10 then
      if s.mbOpen mb = false then s
      else s.modMb mb fun b => { b with
        badSubmit := b.badSubmit && !v.getLsbD 0, dropped := b.dropped && !v.getLsbD 1
        badVector := b.badVector && !v.getLsbD 2, ended := b.ended && !v.getLsbD 3 }
    else if 0x200 ≤ o ∧ o < 0x200 + 8 * 0x1C0 ∧ (o - 0x200) % 0x1C0 < 0x100 then
      requestAreaWrite mb ((o - 0x200) / 0x1C0) ((o - 0x200) % 0x1C0 / 4) v s
    else s

/-- REGISTER_WRITE (R13, R14, R16): a host write of any width other than 32 bits has no effect. -/
def execRegisterWrite (offset width : Nat) (v : W32) (s : State) : Host.Outcome State Fault Refusal :=
  .next (s.bar fun s => if width = 32 then writeWindow offset v s else s)

/-- TICK_LO_READ (R13, R91): a 32-bit read latches counter bits [63:32] for the requester; one of another width has no effect. -/
def execTickLoRead (read : HostRead) (s : State) : Host.Outcome State Fault Refusal :=
  .next (s.bar fun s =>
    if read.width = 32 && (s.chip.opened || s.chip.secOnly) then
      { s with beat := { s.beat with tickHi := s.beat.tickHi.put 0 read.requester (s.beat.tick.extractLsb' 32 32) } }
    else s)

/-! ### HELLO, GOODBYE, PING (R68–R75) -/

/-- The page number of a mailbox (R49). -/
def mbPage : Mailbox → Nat
  | .part n => n + 1
  | .manager => 65
  | .security => 66
  | .debug => 67

/-- Burns the anti-rollback row up to the running image's `security_version` (R587): in PROVISION and DEPLOY, for an image
with `commit_version` 1. -/
def State.burnVersion (s : State) : State :=
  if (s.sec.lc = .provision ∨ s.sec.lc = .deploy) ∧ s.chip.commit = true then
    { s with sec := { s.sec with rollback := max s.sec.rollback s.chip.version } }
  else s

/-- HELLO's own table (R69), the SESSION record (R540) and R587. The VERSION_UNSUPPORTED row carries `detail` 0 (DESIGN CHOICE,
notes/assumptions/68.md). -/
def runHello (c : Cmd) (s : State) : State :=
  let m := c.ref.mb
  let lo := c.f 1 0 8
  let hi := c.f 2 0 8
  let busy := (s.mbAt m).slots.any fun e => e.1 != c.ref.slot && (e.2.st == .running || e.2.st == .parked)
  let refuse := s.refuseHello c.ref
  if c.zeros [(3, 0, 8), (8, 0, 64)] = false then refuse .rejectedInconsistent 0x0005
  else if hi < lo then refuse .rejectedInconsistent 0x000A
  else if c.f 0 0 8 ≠ 3 ∨ 4 < lo then refuse .versionUnsupported 0
  else if busy then refuse .rejectedInconsistent 0x0009
  else if c.space < 32 then s.respond c.ref .ok 0 32 0 none
  else
    let sid := s.box.sessions + 1
    let t := s.endSession m false
    let t := t.modMb m fun b => { b with
      open_ := true, minor := BitVec.ofNat 8 (min hi 4), session := sid, caller := BitVec.ofNat 32 (c.f 4 0 32) }
    let t := { t with box := { t.box with sessions := sid } }
    let t := t.logRec { kind := 0x0016, part := mbPart m, a := c.f 4 0 32, b := sid.toNat, c := mbPage m }
    let t := if m = .manager then t.burnVersion else t
    t.respond c.ref .ok 0 32 (pack (helloFields t m (min hi 4) sid t.nowFrame)) (some sid)

/-- HELLO (R69). -/
def execHello (k : Take) (s : State) : Host.Outcome State Fault Refusal := .next (s.live (hawk 0x0001 anyCmd k runHello))

/-- GOODBYE (R71): ends the session. -/
def runGoodbye (c : Cmd) (s : State) : State := (s.endSession c.ref.mb false).respond c.ref .ok 0 0 0 none

/-- GOODBYE. -/
def execGoodbye (k : Take) (s : State) : Host.Outcome State Fault Refusal := .next (s.live (hawk 0x0002 anyCmd k runGoodbye))

/-- PING (R75): completes OK with no other effect. -/
def runPing (c : Cmd) (s : State) : State := s.respond c.ref .ok 0 0 0 none

/-- PING. -/
def execPing (k : Take) (s : State) : Host.Outcome State Fault Refusal := .next (s.live (hawk 0x0003 anyCmd k runPing))

/-- The code of Plumb's state (R93). -/
def plumbCode : Plumb → Nat
  | .acquire => 0
  | .locked => 1
  | .freeRun => 2
  | .drifting => 3
  | .resync => 4

/-- BEAT_STATE (R93). -/
def Beat.stateReg (b : Beat) : Nat :=
  pack [(3, plumbCode b.plumb), (1, bit b.drift), (1, bit b.never), (1, bit b.refused),
    (2, match b.source with
      | none => 0
      | some .pin => 1
      | some (.port _) => 2),
    (5, match b.source with
      | some (.port p) => p
      | _ => 0), (3, 0), (10, if b.plumb = .freeRun then min b.freerun 1023 else 0), (6, 0)]

/-! ### The beat as the counter has it (R80, R94) -/

/-- The number of a source: the pin 0, port p 1 + p. -/
def srcNum : BeatSource → Nat
  | .pin => 0
  | .port p => 1 + p

/-- The counter in quarter ticks. -/
def State.counterQt (s : State) : Int := (4 * s.beat.tick.toNat : Nat)

/-- The blocks of the source in use that began after its last good marker, up to `at_` in quarter ticks of the beat, and brought no word that Plumb
has seen (R94). -/
def Beat.missing (b : Beat) (src : BeatSource) (at_ : Int) : Nat :=
  match b.seen.get none (srcNum src) with
  | some t => ((at_ - 4 * t) / (4 * 40960)).toNat - b.bad
  | none => 0

/-- The beat as the counter has it: in RESYNC the counter less its error. -/
def State.beatQt (s : State) : Int := s.counterQt - if s.beat.plumb = .resync then s.beat.err else 0

/-- `marker_faults` as it stands now (R94): with the blocks of the source in use whose marker word, the first 960 ticks of the block, has passed
without a word. -/
def State.faultsNow (s : State) : Nat :=
  match s.beat.source with
  | some src => satAdd 32 s.beat.faults.toNat (s.beat.missing src (s.beatQt - 4 * 960))
  | none => s.beat.faults.toNat

/-- BEAT_STATUS (R94). -/
def runBeatStatus (c : Cmd) (s : State) : State :=
  let b := s.beat
  s.answer s c [(32, b.stateReg), (32, s.faultsNow), (64, b.tick.toNat), (64, b.lastLock.toNat), (32, b.switches.toNat),
    (32, b.errQt.toNat), (18, b.ports.toNat), (14, 0), (16, b.trim.toNat), (80, 0)]

/-- BEAT_STATUS. -/
def execBeatStatus (k : Take) (s : State) : Host.Outcome State Fault Refusal := .next (s.live (hawk 0x0101 anyCmd k runBeatStatus))

/-- One entry of PEER_OFFSETS (R95). -/
def Port.entry (p : Port) : List (Nat × Nat) :=
  [(9, p.node), (6, 0), (1, bit p.valid), (16, unsigned 16 p.offset), (16, p.rtt), (8, p.plumb),
    (1, bit (decide (8 < p.offset.natAbs))), (1, bit p.drift), (6, 0)]

/-- PEER_OFFSETS (R95). -/
def runPeerOffsets (c : Cmd) (s : State) : State :=
  let ports := (List.range 18).map fun p => s.net.ports.get Port.init p
  s.answer s c ([(8, 18), (24, 0), (18, ((List.range 18).map fun p => bit (s.net.ports.get Port.init p).up * 2 ^ p).sum), (14, 0),
    (64, s.net.measured.toNat)] ++ ports.flatMap Port.entry)

/-- PEER_OFFSETS. -/
def execPeerOffsets (k : Take) (s : State) : Host.Outcome State Fault Refusal := .next (s.live (hawk 0x0102 anyCmd k runPeerOffsets))

end Sys2Proof.Machine
end

