-- ==== Sys2Proof/Machine/SchedOps.lean ====
section
/-! DEFINITION. What the slices of the scheduler do (06_scheduling_and_fairness) and how batches form (08): engines in service,
ready work, tiers, the choice for a credit, rows and their charges, closing and delivery. -/

namespace Sys2Proof.Machine

/-! ### Service and ready work (R170, R173) -/

/-- An engine is in service for a partition (R173). -/
def State.inService (s : State) (p e : Nat) : Bool :=
  let x := s.partAt p
  x.record.engines.getLsbD e && !x.drainEng.getLsbD e && (s.engAt e).st == .service && (s.powAt p).serve &&
    s.coh.switch.all (fun w => w.1 != e) && !s.scopeHeld e

/-- The engines in service for a partition in a field, ascending. -/
def State.serving (s : State) (p f : Nat) : List Nat := ((s.partAt p).record.engIn f).filter fun e => s.inService p e

/-- The engine time of a partition in a field per frame, E_f, in ns. -/
def State.engTime (s : State) (p f : Nat) : Nat := 8192 * (s.serving p f).length

/-- The span node list of a partition names another chip. -/
def State.spansOut (s : State) (p : Nat) : Bool := (bitsOf (s.partAt p).nodes).any fun n => n != s.ownNode

/-- R86 covers a partition now: `drift` is set and its span names another chip. -/
def State.driftBars (s : State) (p : Nat) : Bool := s.beat.drift && s.spansOut p

/-- A group's base is usable (R234, R199). -/
def State.usable (s : State) (g : Nat) : Bool := (s.groupAt g).active.isSome

/-- A group opens new batches: no shared-poison rewrite of it is due (R376). -/
def State.opens (s : State) (g : Nat) : Bool := s.mem.rewrites.all fun w => w.group != g

/-- A piece of ready work: a decode row (kind 0), a prefill row (1) or a WORK (2), with its context, the sequence or ring, its
group, class, position and absolute deadline. -/
structure Work where
  kind  : Nat
  ctx   : Nat
  id    : Nat
  group : Nat
  cls   : Nat
  pos   : Nat
  dl    : Nat
deriving DecidableEq, Repr

/-- The held chunk that holds a position. -/
def Seq.chunkAt (q : Seq) (pos : Nat) : Option Chunk := q.chunks.find? fun c => decide (c.pos ≤ pos ∧ pos < c.pos + c.tokens)

/-- The ready row of a sequence (R170, R270, R271, R274). -/
def State.seqWork (s : State) (p n : Nat) (q : Seq) : Option Work :=
  if (s.ctxAt q.ctx).st = .live ∧ s.suspect q.ctx = false ∧ q.stall = false ∧ s.usable q.group = true ∧ (s.groupAt q.group).holds q.ctx = false then
    let bar := s.driftBars p
    if q.st = .ready then some ⟨0, q.ctx, n, q.group, q.cls, q.len, if bar then 0 else deadlineAt q.readyFrame q.deadline⟩
    else if q.st = .filling ∧ q.next < q.queuedEnd then
      some ⟨1, q.ctx, n, q.group, q.cls, q.next, if bar then 0 else ((q.chunkAt q.next).map Chunk.dl).getD 0⟩
    else none
  else none

/-- The WORK at a ring's head that R151 lets start (R170). -/
def State.ringWork (s : State) (n : Nat) (x : Ring) : Option Work :=
  match s.nextDesc n with
  | some d => if d.type = 1 ∧ (s.ctxAt x.ctx).st = .live ∧ s.suspect x.ctx = false then
      some ⟨2, x.ctx, n, 0, x.cls, 0, deadlineAt d.frame (d.deadline x.fmt)⟩ else none
  | none => none

/-- The ready work of a partition in a field (R170). -/
def State.work (s : State) (p f : Nat) : List Work :=
  ((s.seqsOf p).filterMap fun e => if e.2.home = f then s.seqWork p e.1 e.2 else none) ++
  ((s.ringsOf p).filterMap fun e => if e.2.home = f ∧ e.2.st ≠ .unbound then s.ringWork e.1 e.2 else none)

/-- The contexts of a partition that are backlogged in a field. -/
def State.backlog (s : State) (p f : Nat) : List Nat := ((s.work p f).map Work.ctx).eraseDups

/-! ### Tiers (R179–R181, R220) -/

/-- The mode of a class: EDF 0, WEIGHTED 1, BACKGROUND 2 (R179). -/
def SchedPol.mode (c : SchedPol) (k : Nat) : Nat := c.classMode.toNat / 4 ^ k % 4

/-- The tiers of R180. -/
inductive Tier where
  | due | edf | background | weighted
deriving DecidableEq, Repr

/-- The tick of the current frame's boundary. -/
def State.boundaryTick (s : State) : Nat := s.frame * 8192

/-- The tier of a piece of work (R180). -/
def State.tier (s : State) (p f : Nat) (w : Work) : Tier :=
  let pol := s.schedAt p
  let weight := (s.ctxAt w.ctx).weight
  if (s.ctxfAt w.ctx f).due then .due
  else if pol.mode w.cls = 0 ∧ w.dl ≠ 0 ∧ 1 ≤ weight ∧ w.dl ≤ s.boundaryTick + pol.edfHorizon * 8192 then .edf
  else if pol.mode w.cls = 2 ∨ weight = 0 then .background
  else .weighted

/-- The EDF limit of a partition in a field is reached (R181). -/
def State.edfFull (s : State) (p f : Nat) : Bool :=
  decide ((s.schedAt p).edfShare * 4 * (s.serving p f).length / 256 ≤ (s.pfieldAt p f).edf)

/-- A class has reached its engine-time cap (R220). -/
def State.capped (s : State) (p f k : Nat) : Bool :=
  let c := s.regClassAt p f k
  c.cap != 0 && decide (c.cap * s.engTime p f ≤ 256 * c.eng)

/-- The deficit D of a context in a field. -/
def State.deficit (s : State) (c f : Nat) : Int := (s.ctxfAt c f).deficit

/-- Work that may be served as WEIGHTED: its tier, or EDF past the limit, with D > 0 (R181, R182). -/
def State.asWeighted (s : State) (p f : Nat) (w : Work) : Bool :=
  decide (0 < s.deficit w.ctx f) &&
    (s.tier p f w == .weighted || (s.tier p f w == .edf && s.edfFull p f))

/-- The order in which a context was last admitted; 0: never. -/
def State.admitOrder (s : State) (c : Nat) : Nat := (s.ten.lastAdmit.get ⟨0, 0⟩ c).order

/-- A context comes before another by D ÷ w, larger first; ties to the lower context. -/
def State.share (s : State) (f a b : Nat) : Bool :=
  let x := s.deficit a f * (s.ctxAt b).weight
  let y := s.deficit b f * (s.ctxAt a).weight
  decide (y < x) || (decide (x = y) && decide (a ≤ b))

/-- The first of a list by a relation. -/
def bestBy {α : Type} (lt : α → α → Bool) : List α → Option α
  | [] => none
  | a :: t => match bestBy lt t with
    | none => some a
    | some b => if lt b a then some b else some a

/-! ### Choosing for a credit (R182, R183) -/

/-- The dispatch credits of an engine that no open batch and no chosen WORK holds (R182, R200). -/
def Engine.credits (e : Engine) : Nat := 2 - (bit e.running.isSome + bit e.queued.isSome + bit e.open_.isSome + bit e.chosen.isSome)

/-- A ring whose WORK is chosen for an engine. -/
def State.ringChosen (s : State) (r : Nat) : Bool := s.eng.any fun e => e.2.chosen.any fun x => x.ring == r

/-- The place of a number after another in round robin. -/
def rrKey (m last n : Nat) : Int := (((n + m - last % m - 1) % m : Nat) : Int)

/-- A prefill row's place in the round robin of its context (R186): the sequence that holds the turn first. -/
def State.prefillTurn (s : State) (f : Nat) (w : Work) : Int :=
  let x := s.ctxfAt w.ctx f
  if x.turn < 256 ∧ x.seqRr = w.id then -1 else rrKey 131072 x.seqRr w.id

/-- The work of one context that is served first (R186): the decode row ready longest, then prefill rows in turn, then rings
in turn. -/
def State.serveKey (s : State) (f : Nat) (w : Work) : Int :=
  if w.kind = 0 then ((s.seqAt w.id).readyAt : Int)
  else if w.kind = 1 then 2 ^ 60 + s.prefillTurn f w
  else 2 ^ 61 + rrKey 1048576 (s.ctxfAt w.ctx f).ringRr w.id

/-- Of a list of work, that of the given context served first. -/
def State.firstOf (s : State) (f : Nat) (c : Option Work) (l : List Work) : Option Work :=
  c.bind fun w => argMin (s.serveKey f) (l.filter fun x => x.ctx == w.ctx)

/-- Of EDF work, what is served first (R182, rule 2): the earliest deadline, and where that is a WORK, the ring of its context
that has the turn (R186, R194; DEDUCED, notes/assumptions/80.md). -/
def State.soonest (s : State) (f : Nat) (l : List Work) : Option Work :=
  (argMin (fun w => (w.dl : Int)) l).bind fun w =>
    if w.kind = 2 then s.firstOf f (some w) (l.filter fun x => x.kind == 2) else some w

/-- What an engine's credit is used for: the work that decides, and whether rule 1 or 2 of R182 chose it. -/
def State.pick (s : State) (p f e : Nat) : Option (Work × Bool) :=
  let x := s.engAt e
  let all := (s.work p f).filter fun w => if w.kind = 2 then x.chosen.isNone && !s.ringChosen w.id else x.open_.isNone && s.opens w.group
  let fit := all.filter fun w => !s.capped p f w.cls
  let due := all.filter fun w => s.tier p f w == .due
  let wt := fit.filter fun w => s.asWeighted p f w
  match s.firstOf f (argMin (fun w => (((s.ctxfAt w.ctx f).dueAt * 2 ^ 40 + s.admitOrder w.ctx : Nat) : Int)) due) due with
  | some w => some (w, true)
  | none =>
    match if s.edfFull p f then none else s.soonest f (fit.filter fun w => s.tier p f w == .edf) with
    | some w => some (w, true)
    | none =>
      match s.firstOf f (bestBy (fun a b => s.share f a.ctx b.ctx && a.ctx != b.ctx) wt) wt with
      | some w => some (w, false)
      | none =>
        let back := fit.filter fun w => s.tier p f w == .background
        let pf := s.pfieldAt p f
        match argMin (fun w => rrKey 1024 pf.group w.group) (back.filter fun w => w.kind != 2) with
        | some w => some (w, false)
        | none => (argMin (fun w => rrKey 1048576 pf.ring w.id) (back.filter fun w => w.kind == 2)).map fun w => (w, false)

/-- The tag-table bank of a queue entry's job (R237). -/
def Job.bank : Job → Nat
  | .batch b => b.bank
  | .work w => w.bank

/-- The bank of the queue entry that an engine's next free credit stands for: no job, open batch or chosen WORK of the engine
has it (R237). -/
def Engine.freeBank (e : Engine) : Nat :=
  if e.running.any (fun j => j.bank == 0) || e.queued.any (fun j => j.bank == 0) || e.open_.any (fun b => b.bank == 0) ||
    e.chosen.any (fun c => c.bank == 0) then 1 else 0

/-- A batch's contexts, in the order of their first admission. -/
def Batch.ctxs (b : Batch) : List Nat := b.rows.foldl (fun l r => if l.contains r.ctx then l else l ++ [r.ctx]) []

/-- A batch may stand on an engine: an S3-compatible one takes the rows of one context, at most 256 (R241). -/
def Engine.takes (e : Engine) (b : Batch) : Bool := !e.compat || decide (b.ctxs.length ≤ 1 ∧ b.rows.length ≤ 256)

/-- A batch that opens for an engine (R236, R242). -/
def State.newBatch (s : State) (p e : Nat) (w : Work) : Batch :=
  let g := s.groupAt w.group
  ⟨0, p, (s.partAt p).gen, w.group, w.cls, (s.engAt e).freeBank, g.baseGen, g.active.getD 0, [], g.members, none, 0, false, s.ten.order + 1,
    ((g.slot (g.active.getD 0)).fast, (g.slot (g.active.getD 0)).length)⟩

/-- A queued batch that R197 may displace: it has not started, holds no DUE or EDF row and was not displaced before. -/
def Engine.movable (e : Engine) : Bool :=
  e.open_.isNone && match e.queued with
  | some (.batch b) => !b.moved && b.rows.all fun r => !r.urgent
  | _ => false

/-- The tick at which what an engine runs was delivered. -/
def Engine.since (e : Engine) : Nat :=
  match e.running with
  | some (.batch b) => b.start
  | some (.work w) => w.start
  | none => 0

/-- Opens a batch for an engine, or marks a WORK as chosen. An urgent batch takes the queued place of another engine, and the batch there goes back to
open (R197); of several such engines it is the one whose run was delivered first (DESIGN CHOICE, notes/assumptions/93.md). Each batch takes the bank of
the entry it now stands for (R237). -/
def State.useCredit (s : State) (p f e : Nat) (w : Work) (urgent : Bool) : State :=
  let t := s.tickOrder
  if w.kind = 2 then
    let t := t.modEng e fun x => { x with chosen := some ⟨w.id, t.ten.order, x.freeBank⟩ }
    if s.tier p f w = .background then t.modPfield p f fun x => { x with ring := w.id } else t
  else
    let b := s.newBatch p e w
    let t := if s.tier p f w = .background then t.modPfield p f fun x => { x with group := w.group } else t
    let other := argMin (fun m => (((s.engAt m).since : Nat) : Int))
      ((s.serving p f).filter fun m => m != e && (s.engAt m).movable && match (s.engAt m).queued with
        | some (.batch old) => (s.engAt e).takes old
        | _ => false)
    match if urgent then other else none with
    | some m =>
      match (s.engAt m).queued with
      | some (.batch old) =>
        (t.modEng m fun x => { x with queued := none, open_ := some { b with bank := old.bank } }).modEng e
          fun x => { x with open_ := some { old with moved := true, bank := b.bank } }
      | _ => t.modEng e fun x => { x with open_ := some b }
    | none => t.modEng e fun x => { x with open_ := some b }

/-- Chooses for the free credits of one engine. -/
def State.chooseFor (s : State) (p f e : Nat) : Nat → State
  | 0 => s
  | n + 1 =>
    if (s.engAt e).credits = 0 then s
    else match s.pick p f e with
      | none => s
      | some (w, u) => (s.useCredit p f e w u).chooseFor p f e n

/-! ### Delivery (R185, R242) -/

/-- The batch descriptor (R242). -/
def State.batchDesc (s : State) (b : Batch) : BitVec 512 :=
  let g := s.groupAt b.group
  let dls := (b.rows.map Row.dl).filter (· != 0)
  BitVec.ofNat 512 (pack [(8, 1), (8, b.part), (8, b.partGen.toNat), (3, b.cls), (1, b.bank), (4, 0), (32, b.id.toNat), (10, b.group), (6, 0),
    (13, b.rows.length), (3, 0), (11, b.ctxs.length), (5, 0), (8, b.baseGen.toNat), (1, b.slot), (3, g.fmt), (4, g.maxRank),
    (64, b.ext.1), (64, b.ext.2), (13, (b.rows.filter Row.prefill).length), (3, 0), (13, (b.rows.filter fun r => !r.prefill).length),
    (3, 0), (32, 0), (64, dls.foldl (fun m d => if m = 0 then d else min m d) 0), (128, 0)])

/-- The descriptor of a WORK at a dispatch port: the head of R242 with `desc_kind` 0x02 and the body of the descriptor
(R146, R147; DEDUCED, notes/assumptions/24.md). -/
def workDesc (w : WorkRun) (fmt : Nat) : BitVec 512 :=
  BitVec.ofNat 512 (pack [(8, 2), (8, w.part), (8, w.partGen.toNat), (3, w.cls), (1, w.bank), (4, 0), (96, 0), (64, w.desc.cmdAddr fmt),
    (32, w.desc.cmdLen fmt), (32, 0), (256, w.desc.args fmt)])

/-- Puts a job into an engine's queue: it runs at once on an idle engine (R200). -/
def State.enqueue (s : State) (e : Nat) (j : Job) : State :=
  s.modEng e fun x => if x.running.isNone then { x with running := some j, wd := 0 } else { x with queued := some j }

/-- Sends a descriptor to a dispatch port. -/
def State.dispatchOut (s : State) (e : Nat) (d : BitVec 512) : State :=
  { s with out := { s.out with dispatch := s.out.dispatch ++ [(e, d)] } }

/-- Bits [43:0] of a row's tag (R6). -/
def Row.tag (r : Row) : Nat := r.ctx + r.ctxGen.toNat * 2 ^ 16 + r.seq * 2 ^ 24 + r.cls * 2 ^ 41

/-- A tag holds an even number of 1s (R235). -/
def tagParity (t : Nat) : Bool := ((List.range 64).filter fun i => t.testBit i).length % 2 == 0

/-- A tag with its `parity` (R235). -/
def withParity (t : Nat) : Nat := if tagParity t then t else t + 2 ^ 63

/-- A batch's tag (R235, R236). -/
def Batch.tag (b : Batch) : Nat := withParity (b.baseGen.toNat * 2 ^ 16 + b.group * 2 ^ 24 + b.cls * 2 ^ 41 + 2 ^ 44)

/-- The row table of a batch (R243): what the tag table's bank holds too (R237). -/
def Batch.table : List Nat → List Row → List (BitVec 128)
  | _, [] => []
  | seen, r :: t => BitVec.ofNat 128 (pack [(64, withParity r.tag), (32, r.pos), (1, bit r.prefill), (4, r.rank), (1, bit (!seen.contains r.ctx)), (26, 0)]) ::
      Batch.table (r.ctx :: seen) t

/-- Sends a batch to a dispatch port: its descriptor, and its row table on the side lane with the batch tag (R237, R242, R243). -/
def State.dispatchBatch (s : State) (e : Nat) (d : BitVec 512) (b : Batch) : State :=
  { s with out := { s.out with dispatch := s.out.dispatch ++ [(e, d)], tables := s.out.tables ++ [(e, BitVec.ofNat 64 b.tag, Batch.table [] b.rows)] } }

/-- Closes an engine's open batch and delivers it (R185). -/
def State.deliver (s : State) (e : Nat) : State :=
  match (s.engAt e).open_ with
  | none => s
  | some b =>
    let id := (s.engAt e).nextId + 1
    let b := { b with id := id, start := s.beat.tick.toNat }
    let c := (b.rows.head?.map Row.ctx).getD 0
    let s := if (s.engAt e).compat && (s.engAt e).lastCtx != some c then
        (s.probeEngine e).modEng e fun x => { x with lastCtx := some c } else s
    (((s.modEng e fun x => { x with open_ := none, nextId := id }).enqueue e (.batch b)).dispatchBatch e (s.batchDesc b) b).modPart b.part
      fun x => { x with tally := { x.tally with batches := x.tally.batches + 1 } }

/-- The row limit of an open batch: that of its group, and 256 rows for an S3-compatible engine (R184, R241). -/
def State.rowLimit (s : State) (e : Nat) (b : Batch) : Nat :=
  if (s.engAt e).compat then min 256 (s.groupAt b.group).limit else (s.groupAt b.group).limit

/-- Closes an open batch where R185 says so: the limit is reached, it holds 1,024 contexts and no row more for them, or its
engine is idle. `more` tells that one of its contexts has a further admissible row. -/
def State.closeIf (s : State) (e : Nat) (more : Bool) : State :=
  let x := s.engAt e
  match x.open_ with
  | none => s
  | some b =>
    if b.rows = [] then s
    else if s.rowLimit e b ≤ b.rows.length ∨ (b.ctxs.length = 1024 ∧ more = false) ∨ x.running = none then s.deliver e else s

/-! ### Rows (R184) -/

/-- The member entry that a row of a batch uses (R264). -/
def State.memberIn (s : State) (b : Batch) (c : Nat) : Option Member :=
  match b.members.get none c with
  | some m => some m
  | none => (s.groupAt b.group).member c

/-- A sequence slot is in its home field's cache (R293). -/
def State.seqCached (s : State) (n : Nat) : Bool := (s.ten.seqCache.get [] (s.seqAt n).home).contains n

/-- Work that may enter an open batch as a row now, apart from its tier: the group and its base are the batch's, the slot is
cached, and the batch has room for its context (R184, R241, R258, R293). -/
def State.mayEnter (s : State) (e : Nat) (b : Batch) (w : Work) : Bool :=
  let g := s.groupAt w.group
  w.kind != 2 && w.group == b.group && g.active == some b.slot && g.baseGen == b.baseGen && s.seqCached w.id &&
  decide (b.rows.length < s.rowLimit e b) &&
  (b.ctxs.contains w.ctx || (decide (b.ctxs.length < 1024) && !((s.engAt e).compat && b.ctxs != [])))

/-- The rows that may enter a partition's open batch, best first, with the tier that each is admitted in (R184). The rows of
BACKGROUND come in the order of R186 within a context, and contexts in the order of their first sequence. -/
def State.rowsFor (s : State) (p f e : Nat) (b : Batch) : List (Work × Tier) :=
  let all := (s.work p f).filter fun w => s.mayEnter e b w
  let fit := all.filter fun w => !s.capped p f w.cls
  let pre := (b.rows.filter Row.prefill).length
  let pol := s.schedAt p
  let readyAt := fun (w : Work) => ((s.seqAt w.id).readyAt : Int)
  let turn := fun (w : Work) => s.prefillTurn f w
  let dueCtxs := sortOn (fun c => (s.admitOrder c : Int)) ((all.filter fun w => s.tier p f w == .due).map Work.ctx).eraseDups
  let due := dueCtxs.filterMap fun c =>
    argMin (s.serveKey f) (all.filter fun w => w.ctx == c && s.tier p f w == .due)
  let edf := if s.edfFull p f then [] else
    sortOn (fun w => ((w.dl * 2 ^ 17 + w.id : Nat) : Int)) (fit.filter fun w => s.tier p f w == .edf)
  let weightedCtxs := bySh s f ((fit.filter fun w => s.asWeighted p f w).map Work.ctx).eraseDups
  let waits := fun (w : Work) => s.tier p f w == .weighted || s.asWeighted p f w
  let early := if pre < pol.prefillMin then sortOn turn (fit.filter fun w => w.kind == 1 && waits w) else []
  let decode := weightedCtxs.flatMap fun c =>
    sortOn readyAt (fit.filter fun w => w.ctx == c && w.kind == 0 && s.asWeighted p f w)
  let later := if pre < pol.prefillMax then weightedCtxs.flatMap fun c =>
    sortOn turn (fit.filter fun w => w.ctx == c && w.kind == 1 && s.asWeighted p f w) else []
  let rest := fit.filter fun w => s.tier p f w == .background && (w.kind == 0 || decide (pre < pol.prefillMax))
  let back := (rest.map Work.ctx).eraseDups.flatMap fun c => sortOn (s.serveKey f) (rest.filter fun w => w.ctx == c)
  (due.map fun w => (w, .due)) ++ (edf.map fun w => (w, .edf)) ++ ((early ++ decode ++ later).map fun w => (w, .weighted)) ++
    (back.map fun w => (w, .background))
where
  /-- Contexts in descending D ÷ w. -/
  bySh (s : State) (f : Nat) : List Nat → List Nat
    | [] => []
    | c :: t => ins s f c (bySh s f t)
  /-- Enters a context in order. -/
  ins (s : State) (f c : Nat) : List Nat → List Nat
    | [] => [c]
    | d :: t => if s.share f c d then c :: d :: t else d :: ins s f c t

/-! ### KV page draws (R281, R283) -/

/-- Writes a RESERVE record and sends the partition's `event_vector`, at most once per frame (R283). -/
def State.reserveRec (s : State) (p c kind list count seq : Nat) : State :=
  let t := s.logRec { kind := kind, part := p, ctx := c, a := list, b := count, c := seq }
  if t.org.resEvt.contains p then t
  else { t with org := { t.org with resEvt := t.org.resEvt ++ [p] } }.partEvent p

/-- Draws the page that a row of a sequence needs (R281): whether the row may be admitted. A draw that no list can serve
stalls the sequence. -/
def State.drawPage (s : State) (p n pos : Nat) : State × Bool :=
  let q := s.seqAt n
  if pos / q.perPage ≠ q.pages.length then (s, true)
  else
    let r := s.reserveAt q.ctx
    let wantFast := decide (q.pages.length < q.fastPages)
    let useFast := if wantFast then r.fast != [] else r.slow == [] && q.fallback && r.fast != []
    let useSlow := !useFast && (if wantFast then q.fallback && r.slow != [] else r.slow != [])
    let give := fun (l : List Nat) (t : State) =>
      match l with
      | [] => t
      | e :: _ => t.modSeq n fun q => { q with pages := q.pages ++ [e], tiers := q.tiers ++ [t.pageTier q.ctx e] }
    if useFast then
      let t := give r.fast (s.modReserve q.ctx fun r => { r with fast := r.fast.drop 1, draws := inc32 r.draws })
      let left := r.fast.length - 1
      (if left < r.fastWater then t.reserveRec p q.ctx 0x000D 0 left 0 else t, true)
    else if useSlow then
      let t := give r.slow (s.modReserve q.ctx fun r => { r with slow := r.slow.drop 1, draws := inc32 r.draws })
      let left := r.slow.length - 1
      (if left < r.slowWater then t.reserveRec p q.ctx 0x000D 1 left 0 else t, true)
    else
      let t := s.tickOrder
      let t := t.modSeq n fun q => { q with stall := true, stallAt := t.ten.order }
      let t := t.modReserve q.ctx fun r => { r with empties := inc32 r.empties }
      (t.reserveRec p q.ctx 0x000E (if wantFast then 0 else 1) 0 n, false)

/-! ### Admissions (R169, R177, R188) -/

/-- Charges a context's deficit, which stays above its floor (R177). -/
def State.chargeCtx (s : State) (p c f : Nat) (amount : Int) : State :=
  let low : Int := -(((s.schedAt p).burst * s.engTime p f : Nat) : Int)
  s.modCtxf c f fun x => { x with deficit := clampInt 32 (max low (x.deficit - amount)) }

/-- An admission of a context in a field (R169): its charge, its figures, and its place on the owed and due lists of every
field (R188, R189). The contexts' and the card's `admissions` count rows (R130, R167, R553). -/
def State.admitCtx (s : State) (p c f cls : Nat) (charge : Nat) (edf row : Bool) : State :=
  let t := (s.tickOrder).chargeCtx p c f charge
  let t := { t with ten := { t.ten with lastAdmit := t.ten.lastAdmit.put ⟨0, 0⟩ c ⟨t.nowFrame, t.ten.order⟩ } }
  let t := (t.clearFloor c).modCtxf c f fun x => { x with admits := satAdd 32 x.admits 1 }
  let t := t.modCtx c fun x => { x with now := { x.now with admits := satAdd 32 x.now.admits (bit row) } }
  let t := t.modPart p fun x => { x with admitTotal := x.admitTotal + bit row, tally := { x.tally with
    admits := x.tally.admits + bit row, served := if x.tally.served.contains c then x.tally.served else x.tally.served ++ [c] } }
  let t := t.modRegClass p f cls fun x => { x with eng := x.eng + charge }
  (t.modPfield p f fun x => { x with admits := satAdd 16 x.admits 1, edf := x.edf + bit edf }).countGlob (8 * f + 4) 1

/-- An admission of a context ends a gap: the frames in which its ready work has waited since its last admission, or since it became ready (R130,
`floor_max_gap`; `waits` holds the first of them while its weight is 1 or more). -/
def State.noteGap (s : State) (p c : Nat) : State :=
  match s.ten.waits.get none c with
  | none => s
  | some f =>
    ({ s with ten := { s.ten with waits := s.ten.waits.drop c } } : State).modPart p
      fun x => { x with tally := { x.tally with maxGap := max x.tally.maxGap (min (s.frame - f) 65535) } }

/-- Puts a row into a batch: rows of one context stay together, contexts in the order of their first admission (R243). -/
def addRow (r : Row) : List Row → List Row
  | [] => [r]
  | x :: t => if x.ctx == r.ctx && t.all (fun y => y.ctx != r.ctx) then x :: r :: t else x :: addRow r t

/-- Admits a row into an engine's open batch (R184, R271, R281): whether it entered. -/
def State.admitRow (s : State) (p f e : Nat) (b : Batch) (w : Work) (tier : Tier) : State × Bool :=
  match s.drawPage p w.id w.pos with
  | (t, false) => (t, false)
  | (t, true) =>
    let t := t.noteGap p w.ctx
    let q := t.seqAt w.id
    let m := t.memberIn b w.ctx
    let charge := (t.groupAt w.group).est
    let row : Row := ⟨w.ctx, (t.ctxAt w.ctx).gen, w.id, w.cls, w.pos, w.kind == 1, (m.map Member.rank).getD 0, w.dl, charge,
      tier == .due || tier == .edf, none⟩
    let t := t.modEng e fun x => { x with open_ := some { b with rows := addRow row b.rows, members := b.members.put none w.ctx m } }
    let t := if w.kind = 1 then
        (t.modSeq w.id fun q => { q with next := q.next + 1, preFly := q.preFly + 1 }).modCtxf w.ctx f fun x =>
          if x.seqRr = w.id ∧ x.turn < 256 then { x with turn := x.turn + 1 } else { x with seqRr := w.id, turn := 1 }
      else t.modSeq w.id fun q => { q with st := .running, decFly := true }
    let t := { t with ten := { t.ten with seqCache := t.ten.seqCache.upd [] q.home fun l => touch l w.id } }
    (t.admitCtx p w.ctx f w.cls charge (tier == .edf) true, true)

/-- A ring's WORK as a piece of work. -/
def Ring.asWork (x : Ring) (r : Nat) (d : Desc) : Work := ⟨2, x.ctx, r, 0, x.cls, 0, deadlineAt d.frame (d.deadline x.fmt)⟩

/-- The tier in which a chosen WORK is admitted now; none: its class has reached its cap, or the EDF limit is reached and its
context has no D (R181, R220). -/
def State.admitTier (s : State) (p f : Nat) (w : Work) : Option Tier :=
  match s.tier p f w with
  | .due => some .due
  | t => if s.capped p f w.cls then none
    else if t = .edf ∧ s.edfFull p f = true then (if 0 < s.deficit w.ctx f then some .weighted else none)
    else some t

/-- Delivers a WORK to an engine's dispatch port (R169, R182): its admission, in the tier given. -/
def State.deliverWork (s : State) (p f e r : Nat) (d : Desc) (tier : Tier) : State :=
  let x := s.ringAt r
  let w := x.asWork r d
  let charge := (s.ctxfAt x.ctx f).workEst
  let bank := ((s.engAt e).chosen.map Chosen.bank).getD 0
  let run : WorkRun := ⟨r, p, (s.partAt p).gen, x.ctx, (s.ctxAt x.ctx).gen, x.cls, d, w.dl, charge, none, s.beat.tick.toNat, bank⟩
  let t := ((s.noteGap p x.ctx).startDesc r d).modEng e fun y => { y with chosen := none }
  let t := (t.enqueue e (.work run)).dispatchOut e (workDesc run x.fmt)
  (t.admitCtx p x.ctx f x.cls charge (tier == .edf) false).modCtxf x.ctx f fun y => { y with ringRr := r }

/-! ### The floor (R187–R189) and waiting work (R130) -/

/-- A context is floor-eligible in a field (R187). -/
def State.floorFit (s : State) (p f c : Nat) : Bool :=
  (s.ctxAt c).st == .live && (s.ctxAt c).weight != 0 &&
  (s.work p f).any fun w => w.ctx == c && (s.schedAt p).mode w.cls != 2

/-- Owed and due contexts that have left floor eligibility stop being owed and due (R187, R189). -/
def State.floorSettle (s : State) : State :=
  s.ten.ctxf.foldl (fun t e =>
    if e.2.owed = false ∧ e.2.due = false then t
    else match t.ctxPart (e.1 / 4) with
      | some p => if t.floorFit p (e.1 % 4) (e.1 / 4) then t
          else t.modCtxf (e.1 / 4) (e.1 % 4) fun x => { x with owed := false, due := false }
      | none => t) s

/-- The contexts that close a frame with ready work and a weight of 1 or more wait since that frame at the latest; the others do not wait (R130). -/
def State.markWaits (s : State) : State :=
  let busy := (parts.filter fun p => (s.partAt p).st == .live).flatMap fun p => [0, 1, 2, 3].flatMap fun f =>
    (s.backlog p f).filter fun c => (s.ctxAt c).weight != 0
  let old := s.ten.waits.mapAll none fun c x => if busy.contains c then x else none
  let new := busy.eraseDups.foldl (fun (t : Tab (Option Nat)) c => if (t.get none c).isSome then t else t.put none c (some s.frame)) old
  { s with ten := { s.ten with waits := new } }

/-! ### Credits that free and engines that leave (R183, R205) -/

/-- The WORK that is chosen for an engine, when its ring still holds it at its head. -/
def State.chosenWork (s : State) (e : Nat) : Option (Nat × Desc) :=
  match (s.engAt e).chosen with
  | none => none
  | some c => match s.nextDesc c.ring with
    | some d => if d.type = 1 ∧ (s.ctxAt (s.ringAt c.ring).ctx).st = .live ∧ s.suspect (s.ringAt c.ring).ctx = false then some (c.ring, d) else none
    | none => none

/-- Drops a choice that its ring no longer bears, or that may not be admitted now: the credit is free for another (R181, R183, R220). -/
def State.dropStale (s : State) (p f e : Nat) : State :=
  match s.chosenWork e with
  | some (r, d) => if (s.admitTier p f ((s.ringAt r).asWork r d)).isSome then s else s.modEng e fun x => { x with chosen := none }
  | none => s.modEng e fun x => { x with chosen := none }

/-- An open batch's contexts have a further admissible row. -/
def State.moreRows (s : State) (p f e : Nat) : Bool :=
  match (s.engAt e).open_ with
  | none => false
  | some b => (s.rowsFor p f e b).any fun x => b.ctxs.contains x.1.ctx

/-- Chooses for every free credit of a partition in a field, in ascending engine number, and closes what R185 closes. Contexts that have left floor
eligibility, before or by what is chosen, are no longer due (R189). -/
def State.settlePart (s : State) (p f : Nat) : State :=
  ((s.serving p f).foldl (fun t e =>
    let t := t.dropStale p f e
    (t.closeIf e (t.moreRows p f e)).chooseFor p f e 2) s.floorSettle).floorSettle

/-- Chooses for every free credit in a field (R183). -/
def State.settle (s : State) (f : Nat) : State :=
  parts.foldl (fun t p => if (t.serving p f).isEmpty then t else t.settlePart p f) s

/-- An engine's open batch when it leaves service (R205): it moves to another engine of the partition in the field with a
free credit and no open batch, or its rows return. -/
def State.leaveService (s : State) (p e : Nat) : State :=
  let f := engField e
  match (s.engAt e).open_ with
  | none => s.modEng e fun x => { x with chosen := none }
  | some b =>
    let t := s.modEng e fun x => { x with open_ := none, chosen := none }
    match (t.serving p f).find? fun m => m != e && (t.engAt m).open_.isNone && decide (0 < (t.engAt m).credits) && (t.engAt m).takes b with
    | some m => t.modEng m fun x => { x with open_ := some { b with bank := x.freeBank } }
    | none => (b.rows.foldl (fun t r => t.unadmit f r) t).swapCheck b.group

end Sys2Proof.Machine
end

