-- ==== Sys2Proof/Machine/Contexts.lean ====
section
/-! DEFINITION. The context family: CTX_CREATE, CTX_DESTROY, RING_BIND, RING_UNBIND, CTX_QUERY (05). -/

namespace Sys2Proof.Machine

/-- The record of a command's partition. -/
def State.recOf (s : State) (c : Cmd) : PartRec := (s.partAt c.part).record

/-- The lowest FREE context of a partition (R135). -/
def State.freeCtx (s : State) (p : Nat) : Option Nat :=
  lowestIn (s.partAt p).record.ctxBlocks 256 fun c => c != 0 && (s.ctxAt c).st == .free

/-- A new context's slot (R132, R178, R283): LIVE at the next generation with the partition's `default_weight`. -/
def State.newCtx (s : State) (p c : Nat) (owner : W32) : State :=
  let t := s.modCtx c fun x => { Ctx.init with st := .live, gen := nextGen x.gen, owner := owner, weight := (s.schedAt p).defWeight, revoke := x.revoke }
  { t with
    ten := { t.ten with
      ctxf := t.ten.ctxf.filter fun e => e.1 / 4 != c
      lastAdmit := t.ten.lastAdmit.drop c
      reserve := t.ten.reserve.drop c }
    obs := { t.obs with cbytes := t.obs.cbytes.filter fun e => e.1 / 24 != c } }

/-- The checks of CTX_CREATE, in order (R135). -/
def ctxCreateChecks (c : Cmd) (s : State) : List (Bool × Status × Nat) :=
  let any := c.f 2 0 1 == 1
  let n := c.f 0 0 16
  let pick := if any then s.freeCtx c.part else some n
  [
    (c.zeros [(2, 1, 15), (8, 0, 64)], .rejectedInconsistent, 0x0005),
    (any || (s.recOf c).hasCtx n, .notPermitted, 0x0300),
    (any || (s.ctxAt n).st == .free, .rejectedInconsistent, 0x0301),
    (pick.isSome, .rejectedInconsistent, 0x0302)]

/-- CTX_CREATE (R135). -/
def runCtxCreate (c : Cmd) (s : State) : State :=
  let any := c.f 2 0 1 == 1
  let n := c.f 0 0 16
  let pick := if any then s.freeCtx c.part else some n
  s.checked c (ctxCreateChecks c s) fun s =>
    let n := pick.getD 0
    let t := s.newCtx c.part n (BitVec.ofNat 32 (c.f 4 0 32))
    s.answer t c [(16, n), (8, (t.ctxAt n).gen.toNat), (40, 0)]

/-- CTX_CREATE. -/
def execCtxCreate (k : Take) (s : State) : Host.Outcome State Fault Refusal := .next (s.live (hawk 0x0301 anyCmd k runCtxCreate))

/-- The rings bound to a context. -/
def State.ctxRings (s : State) (c : Nat) : List Nat := (s.ten.ring.filter fun e => e.2.ctx == c && e.2.st != .unbound).map Prod.fst

/-- The fences that a context owns and that are allocated. -/
def State.ctxFences (s : State) (c : Nat) : List Nat := (s.fen.fence.filter fun e => e.2.owner == c && e.2.st != .free).map Prod.fst

/-- The valid segments of a context's set. -/
def State.validSegs (s : State) (p c : Nat) : List Nat := (List.range 16).filter fun g => (s.segAt (segKey p c g)).valid

/-- A context leaves every co-batch group (R132, R253). -/
def State.leaveGroups (s : State) (c : Nat) : State :=
  { s with ten := { s.ten with group := s.ten.group.mapAll Group.init fun _ g => { g with members := g.members.drop c } } }

/-- The checks of CTX_DESTROY, in order (R136, R286). -/
def ctxDestroyChecks (c : Cmd) (s : State) : List (Bool × Status × Nat) :=
  let n := c.f 0 0 16
  let x := s.ctxAt n
  [
    (c.zeros [(3, 0, 40)], .rejectedInconsistent, 0x0005),
    ((s.recOf c).hasCtx n, .notPermitted, 0x0300),
    (x.st != .free, .rejectedInconsistent, 0x0303),
    (c.f 2 0 8 == x.gen.toNat, .staleGeneration, 0),
    (s.ctxRings n == [], .rejectedInconsistent, 0x0304),
    (s.openSeqs n == [], .rejectedInconsistent, 0x0305),
    (s.ctxFences n == [], .rejectedInconsistent, 0x0306),
    (s.validSegs c.part n == [], .rejectedInconsistent, 0x0307)]

/-- CTX_DESTROY (R136): `ctx_gen` stays, entries on the reserve lists are discarded (R286). -/
def runCtxDestroy (c : Cmd) (s : State) : State :=
  let n := c.f 0 0 16
  s.checked c (ctxDestroyChecks c s) fun s =>
    let t := (s.leaveGroups n).modCtx n fun x => { Ctx.init with gen := x.gen, revoke := x.revoke }
    let t := { t with ten := { t.ten with reserve := t.ten.reserve.drop n, ctxf := t.ten.ctxf.filter fun e => e.1 / 4 != n } }
    s.answer t c []

/-- CTX_DESTROY. -/
def execCtxDestroy (k : Take) (s : State) : Host.Outcome State Fault Refusal := .next (s.live (hawk 0x0302 anyCmd k runCtxDestroy))

/-- The checks of RING_BIND, in order (R160). -/
def ringBindChecks (c : Cmd) (s : State) : List (Bool × Status × Nat) :=
  let r := c.f 0 0 20
  let x := c.f 4 0 16
  let fmt := c.f 8 0 8
  let size := c.f 9 0 5
  let vec := c.f 12 0 16
  let da := c.f 16 0 64
  let qa := c.f 24 0 64
  let ctx := s.ctxAt x
  [
    (c.zeros [(2, 4, 12), (7, 2, 6), (9, 5, 3), (10, 3, 13), (14, 0, 16), (36, 0, 96)], .rejectedInconsistent, 0x0005),
    ((s.recOf c).hasRing r, .notPermitted, 0x0310),
    ((s.ringAt r).st == .unbound, .rejectedInconsistent, 0x0311),
    ((s.recOf c).hasCtx x, .notPermitted, 0x0312),
    (ctx.st != .lost, .contextLost, 0x0313),
    (ctx.st == .live, .rejectedInconsistent, 0x0313),
    (c.f 6 0 8 == ctx.gen.toNat, .staleGeneration, 0),
    (fmt == 2 || fmt == 3, .versionUnsupported, 0x0314),
    (decide (4 ≤ size ∧ size ≤ 16), .rejectedInconsistent, 0x0315),
    ((s.recOf c).engIn (c.f 7 0 2) != [], .rejectedInconsistent, 0x0316),
    (vec == 0xFFFF || decide (vec < (s.recOf c).vecCount), .rejectedInconsistent, 0x0317),
    (da % 4096 == 0 && qa % 4096 == 0 && s.covered c.part x da (2 ^ size * (if fmt = 3 then 64 else 32)) false &&
      s.covered c.part x qa (2 ^ size * (if fmt = 3 then 16 else 8)) true, .rejectedInconsistent, 0x0318)]

/-- RING_BIND (R160). -/
def runRingBind (c : Cmd) (s : State) : State :=
  let r := c.f 0 0 20
  let x := c.f 4 0 16
  let fmt := c.f 8 0 8
  let size := c.f 9 0 5
  let vec := c.f 12 0 16
  let da := c.f 16 0 64
  let qa := c.f 24 0 64
  let ctx := s.ctxAt x
  s.checked c (ringBindChecks c s) fun s =>
    let i := BitVec.ofNat 32 (c.f 32 0 32)
    let t := s.modRing r fun _ => { Ring.init with
      st := .active, ctx := x, ctxGen := ctx.gen, home := c.f 7 0 2, fmt := fmt, size := size, cls := c.f 10 0 3, vector := vec
      descAddr := da, cqAddr := qa, start := i, prod := i, fetch := i, done := i }
    let t := match t.cacheRing r with
      | some u => u
      | none => t.modRing r fun x => { x with fill := true }
    s.answer t c []

/-- RING_BIND. -/
def execRingBind (k : Take) (s : State) : Host.Outcome State Fault Refusal := .next (s.live (hawk 0x0303 anyCmd k runRingBind))

/-- Removes a ring's waiter from the fence it waits on (R161, R321). -/
def State.dropWaiters (s : State) (r : Nat) : State :=
  { s with fen := { s.fen with fence := s.fen.fence.mapAll Fence.init fun _ f => { f with waiters := f.waiters.filter fun w => w.ring != r } } }

/-- A discarding unbind (R161): no completion for descriptors that have not started, unsatisfied WAITs are released without
completion, started ones finish. -/
def State.discardRing (s : State) (r : Nat) : State :=
  (s.dropWaiters r).modRing r fun x => { x with
    queue := [], running := x.running.filter fun d => d.type != 3
    unbind := x.unbind.map fun u => { u with discard := true, discarded := u.discarded + x.queue.length } }

/-- The checks of RING_UNBIND, in order (R161, R162). -/
def ringUnbindChecks (c : Cmd) (s : State) : List (Bool × Status × Nat) :=
  let r := c.f 0 0 20
  let discard := c.f 3 7 1 == 1
  let x := s.ringAt r
  [
    (c.zeros [(2, 4, 11), (4, 0, 32)], .rejectedInconsistent, 0x0005),
    ((s.recOf c).hasRing r, .notPermitted, 0x0310),
    (x.st != .unbound && (x.st != .unbinding || discard), .rejectedInconsistent, 0x0319)]

/-- RING_UNBIND (R161, R162). R162 does not give the payload of the second one's immediate response: `done` as it is now, `discarded` 0 and
`halt_detail` 0 (DESIGN CHOICE, notes/assumptions/91.md). -/
def runRingUnbind (c : Cmd) (s : State) : State :=
  let r := c.f 0 0 20
  let discard := c.f 3 7 1 == 1
  let x := s.ringAt r
  s.checked c (ringUnbindChecks c s) fun s =>
    if x.st = .unbinding then
      if c.space < 16 then s.respond c.ref .ok 0 16 0 none
      else (((s.discardRing r).respond c.ref .ok 0 16 (pack [(32, x.done.toNat), (96, 0)]) none).unbindCheck r).floorSettle
    else
      let t := s.modRing r fun x => { x with st := .unbinding, unbind := some ⟨c.ref, false, x.prod, 0⟩ }
      let t := if discard then t.discardRing r else t
      s.background (t.unbindCheck r).floorSettle c 16

/-- RING_UNBIND. -/
def execRingUnbind (k : Take) (s : State) : Host.Outcome State Fault Refusal := .next (s.live (hawk 0x0304 anyCmd k runRingUnbind))

/-- The code of a context's state (R167). -/
def ctxCode : CtxSt → Nat
  | .free => 0
  | .live => 1
  | .lost => 2

/-- The code of a ring's state (R168). -/
def ringCode : RingSt → Nat
  | .unbound => 0
  | .active => 1
  | .halted => 2
  | .unbinding => 3

/-- CTX_QUERY view 0 (R167). -/
def ctxView (s : State) (p n : Nat) : List (Nat × Nat) :=
  let x := s.ctxAt n
  let segs := s.validSegs p n
  let sum := fun (f : Seg → Nat) => (segs.map fun g => f (s.segAt (segKey p n g))).sum
  [(16, n), (8, x.gen.toNat), (2, ctxCode x.st), (6, 0), (32, x.owner.toNat), (16, (segs.map fun g => 2 ^ g).sum),
    (16, if x.st = .live then 0 else x.reason.toNat), (32, (s.ctxRings n).length), (32, (s.openSeqs n).length),
    (32, (s.ctxFences n).length), (64, sum Seg.mapFast), (64, sum Seg.mapSlow), (64, sum Seg.mapHost),
    (32, ((s.openSeqs n).map fun q => (s.seqAt q).pages.length).sum), (32, 0), (64, x.epoch.toNat), (64, x.last.engineNs),
    (32, x.last.admits), (32, x.last.descs), (64, x.last.bytes), (32, x.last.misses), (32, 0)]

/-- CTX_QUERY view 1 (R168). -/
def ringView (s : State) (r : Nat) : List (Nat × Nat) :=
  let x := s.ringAt r
  [(20, r), (4, 0), (3, ringCode x.st), (1, bit (x.st != .unbound && s.cached r)), (2, x.home), (2, 0), (16, x.ctx), (8, x.ctxGen.toNat),
    (8, x.fmt), (5, x.size), (3, 0), (3, x.cls), (5, 0), (16, x.haltCode.toNat), (32, x.prod.toNat), (32, x.fetch.toNat),
    (32, x.done.toNat), (32, x.doorbells.toNat), (32, x.bad.toNat), (64, x.haltTick.toNat), (32, x.haltIndex.toNat), (32, 0)]

/-- The checks of CTX_QUERY, in order. -/
def ctxQueryChecks (c : Cmd) (s : State) : List (Bool × Status × Nat) :=
  let view := c.f 0 0 8
  [
    (c.zeros [(1, 0, 24)] && (if view = 0 then c.zeros [(6, 0, 16)] else if view = 1 then c.zeros [(6, 4, 12)] else true),
      .rejectedInconsistent, 0x0005),
    (decide (view ≤ 1), .rejectedInconsistent, 0x031B),
    (if view = 0 then (s.recOf c).hasCtx (c.f 4 0 16) else (s.recOf c).hasRing (c.f 4 0 20), .notPermitted, 0x031A)]

/-- CTX_QUERY: the reserved fields first, then `view`, then `id`. -/
def runCtxQuery (c : Cmd) (s : State) : State :=
  let view := c.f 0 0 8
  s.checked c (ctxQueryChecks c s) fun s =>
    s.answer s c (if view = 0 then ctxView s c.part (c.f 4 0 16) else ringView s (c.f 4 0 20))

/-- CTX_QUERY. -/
def execCtxQuery (k : Take) (s : State) : Host.Outcome State Fault Refusal := .next (s.live (hawk 0x0305 anyCmd k runCtxQuery))

end Sys2Proof.Machine
end

