-- ==== Sys2Proof/Machine/DigestOps.lean ====
section
/-! DEFINITION. What a gate lane summarises for the digest probes (R549, R555–R557). -/

namespace Sys2Proof.Machine

/-! ### Probes -/

/-- A digest probe of a partition. -/
def State.probeAt (s : State) (p i : Nat) : Probe := s.watch.probe.get Probe.init (p * 8 + i)

/-- Changes a digest probe. -/
def State.modProbe (s : State) (p i : Nat) (f : Probe → Probe) : State :=
  { s with watch := { s.watch with probe := s.watch.probe.upd Probe.init (p * 8 + i) f } }

/-! ### Elements (R549) -/

/-- A format: element bits, exponent bits, mantissa bits, bias, whether an all-ones exponent holds Inf and NaN as in IEEE 754,
and whether only the all-ones pattern is NaN. -/
structure Format where
  bits : Nat
  exp  : Nat
  man  : Nat
  bias : Nat
  ieee : Bool
  one  : Bool

/-- The formats of R549 by code; INT8 has no exponent. -/
def formatOf : Nat → Format
  | 0 => ⟨32, 8, 23, 127, true, false⟩
  | 1 => ⟨16, 8, 7, 127, true, false⟩
  | 2 => ⟨16, 5, 10, 15, true, false⟩
  | 3 | 6 => ⟨8, 4, 3, 7, false, true⟩
  | 4 => ⟨8, 5, 2, 15, true, false⟩
  | 7 => ⟨6, 2, 3, 1, false, false⟩
  | 8 => ⟨4, 2, 1, 1, false, false⟩
  | _ => ⟨8, 0, 7, 0, false, false⟩

/-- The format is one of the MX formats. -/
def isMx (code : Nat) : Bool := decide (6 ≤ code ∧ code ≤ 8)

/-- What an element holds: a number times 2^149, NaN or Inf. -/
inductive Element where
  | number (v : Int)
  | nan
  | inf
deriving DecidableEq, Repr

/-- Reads an element. -/
def Format.read (f : Format) (v : Nat) : Element :=
  if f.exp = 0 then .number (signed 8 v * 2 ^ 149)
  else
    let m := v % 2 ^ f.man
    let e := v / 2 ^ f.man % 2 ^ f.exp
    let neg := v / 2 ^ (f.bits - 1) % 2 == 1
    if f.ieee ∧ e = 2 ^ f.exp - 1 then (if m = 0 then .inf else .nan)
    else if f.one ∧ e = 2 ^ f.exp - 1 ∧ m = 2 ^ f.man - 1 then .nan
    else
      let mag := (if e = 0 then m else 2 ^ f.man + m) * 2 ^ (max e 1 + 149 - f.bias - f.man)
      .number (if neg then -(mag : Int) else mag)

/-- The binary64 bits of a number times 2^149 that has at most 53 significant bits. -/
def binary64 (v : Int) : Nat :=
  let n := v.natAbs
  if n = 0 then 0
  else
    let l := Nat.log2 n
    (if v < 0 then 2 ^ 63 else 0) + (l + 874) * 2 ^ 52 + (n * 2 ^ 52 / 2 ^ l - 2 ^ 52)

/-- The hash of R557. -/
def digestHash (k v : Nat) : W64 :=
  let x := BitVec.ofNat 64 (k * 0x9E3779B97F4A7C15) ^^^ BitVec.ofNat 64 v
  let x := (x ^^^ (x >>> 30)) * 0xBF58476D1CE4E5B9#64
  let x := (x ^^^ (x >>> 27)) * 0x94D049BB133111EB#64
  x ^^^ (x >>> 31)

/-! ### Lines (R555, R556) -/

/-- The bytes lo to hi of a line that a mask enables: how many. -/
def enabledIn (mask : LineMask) (lo hi : Nat) : Nat := ((List.range (hi + 1 - lo)).filter fun i => mask.getLsbD (lo + i)).length

/-- Summarises one whole element at an index. -/
def Digest.element (d : Digest) (f : Format) (k v : Nat) : Digest :=
  let d := { d with elements := d.elements + 1, digest := d.digest + digestHash k v }
  match f.read v with
  | .nan => { d with nan := d.nan + 1 }
  | .inf => { d with inf := d.inf + 1 }
  | .number x => { d with
      lo := some (match d.lo with
        | some y => min x y
        | none => x)
      hi := some (match d.hi with
        | some y => max x y
        | none => x) }

/-- Summarises the elements that begin in a line at a byte offset of their extent (R556; DEDUCED, notes/assumptions/27.md). -/
def Digest.lineOf (d : Digest) (f : Format) (offset : Nat) (data : LineData) (mask : LineMask) : Digest :=
  let first := ceilDiv (8 * offset) f.bits
  let last := ceilDiv (8 * offset + 1024) f.bits
  (List.range (last - first)).foldl (fun d i =>
    let k := first + i
    let at_ := k * f.bits - 8 * offset
    if 1024 < at_ + f.bits then { d with straddled := d.straddled + 1 }
    else
      let lo := at_ / 8
      let hi := (at_ + f.bits - 1) / 8
      let on := enabledIn mask lo hi
      if on = hi + 1 - lo then d.element f k (data.toNat / 2 ^ at_ % 2 ^ f.bits)
      else if on = 0 then d
      else { d with partials := d.partials + 1 }) d

/-- Summarises one scale byte at an offset of the scale extent. -/
def Digest.scale (d : Digest) (j v : Nat) : Digest :=
  let d := { d with scales := d.scales + 1, digest := d.digest + digestHash (2 ^ 62 + j) v }
  if v = 0xFF then { d with scaleNan := d.scaleNan + 1 }
  else { d with scaleMin := min d.scaleMin v, scaleMax := max d.scaleMax v }

/-- Summarises the scale bytes of a line at a context address. -/
def Digest.scaleLine (d : Digest) (p : Probe) (a : Nat) (data : LineData) (mask : LineMask) : Digest :=
  (List.range 128).foldl (fun d i =>
    if mask.getLsbD i ∧ p.scaleAt ≤ a + i ∧ a + i < p.scaleAt + p.scaleLen then
      d.scale (a + i - p.scaleAt) (data.toNat / 2 ^ (8 * i) % 256)
    else d) d

/-- A line at a context address meets the scale extent in a byte that a mask enables. -/
def Probe.scaleHit (p : Probe) (a : Nat) (mask : LineMask) : Bool :=
  (List.range 128).any fun i => mask.getLsbD i && decide (p.scaleAt ≤ a + i ∧ a + i < p.scaleAt + p.scaleLen)

/-- A line at a context address lies in the element extent. -/
def Probe.elementHit (p : Probe) (a : Nat) : Bool := decide (p.start ≤ a ∧ a < p.start + p.length)

/-- A probe matches the writes of a context (and of a sequence, under its filter) into a segment. -/
def State.probeMatches (s : State) (part : Nat) (p : Probe) (ctx : Nat) (seq : Option Nat) (key : Nat) : Bool :=
  p.armed && p.ctx == ctx && p.gen == (s.ctxAt ctx).gen && (!p.filter || seq == some p.seq) && segKey part ctx p.seg == key

/-- A lane accepted an engine's write of a line at a context address (R555). -/
def State.digestLine (s : State) (part ctx : Nat) (seq : Option Nat) (key a : Nat) (data : LineData) (mask : LineMask) : State :=
  (List.range 8).foldl (fun s i =>
    let p := s.probeAt part i
    if s.probeMatches part p ctx seq key = false ∨ (p.elementHit a = false ∧ p.scaleHit a mask = false) then s
    else s.modProbe part i fun p =>
      let d := { p.acc with lines := p.acc.lines + 1 }
      let d := if p.elementHit a then d.lineOf (formatOf p.format) (a - p.start) data mask else d
      { p with acc := d.scaleLine p a data mask }) s

/-- A write of bytes a to a + n − 1 went to a host-tier or remote page: its lines are counted unseen (R555). -/
def State.digestUnseen (s : State) (part ctx : Nat) (seq : Option Nat) (key a n : Nat) : State :=
  (List.range 8).foldl (fun s i =>
    let p := s.probeAt part i
    let lines := (List.range ((a + n - 1) / 128 - a / 128 + 1)).filter fun j =>
      let l := (a / 128 + j) * 128
      p.elementHit l || (decide (l < p.scaleAt + p.scaleLen ∧ p.scaleAt < l + 128) && p.scaleLen != 0)
    if n = 0 ∨ s.probeMatches part p ctx seq key = false ∨ lines = [] then s
    else s.modProbe part i fun p => { p with acc := { p.acc with unseen := p.acc.unseen + lines.length } }) s

end Sys2Proof.Machine
end

