-- ==== Sys2Proof/Machine/Tiles.lean ====
section
/-! DEFINITION. Tiles at an engine's port (R338–R343): what a tag may reach (R244, R248, R280), the footprint check, fault waits,
hot counting (R350) and how a failure reaches a row, a batch or a WORK (R246, R340). -/

namespace Sys2Proof.Machine

/-! ### Failures (R246, R340) -/

/-- Records the first failing status of a row of an engine's running batch (R246). -/
def State.failRow (s : State) (e i : Nat) (f : Fail) : State :=
  s.modEng e fun x => match x.running with
    | some (.batch b) => { x with running := some (.batch { b with rows := b.rows.zipIdx.map fun y =>
        if y.2 = i ∧ y.1.failed = none ∧ (b.shared.all fun z => z.status == .stepRetry) = true then { y.1 with failed := some f } else y.1 }) }
    | _ => x

/-- Records the first failing status of an engine's running WORK. -/
def State.failWork (s : State) (e : Nat) (f : Fail) : State :=
  s.modEng e fun x => match x.running with
    | some (.work w) => { x with running := some (.work (if w.failed = none then { w with failed := some f } else w)) }
    | _ => x

/-- Moves a group's slot to DEGRADED when it is the ACTIVE one (R251), with the partition's event. -/
def State.degrade (s : State) (p g slot : Nat) : State :=
  if ((s.groupAt g).slot slot).st = .active then
    (s.modGroup g fun x => x.modSlot slot fun b => { b with st := .degraded }).partEvent p
  else s

/-- A batch-tag request fails (R246, R265): every row takes the status, no context is lost for it, and the ACTIVE slot becomes DEGRADED. -/
def State.failBatch (s : State) (e : Nat) (f : Fail) : State :=
  match (s.engAt e).running with
  | some (.batch b) =>
    let t := s.modEng e fun x => { x with running := some (.batch (if b.shared = none then { b with shared := some { f with reason := 0 } } else b)) }
    t.degrade b.part b.group b.slot
  | _ => s

/-- A failure of the tag that a tile or a request carries. -/
def State.failTag (s : State) (e : Nat) (tag : TileTag) (f : Fail) : State :=
  match tag with
  | .row i => s.failRow e i f
  | .batch => s.failBatch e f
  | .work => s.failWork e f

/-- Counts a request against an engine and writes an ENGINE_FAULT record (R238, R239, R516): cause 1 a row index out of range,
2 tag parity. The count is that of the epoch. -/
def State.badTag (s : State) (e cause : Nat) : State :=
  let t := s.modEng e fun x => { x with badTags := x.badTags + 1 }
  t.logRec { kind := 0x0013, part := (s.engPart e).getD 0xFF, place := e, a := e, b := cause, c := (t.engAt e).badTags }

/-! ### Footprints (R244, R248, R280, R323, R338) -/

/-- The bytes that a tile asks for: `rows` runs of `len` bytes, `stride` apart, from `start`; the contexts whose segments its
tag may reach, in the order in which they are tried; the context for which it moves (0: the batch). -/
structure Span where
  part   : Nat
  ctx    : Nat
  start  : Nat
  len    : Nat
  rows   : Nat
  stride : Nat
  reach  : List Nat

/-- What a tile's address names: a span, a refusal (R248, R280), a token that needs no memory (R273), or nothing that runs. -/
inductive Named where
  | span (x : Span)
  | refused
  | token
  | none

/-- The KV page-list entry of a position resolved through the page list (R279, R280). -/
def State.kvAddr (s : State) (q : Seq) (pos offset : Nat) : Option Nat :=
  match q.pages[pos / q.perPage]? with
  | some e =>
    let g := s.segAt (segKey 0 q.ctx (e / 2 ^ 28))
    let a := g.base + 65536 * (e % 2 ^ 28) + 128 * q.tokLines * (pos % q.perPage) + offset
    if g.holds a then some a else none
  | none => none

/-- A row's tile. -/
def State.rowSpan (s : State) (b : Batch) (r : Row) (t : TileReq) : Named :=
  let q := s.seqAt r.seq
  match t.addr with
  | .ctx a n rows stride => .span ⟨b.part, r.ctx, a, n, rows, stride, if t.write then [r.ctx] else [r.ctx, 0]⟩
  | .gather o => match b.members.get none r.ctx with
    | some m => if o % 32 = 0 ∧ o < m.len ∧ t.write = false then .span ⟨b.part, r.ctx, m.addr + o, 32, 1, 32, [r.ctx, 0]⟩ else .refused
    | none => .refused
  | .kv pos o n =>
    if (if t.write then pos == r.pos else decide (pos ≤ r.pos)) && decide (o + n ≤ 128 * q.tokLines) && decide (0 < n) then
      match s.kvAddr q pos o with
      | some a => .span ⟨b.part, r.ctx, a, n, 1, n, [r.ctx]⟩
      | none => .refused
    else .refused
  | .token =>
    if t.write then .refused
    else if r.prefill = false then .token
    else match q.chunkAt r.pos with
      | some c => .span ⟨b.part, r.ctx, c.addr + 4 * (r.pos - c.pos), 4, 1, 4, [r.ctx, 0]⟩
      | none => .refused

/-- What a tile's tag and address name. -/
def State.named (s : State) (t : TileReq) : Named :=
  match t.tag, (s.engAt t.engine).running with
  | .row i, some (.batch b) => match b.rows[i]? with
    | some r => s.rowSpan b r t
    | none => .none
  | .batch, some (.batch b) => match t.addr with
    | .ctx a n rows stride =>
      let last := a + (rows - 1) * stride + n
      if t.write = false ∧ b.ext.1 ≤ a ∧ last ≤ b.ext.1 + b.ext.2 then .span ⟨b.part, 0, a, n, rows, stride, [0]⟩ else .refused
    | _ => .refused
  | .work, some (.work w) => match t.addr with
    | .ctx a n rows stride => .span ⟨w.part, w.ctx, a, n, rows, stride, if t.write then [w.ctx] else [w.ctx, 0]⟩
    | _ => .refused
  | _, _ => .none

/-- The byte runs of a span: first and last byte. -/
def Span.runs (x : Span) : List (Nat × Nat) := (List.range x.rows).map fun r => (x.start + r * x.stride, x.start + r * x.stride + x.len - 1)

/-- The valid segment that holds a span whole, among the sets its tag may reach (R339, check 3): its key. -/
def State.spanSeg (s : State) (x : Span) : Option Nat :=
  firstSome (fun c => ((List.range 16).find? fun g => x.runs.all fun r =>
    (s.segAt (segKey x.part c g)).holds r.1 && (s.segAt (segKey x.part c g)).holds r.2).map (segKey x.part c)) x.reach

/-- The pages of a footprint in ascending order. -/
def Span.pages (x : Span) (g : Seg) : List Nat :=
  sortOn (fun n => (n : Int)) (x.runs.flatMap fun r =>
    let a := (r.1 - g.base) / g.pageSize
    (List.range ((r.2 - g.base) / g.pageSize - a + 1)).map fun i => a + i).eraseDups

/-- The bytes of a footprint on a page. -/
def Span.bytesOn (x : Span) (g : Seg) (page : Nat) : Nat :=
  let lo := g.base + page * g.pageSize
  let hi := lo + g.pageSize - 1
  (x.runs.map fun r => if max r.1 lo ≤ min r.2 hi then min r.2 hi - max r.1 lo + 1 else 0).sum

/-- The byte runs of a footprint on a page, each with its offset in the page and its length. -/
def Span.runsOn (x : Span) (g : Seg) (page : Nat) : List (Nat × Nat) :=
  let lo := g.base + page * g.pageSize
  let hi := lo + g.pageSize - 1
  (x.runs.filter fun r => decide (max r.1 lo ≤ min r.2 hi)).map fun r => (max r.1 lo - lo, min r.2 hi - max r.1 lo + 1)

/-- The first byte of a footprint on a page. -/
def Span.firstOn (x : Span) (g : Seg) (page : Nat) : Nat :=
  let lo := g.base + page * g.pageSize
  ((x.runs.filter fun r => decide (max r.1 lo ≤ min r.2 (lo + g.pageSize - 1))).map fun r => max r.1 lo).min?.getD lo

/-- Looks up every page of a footprint: the state, whether every table line was readable, and the entries. -/
def State.lookups (s : State) (e p k : Nat) : List Nat → State × Bool × List (Nat × Option TlbEntry)
  | [] => (s, true, [])
  | n :: t =>
    let (s, ok, x) := s.lookup e p k n
    let (s, ok', l) := s.lookups e p k t
    (s, ok && ok', (n, x) :: l)

/-- What R339 decides of a tile. -/
inductive Verdict where
  | go (seg : Nat) (pages : List (Nat × Nat × Nat))
  | absent (seg page : Nat)
  | fault
deriving DecidableEq, Repr

/-- The checks of R339. A tile that lacks a page and fails no other check is the one that may wait (R341). -/
def State.footprint (s : State) (e : Nat) (x : Span) : State × Verdict :=
  if x.rows = 0 ∨ x.len = 0 ∨ 2 ^ 20 < x.rows * x.len then (s, .fault)
  else if x.runs.any (fun r => decide (2 ^ 48 ≤ r.2)) then (s, .fault)
  else match s.spanSeg x with
    | none => (s, .fault)
    | some k =>
      let g := s.segAt k
      let pages := x.pages g
      if 16 < pages.length then (s, .fault)
      else if g.node ≠ s.ownNode ∧ (s.partAt x.part).nodes.getLsbD g.node = false then (s, .fault)
      else match s.lookups e x.part k pages with
        | (t, false, _) => (t, .fault)
        | (t, true, l) =>
          let got := l.filterMap fun y => y.2.map fun z => (y.1, z.phys, z.tier)
          if got.any (fun y => y.2.2 != 0 && g.keyFor y.2.2 == 0xFF) then (t, .fault)
          else match l.find? fun y => y.2.isNone with
            | some y => (t, .absent k y.1)
            | none => (t, .go k got)

/-- The footprint check with the segment's permission for the tile's direction (R339, check 4). -/
def State.tileCheck (s : State) (t : TileReq) (x : Span) : State × Verdict :=
  match s.spanSeg x with
  | some k => if (if t.write then (s.segAt k).write && decide (k < 2 ^ 20) else (s.segAt k).read) then s.footprint t.engine x else (s, .fault)
  | none => s.footprint t.engine x

/-! ### Tiles in service -/

/-- Takes a tile out of service. -/
def State.dropTile (s : State) (id : Nat) : State := { s with xl := { s.xl with tiles := s.xl.tiles.drop id } }

/-- Puts a tile in service under a number. -/
def State.putTile (s : State) (id : Nat) (t : TileRun) : State := { s with xl := { s.xl with tiles := s.xl.tiles.put none id (some t) } }

/-- The context whose byte vector a tile's tag counts for (R548). -/
def tileCtx (t : TileReq) (x : Span) : Nat := if t.tag = .batch then 0 else x.ctx

/-- The sequence of a tile's row. -/
def State.tileSeq (s : State) (t : TileReq) : Option Nat :=
  match t.tag, (s.engAt t.engine).running with
  | .row i, some (.batch b) => b.rows[i]?.map Row.seq
  | _, _ => none

/-- Counts the lines of a write to a host-tier or remote page for the digest probes (R555). -/
def State.unseenOn (s : State) (t : TileReq) (x : Span) (k page : Nat) : State :=
  let g := s.segAt k
  let lo := g.base + page * g.pageSize
  let hi := lo + g.pageSize - 1
  if t.write = false ∨ t.tag = .batch then s
  else x.runs.foldl (fun s r =>
    if max r.1 lo ≤ min r.2 hi then s.digestUnseen x.part x.ctx (s.tileSeq t) k (max r.1 lo) (min r.2 hi - max r.1 lo + 1) else s) s

/-- The requester that an engine's tag names at a lane. -/
def tagReq (e : Nat) : TileTag → Requester
  | .row i => .row e i true
  | .batch => .batch e true
  | .work => .work e

/-- The tag that Lendor attaches to a tile's requests (R235, R236); none for a WORK. -/
def State.wireTag (s : State) (t : TileReq) : Option W64 :=
  match t.tag, (s.engAt t.engine).running with
  | .row i, some (.batch b) => b.rows[i]?.map fun r => BitVec.ofNat 64 (withParity r.tag)
  | .batch, some (.batch b) => some (BitVec.ofNat 64 b.tag)
  | _, _ => none

/-- Sets an engine's stream; none: it has stopped. -/
def State.setStream (s : State) (e : Nat) (x : Option Stream) : State := { s with xl := { s.xl with streams := s.xl.streams.put none e x } }

/-- A tile that failed leaves: a read returns zeros (R246, R340), its engine's stream stops (R335), and no credit is held for it. -/
def State.zeroTile (s : State) (id : Nat) (t : TileReq) (addr : Nat) (st : Status) : State :=
  let u := ((s.dropTile id).freeCredits id).setStream t.engine none
  if t.write then u else { u with out := { u.out with reads := u.out.reads ++ [⟨tagReq t.engine t.tag, addr, st, 0⟩] } }

/-- A tile fails: its tag takes the status, and it leaves. -/
def State.endTileWith (s : State) (id : Nat) (t : TileReq) (f : Fail) : State := (s.failTag t.engine t.tag f).zeroTile id t f.addr f.status

/-- A tile whose checks passed moves (R338): host-tier bytes go to the PCIe controller at once under the segment's PASID (R327), remote pages
to the links with offset address and tag (R328), and local lines to the gate lanes, which pass GATE_REQUEST. -/
def State.moveTile (s : State) (id : Nat) (t : TileReq) (x : Span) (k : Nat) (pages : List (Nat × Nat × Nat)) (cls dl : Nat) : State :=
  let g := s.segAt k
  let remote := g.node != s.ownNode
  if remote && s.nodeDown g.node && pages.any (fun y => y.2.2 != 0) then s.endTileWith id t ⟨.peerReset, 0, x.start⟩
  else
  let s := pages.foldl (fun s y =>
    let n := x.bytesOn g y.1
    let runs := (x.runsOn g y.1).map fun r => (y.2.1 + r.1, r.2)
    let s := if y.2.2 = 0 || remote then s.unseenOn t x k y.1 else s
    if y.2.2 = 0 then
      let s := { s with out := { s.out with pcie := s.out.pcie ++ runs.map fun (r : Nat × Nat) => (s.segPasid x.part k, r.1, r.2, t.write) } }
      ((if t.write then runs.foldl (fun (s : State) (r : Nat × Nat) => s.dirtyHost x.part (s.segPasid x.part k) r.1 r.2) s else s).countBoth x.part (tileCtx t x) 4 n).hotCount (engField t.engine) x.part k y.1 0 (ceilDiv n 128)
    else if remote then
      s.linkAccess g.node ⟨x.part, tileCtx t x, t.engine, if t.write then n else 0, dl,
        .access id g.node x.part runs ⟨g.keyFor y.2.2, segTweak x.part k⟩ (s.wireTag t) t.write cls (s.partAt x.part).span (wireDl dl)⟩
    else s) s
  if pages.all fun y => y.2.2 == 0 then s.dropTile id else s.putTile id ⟨t, x.part, x.ctx, k, s.segAt k, pages,
    if remote then pages.map Prod.fst else [], .moving⟩

/-- The class and the absolute deadline of what a tile serves (R210, R223). -/
def State.tileClass (s : State) (t : TileReq) : Nat × Nat :=
  match t.tag, (s.engAt t.engine).running with
  | .row i, some (.batch b) => match b.rows[i]? with
    | some r => (r.cls, r.dl)
    | none => (b.cls, 0)
  | _, some (.batch b) => (b.cls, 0)
  | _, some (.work w) => (w.cls, w.dl)
  | _, none => (0, 0)

/-- The code of a tag in a fault record (R355). -/
def tagKind : TileTag → Nat
  | .row _ => 0
  | .batch => 1
  | .work => 2

/-- A tile waits in a fault slot (R341, R355), or faults at once when none is free (R342). -/
def State.faultTile (s : State) (id : Nat) (t : TileReq) (x : Span) (k page : Nat) : State :=
  let m := s.migrateAt x.part
  let f : Fail := ⟨.faultTranslation, 1, x.start⟩
  match (List.range m.slotCount).find? fun i => (m.slots.get none i).isNone with
  | none => (({ s with obs := { s.obs with faultAll := inc32 s.obs.faultAll } }.modMigrate x.part fun m => { m with
      overflow := inc32 m.overflow }).endTileWith id t f)
  | some i =>
    let g := s.segAt k
    let c := keyCtx k
    let n := m.faultId + 1
    let s := s.modMigrate x.part fun m => { m with faultId := n, slots := m.slots.put none i (some ⟨id, 0, m.faultWait⟩) }
    let s := s.hostWrite (m.queueAddr + 32 * i) (some (s.partAt x.part).record.hostPasid) 32
      (pack [(16, c), (8, if c = 0 then 0 else (s.ctxAt c).gen.toNat), (4, k % 16), (1, bit t.write), (2, tagKind t.tag), (1, 0), (32, page),
        (64, x.firstOn g page), (64, s.beat.tick.toNat), (32, n.toNat), (7, t.engine), (25, 0)])
    let s := if s.org.faultEvt.contains x.part then s
      else { s with org := { s.org with faultEvt := s.org.faultEvt ++ [x.part] } }.partEvent x.part
    s.putTile id ⟨t, x.part, x.ctx, k, s.segAt k, [(page, 0, 0)], [], .faultWait i⟩

/-- A TIER_MOVE copies a page of a footprint, and holds the tile's write (R351): its number. -/
def State.movingPage (s : State) (k : Nat) (pages : List (Nat × Nat × Nat)) : Option Nat :=
  (s.mem.acts.find? fun a => a.code == 3 && a.running && !a.complete && a.seg == k && pages.any fun y => y.1 == a.page).map Activity.id

/-- Caches the page-list lookup of a KV tile in its engine's field (R280, R333). -/
def State.kvFill (s : State) (t : TileReq) : State :=
  match t.tag, t.addr, (s.engAt t.engine).running with
  | .row i, .kv pos _ _, some (.batch b) => match b.rows[i]? with
    | some r =>
      let q := s.seqAt r.seq
      match q.pages[pos / q.perPage]? with
      | some e =>
        let x : KvEntry := ⟨r.seq, pos / q.perPage, e⟩
        { s with xl := { s.xl with kv := s.xl.kv.upd [] (engField t.engine) fun l => if l.contains x then l else l ++ [x] } }
      | none => s
    | none => s
  | _, _, _ => s

/-- A decode row's token read returns its sequence's `last_token` (R273). -/
def State.sendToken (s : State) (t : TileReq) : State :=
  match t.tag, s.tileSeq t with
  | .row i, some q => { s with out := { s.out with tokens := s.out.tokens ++ [(t.engine, i, (s.seqAt q).token)] } }
  | _, _ => s

/-! ### Tile streams (R335) -/

/-- Translates pages of a segment into a field's STLB ahead of use: whether each was found. -/
def State.fetchPages (s : State) (f p k : Nat) : List Nat → State × Bool
  | [] => (s, true)
  | n :: t =>
    if (s.xl.stlb.get [] f).any fun e => e.is k n then s.fetchPages f p k t
    else match s.walk f p k n .clean with
      | (u, _, some _) => u.fetchPages f p k t
      | (u, _, none) => (u, false)

/-- The stream of an engine whose tile has passed R339: at a steady stride it translates the footprints of the next 4 tiles; it stops where it finds no
translation, and raises nothing. -/
def State.stream (s : State) (e k : Nat) (x : Span) : State :=
  let old := s.xl.streams.get none e
  let step := old.bind fun y => if y.part = x.part ∧ y.ctx = x.ctx then some ((x.start : Int) - y.start) else none
  let t := s.setStream e (some ⟨x.part, x.ctx, x.start, step⟩)
  match step, old.bind Stream.step with
  | some d, some d' =>
    if d = d' ∧ d ≠ 0 then
      let g := t.segAt k
      let next := [1, 2, 3, 4].map fun (i : Nat) => { x with start := ((x.start : Int) + i * d).toNat }
      let ahead := next.takeWhile fun y => y.runs.all fun r => g.holds r.1 && g.holds r.2
      let (u, found) := t.fetchPages (engField e) x.part k (ahead.flatMap fun y => y.pages g).eraseDups
      if found = true ∧ ahead.length = 4 then u else u.setStream e none
    else t
  | _, _ => t

/-- A row index at or above the rows of an engine's running batch (R238). -/
def State.pastRows (s : State) (e : Nat) (tag : TileTag) : Bool :=
  match tag, (s.engAt e).running with
  | .row i, some (.batch b) => decide (b.rows.length ≤ i)
  | _, _ => false

/-- The tag under which an engine's requests run: an S3-compatible engine's batch has the one tag of its first row (R241). -/
def State.runTag (s : State) (e : Nat) (tag : TileTag) : TileTag :=
  match (s.engAt e).running with
  | some (.batch _) => if (s.engAt e).compat then .row 0 else tag
  | _ => tag

/-- Runs R339 on a tile and does what follows (R338, R340, R341, R351). A tile that faults stops its engine's stream (R335). -/
def State.runTile (s : State) (id : Nat) (t : TileReq) : State :=
  let fail := fun (s : State) (a : Nat) => s.endTileWith id t ⟨.faultTranslation, 1, a⟩
  match s.named t with
  | .none => s.dropTile id
  | .token => (s.sendToken t).dropTile id
  | .refused => fail s 0
  | .span x =>
    match (s.kvFill t).tileCheck t x with
    | (s, .fault) => fail s x.start
    | (s, .absent k page) =>
      if (s.migrateAt x.part).fault then s.faultTile id t x k page else fail s x.start
    | (s, .go k pages) =>
      let s := s.stream t.engine k x
      match if t.write then s.movingPage k pages else none with
      | some a => s.putTile id ⟨t, x.part, x.ctx, k, s.segAt k, pages, [], .moveWait a⟩
      | none => s.moveTile id t x k pages (s.tileClass t).1 (s.tileClass t).2

/-- Frees a tile's fault slot. -/
def State.freeFaultSlot (s : State) (p i : Nat) : State := s.modMigrate p fun m => { m with slots := m.slots.put none i none }

/-- The first context address of a tile. -/
def State.tileStart (s : State) (t : TileReq) : Nat :=
  match s.named t with
  | .span x => x.start
  | _ => 0

/-- A held tile faults (R342): its slot frees. -/
def State.endWait (s : State) (id : Nat) (t : TileRun) : State :=
  match t.st with
  | .faultWait i => (s.freeFaultSlot t.part i).endTileWith id t.req ⟨.faultTranslation, 1, s.tileStart t.req⟩
  | _ => s

/-- The tiles that wait in fault slots and meet a condition, with their numbers. -/
def State.waiting (s : State) (f : TileRun → Bool) : List (Nat × TileRun) :=
  s.xl.tiles.filterMap fun e => match e.2 with
    | some t => match t.st with
      | .faultWait _ => if f t then some (e.1, t) else none
      | _ => none
    | none => none

/-- Faults the waiting tiles that meet a condition (R342). -/
def State.endWaits (s : State) (f : TileRun → Bool) : State := (s.waiting f).foldl (fun s e => s.endWait e.1 e.2) s

/-- Checks the waiting tiles of a segment again after a SEG_SYNC (R342): one whose page is present now frees its slot and goes
through R339 again; the others keep waiting. One whose device-copy line fails its tag or is poisoned faults (R356). -/
def State.retryWaits (s : State) (k : Nat) : State :=
  (s.waiting fun t => t.seg == k).foldl (fun s e =>
    let first := (e.2.pages.map Prod.fst).headD 0
    match s.tableWord e.2.part k first .clean with
    | (u, some w) => if entryPresent w then
        match e.2.st with
        | .faultWait i => (u.freeFaultSlot e.2.part i).runTile e.1 e.2.req
        | _ => u
      else u
    | (u, none) => u.endWait e.1 e.2) s

/-- Releases the write tiles that a TIER_MOVE held: they retry whole (R351). -/
def State.releaseMove (s : State) (a : Nat) : State :=
  (s.xl.tiles.filterMap fun e => match e.2 with
    | some t => if t.st = .moveWait a then some (e.1, t.req) else none
    | none => none).foldl (fun s e => s.runTile e.1 e.2) s

end Sys2Proof.Machine
end

