-- ==== Sys2Proof/Machine/Stage.lean ====
section
/-! DEFINITION. Placing entries in a session's staged set (R103, R104). -/

namespace Sys2Proof.Machine

/-- Places an entry in a set: one for the same command, partition and group is replaced in place (R103). -/
def placeEntry (set : List Entry) (e : Entry) : List Entry :=
  let same := fun (x : Entry) => x.op == e.op && x.part == e.part && x.group == e.group
  if set.any same then set.map fun x => if same x then e else x else set ++ [e]

/-- The entry of a command for a group. -/
def State.entryOf (s : State) (c : Cmd) (group data : Nat) : Entry :=
  ⟨c.opcode, c.part, if c.part < 64 then (s.partAt c.part).gen else 0, group, data⟩

/-- Completes a C command that passed its checks: its entries join the set, which holds at most 64 (R103). -/
def State.stage (s : State) (c : Cmd) (es : List (Nat × Nat)) : State :=
  let set := es.foldl (fun l e => placeEntry l (s.entryOf c e.1 e.2)) (s.mbAt c.ref.mb).staged
  if 64 < set.length then s.reject c .rejectedInconsistent 0x010B
  else (s.modMb c.ref.mb fun b => { b with staged := set }).respond c.ref .ok 0 0 0 none

end Sys2Proof.Machine
end

