-- ==== Sys2Proof/Machine/Segments.lean ====
section
/-! DEFINITION. The translation family: SEG_SYNC with its three operations, SEG_CHECK, TLB_INVALIDATE, MIGRATE_MODE, tiles, walks,
fault waits and the swap of a TIER_MOVE (11_translation). -/

namespace Sys2Proof.Machine

/-! ### SEG_SYNC (R344, R345) -/

/-- `op` of a SEG_SYNC. -/
def segOp (c : Cmd) : Nat := c.f 3 0 2

/-- The key of the segment that a request names at bytes 0 and 3. -/
def segName (c : Cmd) : Nat := segKey c.part (c.f 0 0 16) (c.f 3 4 4)

/-- Checks 1 to 3 of R345; `lost`: a LOST context is accepted. -/
def ctxChecks (c : Cmd) (s : State) (x gen : Nat) (lost : Bool) : List (Bool × Status × Nat) :=
  let st := (s.ctxAt x).st
  [(x == 0 || (s.recOf c).hasCtx x, .notPermitted, 0x0900),
    (x == 0 || st == .live || (lost && st == .lost), .contextLost, 0x0901),
    (gen == (if x = 0 then 0 else (s.ctxAt x).gen.toNat), .staleGeneration, 0)]

/-- The descriptor of a LOAD (R324). -/
def segDesc (c : Cmd) : Seg :=
  ⟨true, c.f 16 0 64, c.f 24 0 64, c.f 32 0 64, c.f 40 0 64, c.f 48 0 1 == 1, c.f 48 1 1 == 1, c.f 48 2 1 == 1, c.f 48 3 2, c.f 48 5 1 == 1,
    c.f 50 0 9, c.f 52 0 8, c.f 53 0 8, c.f 56 0 20, 0, 0, 0⟩

/-- The reserved bits of a descriptor (R324). -/
def segDescReserved : List (Nat × Nat × Nat) := [(48, 6, 10), (51, 1, 7), (54, 0, 16), (58, 4, 12), (60, 0, 32)]

/-- The device copy lies in the fast tier of the own node, inside a range that the partition holds (R330). -/
def State.tableFits (s : State) (p : Nat) (g : Seg) : Bool :=
  let a := localAddr g.table
  let last := a + 8 * g.pages - 1
  g.table / 2 ^ 48 == s.ownNode && localTier a == some 2 && localTier last == some 2 &&
  match s.rangeOf a with
  | some r => (s.rangeAt r).st == .owned && (s.rangeAt r).owner == p && (s.rangeAt r).holds last
  | none => false

/-- Check 6 of R345. -/
def State.descFits (s : State) (p x : Nat) (g : Seg) : Bool :=
  let ps := g.pageSize
  g.base % ps == 0 && g.limit % ps == 0 && decide (1 ≤ g.pages ∧ g.pages ≤ 2 ^ 20 ∧ g.base + g.limit ≤ 2 ^ 48) &&
  g.table % 128 == 0 && g.host % 8 == 0 && g.homeTier != 3 && (x != 0 || !g.write) && s.nodeAllowed p g.node &&
  (decide (g.keyFast < 128) || g.keyFast == 0xFF) && (decide (g.keySlow < 128) || g.keySlow == 0xFF) && s.tableFits p g

/-- A segment overlaps no valid segment of its set (R322). -/
def State.segClear (s : State) (p x : Nat) (g : Seg) : Bool :=
  (List.range 16).all fun n =>
    let o := s.segAt (segKey p x n)
    !o.valid || decide (g.base + g.limit ≤ o.base ∨ o.base + o.limit ≤ g.base)

/-- A page entry meets R326, and R328 in a remote segment. -/
def State.entryFits (s : State) (g : Seg) (w : W64) : Bool :=
  let n := w.toNat
  !entryPresent n ||
    (entryTier n != 3 && n / 8 % 2 ^ 13 == 0 && (!g.big || n / 2 ^ 16 % 32 == 0) &&
     (if entryTier n = 0 then g.node == s.ownNode else n / 2 ^ 57 == 0 && n / 2 ^ 48 % 512 == g.node))

/-- The index of the first entry that does not meet its rules. -/
def State.badEntry (s : State) (g : Seg) (ws : List W64) : Option Nat :=
  (ws.zipIdx.find? fun x => !s.entryFits g x.1).map Prod.snd

/-- The mapped bytes by tier of a list of entries. -/
def mappedBy (g : Seg) (tier : Nat) (ws : List Nat) : Nat :=
  (ws.filter fun w => entryPresent w && entryTier w == tier).length * g.pageSize

/-- Sets a segment's mapped bytes (R167). -/
def Seg.withMapped (g : Seg) (ws : List Nat) : Seg :=
  { g with mapFast := mappedBy g 2 ws, mapSlow := mappedBy g 1 ws, mapHost := mappedBy g 0 ws }

/-- The device-copy words of a segment. -/
def State.allWords (s : State) (p k : Nat) : List Nat :=
  (List.range (s.segAt k).pages).map fun i => ((s.tableWord p k i .clean).2).getD 0

/-- The failing response of check 11, which names the page (R345). -/
def State.segFail (s : State) (c : Cmd) (index : Nat) : State :=
  if 8 ≤ c.space then s.respond c.ref .rejectedInconsistent 0x0908 8 (pack [(32, 0), (32, index)]) none
  else s.respond c.ref .ok 0 8 0 none

/-- The checks of SEG_LOAD, in order (R345). -/
def segLoadChecks (table : HostTable) (c : Cmd) (s : State) : List (Bool × Status × Nat) :=
  let x := c.f 0 0 16
  let k := segName c
  let g := segDesc c
  [(c.zeros ([(3, 2, 2), (12, 0, 32)] ++ (if segOp c = 0 then segDescReserved else [(16, 0, 384)])),
      .rejectedInconsistent, 0x0005)] ++ ctxChecks c s x (c.f 2 0 8) false ++ [
    (segOp c == 0, .rejectedInconsistent, 0x0902),
    (!(s.segAt k).valid, .rejectedInconsistent, 0x0903),
    (s.descFits c.part x g, .rejectedInconsistent, 0x0905),
    (s.segClear c.part x g, .rejectedInconsistent, 0x0906),
    ((table.map fun l => l.length == g.pages) == some true, .rejectedInconsistent, 0x0909)]

/-- SEG_SYNC with `op` LOAD, and the answer to an `op` that R345 refuses. -/
def runSegLoad (table : HostTable) (c : Cmd) (s : State) : State :=
  let k := segName c
  let g := segDesc c
  s.checked c (segLoadChecks table c s) fun s =>
    let ws := table.getD []
    match s.badEntry g ws with
    | some i => s.segFail c i
    | none =>
      let t := s.modSeg k fun _ => g.withMapped (ws.map BitVec.toNat)
      s.answer (t.putWords c.part k 0 ws) c [(32, ws.length), (32, 0xFFFFFFFF)]

/-- SEG_SYNC (LOAD). -/
def execSegSyncLoad (k : Take) (table : HostTable) (s : State) : Host.Outcome State Fault Refusal :=
  .next (s.live (hawk 0x0901 (fun c => segOp c == 0 || segOp c == 3) k (runSegLoad table)))

/-- The checks of SEG_ENTRIES, in order (R346, R342). -/
def segEntriesChecks (table : HostTable) (c : Cmd) (s : State) : List (Bool × Status × Nat) :=
  let x := c.f 0 0 16
  let k := segName c
  let g := s.segAt k
  let first := c.f 4 0 32
  let n := c.f 8 0 32
  [(c.zeros [(3, 2, 2), (12, 0, 32), (16, 0, 384)], .rejectedInconsistent, 0x0005)] ++
    ctxChecks c s x (c.f 2 0 8) false ++ [
    (g.valid, .rejectedInconsistent, 0x0903),
    (decide (1 ≤ n ∧ n ≤ 65536 ∧ first + n ≤ g.pages), .rejectedInconsistent, 0x0907),
    ((table.map fun l => l.length == n) == some true, .rejectedInconsistent, 0x0909)]

/-- SEG_SYNC with `op` ENTRIES: cached translations stay (R346); waits that it serves end (R342). -/
def runSegEntries (table : HostTable) (c : Cmd) (s : State) : State :=
  let k := segName c
  let g := s.segAt k
  let first := c.f 4 0 32
  let n := c.f 8 0 32
  s.checked c (segEntriesChecks table c s) fun s =>
    let ws := table.getD []
    match s.badEntry g ws with
    | some i => s.segFail c (first + i)
    | none =>
      let t := s.putWords c.part k first ws
      let t := t.modSeg k fun g => g.withMapped (t.allWords c.part k)
      s.answer (t.retryWaits k) c [(32, n), (32, 0xFFFFFFFF)]

/-- SEG_SYNC (ENTRIES). -/
def execSegSyncEntries (k : Take) (table : HostTable) (s : State) : Host.Outcome State Fault Refusal :=
  .next (s.live (hawk 0x0901 (fun c => segOp c == 1) k (runSegEntries table)))

/-- The tiles that move under translations that a condition covers, by segment key and page (R348). -/
def State.movingUnder (s : State) (f : Nat → Nat → Bool) : List Nat :=
  s.xl.tiles.filterMap fun e => match e.2 with
    | some t => if t.st = .moving ∧ t.pages.any (fun y => f t.seg y.1) = true then some e.1 else none
    | none => none

/-- Removes the translations that a condition covers and waits for the accesses under them (R348): the command answers at once
when none moves. -/
def State.drainTlb (before s : State) (c : Cmd) (f : Nat → Nat → Bool) (unload : Bool) : State :=
  let t := s.dropTlb fun e => f e.seg e.page
  let tiles := t.movingUnder f
  if tiles = [] then before.answer t c [(32, 0), (32, if unload then 0xFFFFFFFF else 0)]
  else before.background { t with xl := { t.xl with
    drains := t.xl.drains ++ [⟨c.ref, tiles, tiles.length, s.beat.tick, unload⟩] } } c 8

/-- A base slot that holds a base has an extent in a segment (R345, check 9). -/
def State.baseIn (s : State) (p : Nat) (g : Seg) : Bool :=
  (s.groupsOf p).any fun e => [e.2.slot0, e.2.slot1].any fun b =>
    (b.st == .loading || b.st == .standby || b.st == .active || b.st == .retiring) &&
    [b.fast, b.copy].any fun a => decide (a < g.base + g.limit ∧ g.base < a + b.length)

/-- Stops the TIER_MOVE of a segment's page (R390): the destination is discarded and held writes retry. -/
def State.stopMoves (s : State) (k : Nat) : State :=
  (s.mem.acts.filter fun a => a.code == 3 && a.seg == k).foldl (fun s a =>
    let t := { s with mem := { s.mem with acts := s.mem.acts.filter fun x => x.id != a.id } }
    (t.finishOpt a.ref .faultTranslation 0 0 0).releaseMove a.id) s

/-- The checks of SEG_UNLOAD, in order. -/
def segUnloadChecks (c : Cmd) (s : State) : List (Bool × Status × Nat) :=
  let x := c.f 0 0 16
  let k := segName c
  [(c.zeros [(3, 2, 2), (12, 0, 32), (16, 0, 384)], .rejectedInconsistent, 0x0005)] ++
    ctxChecks c s x (c.f 2 0 8) true ++ [
    ((s.segAt k).valid, .rejectedInconsistent, 0x0903),
    (x != 0 || !s.baseIn c.part (s.segAt k), .rejectedInconsistent, 0x090A)]

/-- SEG_SYNC with `op` UNLOAD. -/
def runSegUnload (c : Cmd) (s : State) : State :=
  let k := segName c
  s.checked c (segUnloadChecks c s) fun s =>
    let t := (s.modSeg k fun _ => Seg.init).endWaits fun t => t.seg == k
    s.drainTlb (t.stopMoves k) c (fun g _ => g == k) true

/-- SEG_SYNC (UNLOAD). -/
def execSegSyncUnload (k : Take) (s : State) : Host.Outcome State Fault Refusal :=
  .next (s.live (hawk 0x0901 (fun c => segOp c == 2) k runSegUnload))

/-- The checks of SEG_CHECK, in order (R347). -/
def segCheckChecks (table : HostTable) (c : Cmd) (s : State) : List (Bool × Status × Nat) :=
  let x := c.f 0 0 16
  let k := segName c
  let first := c.f 4 0 32
  let n := c.f 8 0 32
  [(c.zeros [(3, 0, 4), (12, 0, 32)], .rejectedInconsistent, 0x0005)] ++ ctxChecks c s x (c.f 2 0 8) false ++ [
    ((s.segAt k).valid, .rejectedInconsistent, 0x0903),
    (decide (1 ≤ n ∧ n ≤ 65536 ∧ first + n ≤ (s.segAt k).pages), .rejectedInconsistent, 0x0907),
    ((table.map fun l => l.length == n) == some true, .rejectedInconsistent, 0x0909)]

/-- SEG_CHECK (R347). -/
def runSegCheck (table : HostTable) (c : Cmd) (s : State) : State :=
  let k := segName c
  let first := c.f 4 0 32
  let n := c.f 8 0 32
  s.checked c (segCheckChecks table c s) fun s =>
    let diff := ((table.getD []).zipIdx.filter fun w => (s.tableWord c.part k (first + w.2) .clean).2 != some w.1.toNat).map Prod.snd
    s.answer s c [(32, n), (32, diff.length), (32, match diff with
      | [] => 0xFFFFFFFF
      | i :: _ => first + i), (32, 0)]

/-- SEG_CHECK. -/
def execSegCheck (k : Take) (table : HostTable) (s : State) : Host.Outcome State Fault Refusal :=
  .next (s.live (hawk 0x0902 anyCmd k (runSegCheck table)))

/-! ### TLB_INVALIDATE (R348, R349) -/

/-- A segment's key belongs to a partition's contexts or its context-0 set. -/
def State.keyOf (s : State) (p k : Nat) : Bool :=
  if k < 2 ^ 20 then (s.partAt p).record.hasCtx (k / 16) else (k - 2 ^ 20) / 16 == p

/-- The checks of TLB_INVALIDATE, in order. -/
def tlbInvalidateChecks (c : Cmd) (s : State) : List (Bool × Status × Nat) :=
  let x := c.f 0 0 16
  let k := segName c
  let scope := c.f 3 0 2
  let first := c.f 4 0 32
  let n := c.f 8 0 32
  [(c.zeros [(3, 2, 2), (12, 0, 32)], .rejectedInconsistent, 0x0005)] ++
    (if scope = 3 then [] else ctxChecks c s x (c.f 2 0 8) false) ++ [
    (scope == 0 || scope == 3 || (s.segAt k).valid, .rejectedInconsistent, 0x0910),
    (scope != 2 || decide (1 ≤ n ∧ first + n ≤ (s.segAt k).pages), .rejectedInconsistent, 0x0907)]

/-- TLB_INVALIDATE. -/
def runTlbInvalidate (c : Cmd) (s : State) : State :=
  let x := c.f 0 0 16
  let k := segName c
  let scope := c.f 3 0 2
  let first := c.f 4 0 32
  let n := c.f 8 0 32
  s.checked c (tlbInvalidateChecks c s) fun s =>
    let covers := fun (g page : Nat) =>
      if scope = 0 then decide (segKey c.part x 0 ≤ g ∧ g < segKey c.part x 0 + 16)
      else if scope = 1 then g == k
      else if scope = 2 then g == k && decide (first ≤ page ∧ page < first + n)
      else s.keyOf c.part g
    let t := if scope = 0 then s.dropKv fun q => (s.seqAt q).ctx == x
      else if scope = 3 then s.dropKv fun q => (s.partAt c.part).record.hasSeq q else s
    s.drainTlb t c covers false

/-- TLB_INVALIDATE. -/
def execTlbInvalidate (k : Take) (s : State) : Host.Outcome State Fault Refusal := .next (s.live (hawk 0x0903 anyCmd k runTlbInvalidate))

/-- TLB_DRAIN_END: every access under a removed translation has drained (R348). -/
def tlbDrainEnd (mb : Mailbox) (slot : Nat) (s : State) : State :=
  match s.xl.drains.find? fun d => d.ref.mb == mb && d.ref.slot == slot with
  | none => s
  | some d =>
    if d.tiles.any fun i => (s.xl.tiles.get none i).isSome then s
    else { s with xl := { s.xl with drains := s.xl.drains.filter fun x => x != d } }.finish d.ref .ok 0 8
      (pack [(32, d.count), (32, if d.unload then 0xFFFFFFFF else (s.beat.tick - d.start).toNat)])

/-- TLB_DRAIN_END. -/
def execTlbDrainEnd (mb : Mailbox) (slot : Nat) (s : State) : Host.Outcome State Fault Refusal := .next (s.live (tlbDrainEnd mb slot))

/-! ### MIGRATE_MODE (R353) -/

/-- The checks of MIGRATE_MODE, in order. -/
def migrateModeChecks (c : Cmd) : List (Bool × Status × Nat) :=
  let within := fun v => decide (1 ≤ v ∧ v ≤ 1024)
  [
    (c.zeros [(0, 2, 6), (1, 5, 3), (28, 0, 32)], .rejectedInconsistent, 0x0005),
    (decide (c.f 0 0 2 ≤ 1) && within (c.f 2 0 16) && within (c.f 4 0 16) && within (c.f 6 0 16), .rejectedInconsistent, 0x0920),
    (c.f 0 0 2 != 1 || (c.f 8 0 64 != 0 && c.f 8 0 64 % 4096 == 0), .rejectedInconsistent, 0x0921),
    (c.f 24 0 32 == 0 || (c.f 16 0 64 != 0 && c.f 16 0 64 % 4096 == 0 && decide (4 ≤ c.f 1 0 5 ∧ c.f 1 0 5 ≤ 16)),
      .rejectedInconsistent, 0x0922)]

/-- MIGRATE_MODE. -/
def runMigrateMode (c : Cmd) (s : State) : State :=
  s.checked c (migrateModeChecks c) fun s => s.stage c [(0, c.pay)]

/-- MIGRATE_MODE. -/
def execMigrateMode (k : Take) (s : State) : Host.Outcome State Fault Refusal := .next (s.live (hawk 0x0904 anyCmd k runMigrateMode))

/-! ### Tiles and walks -/

/-- An engine's stream waits while a tile of it is held in a fault slot (R341): it issues no further tile (DEDUCED, notes/assumptions/94.md). -/
def State.streamWaits (s : State) (e : Nat) : Bool := (s.waiting fun t => t.req.engine == e) != []

/-- TILE (R338–R341): an index past the batch's rows is refused with FAULT_RANGE, a read with zeros, and counted against the engine (R238). -/
def tile (t : TileReq) (s : State) : State :=
  let t := { t with tag := s.runTag t.engine t.tag }
  if s.streamWaits t.engine = true then s
  else if s.pastRows t.engine t.tag then (s.badTag t.engine 1).endTileWith s.xl.nextTile t ⟨.faultRange, 0, 0⟩
  else { s with xl := { s.xl with nextTile := s.xl.nextTile + 1 } }.runTile s.xl.nextTile t

/-- TILE. -/
def execTile (t : TileReq) (s : State) : Host.Outcome State Fault Refusal := .next (s.live (tile t))

/-- TABLE_WALK (R334, R337): a present entry enters the field's STLB. -/
def execTableWalk (field part key page : Nat) (ecc : EccEvent) (s : State) : Host.Outcome State Fault Refusal :=
  .next (s.live fun s =>
    if s.keyOf part key && (s.segAt key).valid && decide (page < (s.segAt key).pages) && decide (field < 4) then
      (s.walk field part key page ecc).1
    else s)

/-- FAULT_WAIT_EXPIRY (R342): the `fault_wait_frames` boundaries of the wait's beginning have passed (R354). -/
def faultWaitExpiry (p slot : Nat) (s : State) : State :=
  let m := s.migrateAt p
  match m.slots.get none slot with
  | none => s
  | some f =>
    if f.frames < f.limit then s
    else match s.xl.tiles.get none f.tile with
      | some t => s.endWait f.tile t
      | none => s.freeFaultSlot p slot

/-- FAULT_WAIT_EXPIRY. -/
def execFaultWaitExpiry (p slot : Nat) (s : State) : Host.Outcome State Fault Refusal := .next (s.live (faultWaitExpiry p slot))

/-! ### The swap of a TIER_MOVE (R351) -/

/-- The error state in which a walk finds a line, by its local address. -/
def eccAt (bad : List (Nat × EccEvent)) (a : Nat) : EccEvent := ((bad.find? fun e => e.1 == a).map Prod.snd).getD .clean

/-- Reads a line for a copy that Lendor makes: none where it fails its state, ECC or MAC. The traffic is maintenance, which an activity has had passed by its
buckets before it copies (`paid`). -/
def State.copyRead (s : State) (paid : Bool) (p range a tweak : Nat) (ecc : EccEvent) : State × Option LineData :=
  match s.gateStep (.lendor p 0 128) a ⟨range, tweak⟩ false with
  | some _ => (s, none)
  | none =>
    let o := s.laneRead range (a / 128) tweak ecc false
    (if paid then o.st else o.st.chargeMaint p a 128, if o.status = .ok then some o.data else none)

/-- Writes a line for a copy that Lendor makes; a source line that failed arrives POISONED (DEDUCED, notes/assumptions/26.md). -/
def State.copyWrite (s : State) (paid : Bool) (p range a tweak : Nat) (data : Option LineData) : State :=
  match s.gateStep (.lendor p 0 128) a ⟨range, tweak⟩ true with
  | some _ => s
  | none =>
    let t := if paid then s else s.chargeMaint p a 128
    match data with
    | some d => (t.snoopWrite (a / 128)).writeLine range (a / 128) d tweak
    | none => t.poisonLine (a / 128) .poisoned

/-- Copies the lines of a moving page: the state and the count of lines that failed. -/
def State.copyPage (s : State) (a : Activity) (from_ : Nat) (tier : Nat) (host : List LineData) (bad : List (Nat × EccEvent)) :
    State × Nat :=
  let g := s.segAt a.seg
  let tweak := segTweak a.part a.seg
  (List.range (g.pageSize / 128)).foldl (fun x i =>
    let (s, failed) := x
    let src := localAddr from_ + 128 * i
    let (s, data) := if tier = 0 then (s, some ((host[i]?).getD 0)) else s.copyRead true a.part (g.keyFor tier) src tweak (eccAt bad src)
    let s := if a.destTier = 0 then
        (s.dirtyHost a.part (s.segPasid a.part a.seg) (a.dest + 128 * i) 128).hostWrite (a.dest + 128 * i) (some (s.segPasid a.part a.seg)) 128 ((data.getD 0).toNat)
      else s.copyWrite true a.part (g.keyFor a.destTier) (localAddr a.dest + 128 * i) tweak data
    (s, failed + bit data.isNone)) (s, 0)

/-- The maintenance buckets have passed all that an activity moves (R215). -/
def Activity.paced (a : Activity) : Bool := a.left.all fun x => x.2 == 0

/-- TIER_MOVE_SWAP: the copy has ended; once no tile moves under the old translation the entry is swapped (R351). The segment's mapped bytes stay as
of its last SEG_SYNC (R167). -/
def tierMoveSwap (id : Nat) (host : List LineData) (bad : List (Nat × EccEvent)) (s : State) : State :=
  match s.actAt id with
  | none => s
  | some a =>
    if a.code ≠ 3 ∨ a.running = false ∨ a.complete ∨ a.paced = false ∨ s.log.run.isSome = true ∨ s.movingUnder (fun g n => g == a.seg && n == a.page) ≠ [] then s
    else match (s.tableWord a.part a.seg a.page .clean).2 with
      | none => s
      | some w =>
        let g := s.segAt a.seg
        let (t, failed) := s.copyPage a (entryPhys w) (entryTier w) host bad
        let src := (s.rangeAt (g.keyFor (entryTier w))).fixed
        let fixed := if entryTier w = 0 then 0 else ((t.rangeAt (g.keyFor (entryTier w))).fixed - src).toNat
        let phys := if a.destTier = 0 then a.dest else s.ownNode * 2 ^ 48 + localAddr a.dest
        let word := BitVec.ofNat 64 (phys / 65536 * 65536 + 2 * a.destTier + 1)
        let t := t.putWords a.part a.seg a.page [word]
        let t := t.hostWrite (g.host + 8 * a.page) (some (s.partAt a.part).record.hostPasid) 8 word.toNat
        let t := t.dropTlb fun e => e.seg == a.seg && e.page == a.page
        let t := t.modAct id fun a => { a with complete := true, lines := g.pageSize / 128, fixed := fixed, poisoned := failed }
        t.releaseMove id

/-- TIER_MOVE_SWAP. -/
def execTierMoveSwap (id : Nat) (host : List LineData) (bad : List (Nat × EccEvent)) (s : State) : Host.Outcome State Fault Refusal :=
  .next (s.live (tierMoveSwap id host bad))

end Sys2Proof.Machine
end

