-- ==== Sys2Proof/Machine/Gate.lean ====
section
/-! DEFINITION. The gate's commands: GATE_REQUEST, LINK_REQUEST, TAG_FILL, SHARED_POISON_REWRITE and RANGE_CLEARING_DONE
(12_memory_gate). -/

namespace Sys2Proof.Machine

/-! ### Who asks, and for what -/

/-- For whom a request counts: the partition, the class (R210) and the context (R548). -/
structure Charged where
  part : Nat
  cls  : Nat
  ctx  : Nat

/-- The tag of a requester at an engine: engine and tag. -/
def reqTag : Requester → Option (Nat × TileTag)
  | .row e i _ => some (e, .row i)
  | .batch e _ => some (e, .batch)
  | .work e => some (e, .work)
  | _ => none

/-- For whom a request counts; none: control traffic, or an engine that runs nothing of that kind. -/
def State.charged (s : State) (who : Requester) (a tweak : Nat) : Option Charged :=
  match who with
  | .row e i _ => (s.rowAt e i).map fun x => ⟨x.1.part, x.2.cls, x.2.ctx⟩
  | .batch e _ => match (s.engAt e).running with
    | some (.batch b) => some ⟨b.part, b.cls, 0⟩
    | _ => none
  | .work e => match (s.engAt e).running with
    | some (.work w) => some ⟨w.part, w.cls, w.ctx⟩
    | _ => none
  | .peer _ _ _ cls => (s.rangeOf a).map fun r => ⟨(s.rangeAt r).owner, cls, if tweakKind tweak = 0 then tweakId tweak else 0⟩
  | .lendor p cls _ => some ⟨p, cls, if tweakKind tweak = 0 then tweakId tweak else 0⟩
  | .control _ | .dma | .debug => none

/-- A request waits for its bucket (R216): it holds neither G nor T, and it has a ceiling. -/
def State.bucketEmpty (s : State) (c : Charged) (a : Nat) : Bool :=
  let b := s.bucketFor c.part a c.cls
  b.ceil != 0xFFFF && b.g == 0 && b.t == 0

/-- Maintenance waits for its bucket (R215). -/
def State.maintEmpty (s : State) (p a : Nat) : Bool :=
  let x := s.reg.field.get RegField.init (p * 4 + lineField a)
  (if bucketTier a = 0 then x.fastLeft else x.slowLeft) == 0

/-- The segment, page and context address of a line that a tile reaches. -/
def State.tileLine (s : State) (tile : Option Nat) (a : Nat) : Option (TileRun × Nat × Nat × Nat) :=
  match tile.bind fun i => s.xl.tiles.get none i with
  | none => none
  | some t =>
    let g := t.desc
    (t.pages.find? fun y => y.2.2 != 0 && decide (localAddr y.2.1 ≤ a ∧ a < localAddr y.2.1 + g.pageSize)).map fun y =>
      (t, y.1, y.2.2, g.base + y.1 * g.pageSize + (a - localAddr y.2.1))

/-! ### Tag lines (R366, R374) -/

/-- Fetches a tag line that is not cached: control traffic, with the loss of a line that fails uncorrectably (R203, R374); any
error of the control region is a control-domain error (R373). -/
def State.tagFetch (s : State) (a : Nat) (ecc : EccEvent) : State :=
  let l := a / 128
  if s.tagHeld l then s.tagUse l false
  else
    let t := s.tagUse l false
    if inControl a then (if ecc = .clean then t else t.needReset 1 0)
    else match s.rangeOf a with
      | some r => if ecc = .uncorrectable then t.loseTagLine r l else t
      | none => if inDump a ∧ ecc = .uncorrectable then (List.range 16).foldl (fun t i => t.poisonLine (l / 16 * 16 + i) .poisoned) t else t

/-! ### Shared poison (R375–R377) -/

/-- The base slot whose extent a local address backs: its group, slot and offset in the extent. -/
def State.baseLine (s : State) (p a : Nat) : Option (Nat × Nat × Nat) :=
  firstSome (fun (e : Nat × Group) => firstSome (fun n =>
    let b := e.2.slot n
    if b.st = .empty ∨ b.length = 0 then none
    else match s.findSeg p 0 b.fast with
      | none => none
      | some k =>
        let g := s.segAt k
        firstSome (fun i =>
          let page := (b.fast - g.base) / g.pageSize + i
          match (s.tableWord p k page .clean).2 with
          | some w =>
            let phys := localAddr (entryPhys w)
            let c := g.base + page * g.pageSize + (a - phys)
            if entryPresent w && entryTier w != 0 && decide (phys ≤ a ∧ a < phys + g.pageSize ∧ b.fast ≤ c ∧ c < b.fast + b.length) then
              some (e.1, n, c - b.fast) else none
          | none => none) (List.range ((b.fast + b.length - 1 - g.base) / g.pageSize - (b.fast - g.base) / g.pageSize + 1))) [0, 1])
    (s.groupsOf p)

/-- A read met a SHARED_POISONED line: on the first report of its block a rewrite is due (R367, R376). -/
def State.reportShared (s : State) (p a : Nat) : State :=
  match s.baseLine p a with
  | none => s
  | some (g, n, off) =>
    if s.mem.rewrites.any fun w => w.group == g && w.slot == n && w.block == off / 4096 then s
    else { s with mem := { s.mem with rewrites := s.mem.rewrites ++ [⟨p, g, n, off / 4096, a / 128 * 128⟩] } }

/-- The batch of an engine read a poisoned shared line (R375): every row completes STEP_RETRY. -/
def State.retryStep (s : State) (e : Nat) : State :=
  s.modEng e fun x => match x.running with
    | some (.batch b) => { x with running := some (.batch { b with shared := some ⟨.stepRetry, 0, 0⟩ }) }
    | _ => x

/-- The batch of an engine read a poisoned shared line of this chip (R375), which is reported. -/
def State.sharedPoison (s : State) (e p a : Nat) : State := (s.retryStep e).reportShared p a

/-! ### A request at its lane (R361, R367) -/

/-- Tells a requester that its request failed. -/
def State.gateFail (s : State) (who : Requester) (f : Fail) : State :=
  match reqTag who with
  | some (e, tag) => s.failTag e tag f
  | none => s

/-- A request that R361 refused at a step: nothing is charged (R226); debug and DMA masters are counted (R385), and so is a
parity failure (R239). -/
def State.gateRefuse (s : State) (who : Requester) (a step : Nat) : State :=
  if step = 2 then
    match s.rangeSpan a with
    | some r => s.modRange r fun x => { x with blocked := inc32 x.blocked }
    | none => { s with mem := { s.mem with blocked := inc32 s.mem.blocked } }
  else
    let bad := step == 6 && !parityHolds who
    let t := s.gateFail who ⟨.faultRange, if step ≤ 2 || bad then 0 else 2, 0⟩
    match bad, reqTag who with
    | true, some (e, _) => t.badTag e 2
    | _, _ => t

/-- A line of the control or dump region as it stands: what has been written to it last, or what a save wrote to its slot (R428). -/
def State.regionLine (s : State) (l : Nat) : Line :=
  if s.mem.line.any fun e => e.1 == l then s.lineAt l
  else match (slotOf l).bind (s.mem.saves.get none) with
    | some (n, key) => ⟨Config.savedLine n l, .valid, 0, 1, .sealed key (lineTweak l (tweakOf 3 0) 0 1), false⟩
    | none => Line.init

/-- Lendor's access to a line of the control or dump region (R361, R367, R373), with the status and a read's line: the keys are those of slots 4 and 5, or 6
and 7 (R455). The TAG_MISMATCH record of such a line names range 0xFF (DESIGN CHOICE, notes/assumptions/84.md). -/
def State.regionAccess (s : State) (a : Nat) (acc : Access) (ecc : EccEvent) : State × Status × LineData :=
  let l := a / 128
  let v := s.regionLine l
  let key := s.pairMat (if inControl a then 4 else 6)
  let t := (s.countControl a 128).tagUse l (match acc with
    | .read _ => false
    | .write _ _ _ => true)
  let bad := v.st == .valid && (ecc == .uncorrectable || (inControl a && ecc != .clean))
  let tweak := fun (n : Nat) => lineTweak l (tweakOf 3 0) 0 n
  let plain := v.opened key (tweak v.wcount)
  let fail := fun (t : State) => if inControl a then t.needReset 1 0 else t.poisonLine l .poisoned
  let count := if v.st = .valid then min (v.wcount + 1) 65535 else 1
  let put := fun (d : LineData) => t.putLine l ⟨d, .valid, 0, count, .sealed key (tweak count), false⟩
  match acc with
  | .read _ =>
    if bad then (fail t, .poisoned, 0)
    else match v.st with
      | .clear => (t, .ok, 0)
      | .valid => match plain with
        | some d => (t, .ok, d)
        | none => (t.logRec { kind := 0x0008, part := 0xFF, a := 0xFF, b := l * 128, c := tweakOf 3 0 }, .faultRange, 0)
      | _ => (t, .poisoned, 0)
  | .write d m _ =>
    if m = BitVec.allOnes 128 then (put d, .ok, 0)
    else if bad ∨ (v.st = .valid ∧ plain.isNone) then (fail t, .poisoned, 0)
    else if v.st = .poisoned ∨ v.st = .shared then (t, .poisoned, 0)
    else (put (mergeBytes (if v.st = .clear then 0 else plain.getD 0) d m), .ok, 0)

/-- The bytes that a request is charged (R214). -/
def accessBytes : Access → Nat
  | .read n => if n then 32 else 128
  | .write _ _ n => if n then 32 else 128

/-- A write. -/
def isWrite : Access → Bool
  | .read _ => false
  | .write _ _ _ => true

/-- A read whose poison is shared (R375): one with a batch tag, or with a row tag, here or at a peer chip, under a kind-1 tweak. -/
def sharesPoison (g : GateReq) : Bool :=
  match g.who with
  | .batch _ _ => true
  | .row _ _ _ | .peer _ _ _ _ => tweakKind g.sel.tweak == 1
  | _ => false

/-- The line's part of a request that R361 passed (R367–R375): the state, the status answered and a read's line. -/
def State.gateLine (s : State) (g : GateReq) (c : Charged) (a : Nat) : State × Status × LineData :=
  let l := a / 128
  let r := g.sel.range
  match g.acc with
  | .read _ =>
    let o := s.laneRead r l g.sel.tweak g.ecc (sharesPoison g)
    match o.shared, g.who with
    | true, .row e _ _ => (o.st.sharedPoison e c.part a, .poisoned, 0)
    | true, .batch e _ => (o.st.sharedPoison e c.part a, .poisoned, 0)
    | shared, _ =>
      let t := if shared then o.st.reportShared c.part a else o.st
      (if o.status = .ok then t else t.gateFail g.who ⟨o.status, o.reason, 0⟩, o.status, o.data)
  | .write d m _ =>
    let o := s.laneWrite r l g.sel.tweak d m g.ecc
    if o.status = .ok then (o.st, .ok, 0)
    else
      let t := (if o.shared then o.st.reportShared c.part a else o.st).gateFail g.who ⟨o.status, o.reason, 0⟩
      (if o.failed ∧ tweakKind g.sel.tweak = 0 then
        match g.who with
        | .lendor _ _ _ | .peer _ _ _ _ => t
        | _ => t.loseCtx (tweakId g.sel.tweak) 5 0 ((reqTag g.who).map Prod.fst |>.getD 0)
       else t, o.status, 0)

/-- A lane summarises an engine's write for the digest probes (R555). -/
def State.gateDigest (s : State) (g : GateReq) (c : Charged) (a : Nat) : State :=
  match g.acc, reqTag g.who, s.tileLine g.tile a with
  | .write d m _, some (_, tag), some (t, _, _, x) =>
    if tag = .batch then s else s.digestLine c.part c.ctx (s.tileSeq t.req) t.seg (x / 128 * 128) d m
  | _, _, _ => s

/-- A slow-tier line counts for its page (R350). -/
def State.gateHot (s : State) (g : GateReq) (c : Charged) (a : Nat) : State :=
  match s.tileLine g.tile a with
  | some (t, page, tier, _) => if tier = 1 then s.hotCount (lineField a) c.part t.seg page 1 1 else s
  | none => s

/-- The bytes that a read returns of its line: the line, or on the narrow path the 32 bytes that hold the address. -/
def readPart (acc : Access) (a : Nat) (d : LineData) : LineData :=
  match acc with
  | .read true => (d >>> (256 * (a % 128 / 32))).setWidth 256 |>.setWidth 1024
  | _ => d

/-- Maintenance traffic of Lendor's own (R211): what it asks for under the partition's kind-1 tweak. -/
def isMaint (g : GateReq) : Bool :=
  match g.who with
  | .lendor _ _ _ => tweakKind g.sel.tweak == 1
  | _ => false

/-- A request at the gate of this chip that its lane serves: the state, the status answered and a read's data. -/
def State.gate (s : State) (g : GateReq) : State × Status × LineData :=
  let a := localAddr g.addr
  match s.gateStep g.who a g.sel (isWrite g.acc) with
  | some n => (s.gateRefuse g.who a n, .faultRange, 0)
  | none =>
    if isControl g.who = true ∧ inRegionData a then
      let (t, st, d) := (s.tagFetch a g.tagEcc).regionAccess a g.acc g.ecc
      (t, st, readPart g.acc a d)
    else match s.charged g.who a g.sel.tweak with
      | none =>
        let (t, st, d) := ((s.countControl a 128).tagFetch a g.tagEcc).gateLine g ⟨0xFF, 0, 0⟩ a
        (t, st, readPart g.acc a d)
      | some c =>
        let n := accessBytes g.acc
        let t := s.tagFetch a g.tagEcc
        let t := if isMaint g then t.chargeMaint c.part a n
          else if tweakKind g.sel.tweak = 2 then t.countControl a n
          else (t.charge c.part a c.cls n g.waited).countBoth c.part c.ctx (tierIndex a) n
        let t := t.gateHot g c a
        match t.gateLine g c a with
        | (u, st, d) => (if st = .ok then u.gateDigest g c a else u, st, readPart g.acc a d)

/-- The last byte of a tile has moved. -/
def State.endTile (s : State) (g : GateReq) : State :=
  match g.tile with
  | some i => if g.last then s.dropTile i else s
  | none => s

/-- A lane returns what a read asked for: zeros where it was refused or failed. -/
def State.reply (s : State) (g : GateReq) (st : Status) (d : LineData) : State :=
  if isWrite g.acc then s else { s with out := { s.out with reads := s.out.reads ++ [⟨g.who, g.addr, st, d⟩] } }

/-! ### The queue of a lane (R216, R218, R200) -/

/-- The level at which a lane serves a request now (R216): 0 control traffic, 1 a bucket with G, 2 one with T or maintenance with its bucket; none: it stays
queued, for its bucket (R213, R215) or for its line (R403). A request that R361 refuses draws on no bucket, and R216 names no level for it: it is served at
level 0 (DESIGN CHOICE, notes/assumptions/99.md). -/
def State.laneLevel (s : State) (g : GateReq) : Option Nat :=
  let a := localAddr g.addr
  if s.lineBusy (a / 128) then none
  else if (s.gateStep g.who a g.sel (isWrite g.acc)).isSome then some 0
  else match s.charged g.who a g.sel.tweak with
    | none => some 0
    | some c =>
      let b := s.bucketFor c.part a c.cls
      if tweakKind g.sel.tweak = 2 then some 0
      else if isMaint g then (if s.maintEmpty c.part a then none else some 2)
      else if 0 < b.g then some 1
      else if b.ceil = 0xFFFF ∨ 0 < b.t then some 2
      else none

/-- The partition whose entry a request takes; none: control traffic. -/
def State.heldPart (s : State) (g : GateReq) : Option Nat :=
  if tweakKind g.sel.tweak = 2 then none else (s.charged g.who (localAddr g.addr) g.sel.tweak).map Charged.part

/-- The entries reserved for a partition at every lane of a field (R218). -/
def State.laneResv (s : State) (f p : Nat) : Nat :=
  if (s.rangesOf p).any fun e => lineField e.2.base == f then (s.reg.field.get RegField.init (p * 4 + f)).laneResv else 0

/-- The entries of a lane that are shared. -/
def State.lanePool (s : State) (f : Nat) : Nat := 512 - (parts.map (s.laneResv f)).sum

/-- The waiting requests that hold an entry of their lane, oldest first: a partition's reserve, then the shared entries, and 32 for control traffic (R218).
`mine` lists the partitions of the reserved entries taken. -/
def State.entered (s : State) (f : Nat) : List Nat → Nat → Nat → List Held → List Held
  | _, _, _, [] => []
  | mine, shared, ctl, h :: t =>
    match s.heldPart h.req with
    | none => if ctl < 32 then h :: s.entered f mine shared (ctl + 1) t else s.entered f mine shared ctl t
    | some p =>
      if mine.count p < s.laneResv f p then h :: s.entered f (p :: mine) shared ctl t
      else if shared < s.lanePool f then h :: s.entered f mine (shared + 1) ctl t
      else s.entered f mine shared ctl t

/-- The requests that wait at a lane. -/
def State.laneAt (s : State) (k : Nat) : List Held := s.mem.lanes.get [] k

/-- The place of a request that can be served (R216): by level; in it one that has waited 1,024 cc first; at level 2 by round robin over partitions; then by
deadline. Ties go by age. -/
def State.lanePlace (s : State) (k : Nat) (h : Held) : Option Int :=
  (s.laneLevel h.req).map fun n =>
    let aged := decide (h.tick + 512 ≤ s.beat.tick.toNat)
    let turn := if n = 2 then rrKey 64 (s.mem.laneLast.get 63 k) ((s.heldPart h.req).getD 0) else 0
    (n : Int) * 2 ^ 200 + (if aged then 0 else 2 ^ 190) + turn * 2 ^ 100 + (if h.dl = 0 then 2 ^ 70 else h.dl)

/-- The request that a lane serves next. -/
def State.laneNext (s : State) (k : Nat) : Option Held :=
  (argMin (fun (x : Held × Int) => x.2) ((s.entered (k / 18) [] 0 0 (s.laneAt k)).filterMap fun h => (s.lanePlace k h).map fun n => (h, n))).map Prod.fst

/-- A request leaves its lane's queue, and the round robin moves on. -/
def State.leaveLane (s : State) (k : Nat) (h : Held) : State :=
  { s with mem := { s.mem with
    lanes := s.mem.lanes.put [] k ((s.laneAt k).erase h)
    laneLast := if s.laneLevel h.req = some 2 then s.mem.laneLast.put 63 k ((s.heldPart h.req).getD 0) else s.mem.laneLast } }

/-- The cause of R515 that a refused or failed request has, as a peer's answer carries it: its chip loses the context. -/
def State.failReason (s : State) (g : GateReq) (st : Status) : Nat :=
  let a := localAddr g.addr
  if st = .ok then 0
  else match s.gateStep g.who a g.sel (isWrite g.acc) with
    | some n => if n ≤ 2 then 0 else 2
    | none =>
      let t := s.tagFetch a g.tagEcc
      match g.acc with
      | .read _ => (t.laneRead g.sel.range (a / 128) g.sel.tweak g.ecc (sharesPoison g)).reason
      | .write d m _ => (t.laneWrite g.sel.range (a / 128) g.sel.tweak d m g.ecc).reason

/-- A request is answered: to an engine's port, or over the link to a peer. -/
def State.answerWith (s : State) (g : GateReq) (st : Status) (d : LineData) : State :=
  match g.who with
  | .peer _ _ port _ => s.linkSend (.answer port st 0 d)
  | _ => (s.reply g st d).endTile g

/-- A lane serves a request and answers it. One that was held over a boundary has its wait counted where the frame of that wait closed (R224). -/
def State.answerGate (s : State) (h : Held) : State :=
  let g := { h.req with waited := h.req.waited && h.tick == s.beat.tick.toNat }
  let (t, st, d) := s.gate g
  match g.who with
  | .peer _ _ port _ =>
    let c := (s.charged g.who (localAddr g.addr) g.sel.tweak).getD ⟨0xFF, 0, 0⟩
    let n := if st = .faultRange then 0 else accessBytes g.acc
    let t := if isWrite g.acc && n != 0 then t.countLink c.part c.ctx port n false else t
    t.portSend port ⟨c.part, c.ctx, 0, if isWrite g.acc then 0 else n, h.dl, .answer port st (s.failReason g st) d⟩
  | _ => t.answerWith g st d

/-- A lane serves what it can. -/
def State.serveLane (s : State) (k : Nat) : Nat → State
  | 0 => s
  | n + 1 => match s.laneNext k with
    | none => s
    | some h => ((s.leaveLane k h).answerGate h).serveLane k n

/-- Every lane serves what it can. -/
def State.serveLanes (s : State) : State := s.mem.lanes.foldl (fun t e => t.serveLane e.1 e.2.length) s

/-- Takes waiting requests out of every lane. -/
def State.purgeLanes (s : State) (f : GateReq → Bool) : State :=
  { s with mem := { s.mem with lanes := s.mem.lanes.mapAll [] fun _ l => l.filter fun h => !f h.req } }

/-- The unit that holds a request's level-4 credit, with the credits that it has at a lane (R200). -/
def creditUnit : Requester → Option (Nat × Nat)
  | .row e _ _ | .batch e _ | .work e => some (e, 64)
  | .lendor _ _ u | .control u => some (128 + u, 32)
  | _ => none

/-- A requester has a level-4 credit left at a lane: those of its requests that hold no entry hold one each (R200, R218). -/
def State.creditLeft (s : State) (k : Nat) (who : Requester) : Bool :=
  match creditUnit who with
  | none => true
  | some (u, n) =>
    let mine := fun (l : List Held) => (l.filter fun h => (creditUnit h.req.who).map Prod.fst == some u).length
    decide (mine (s.laneAt k) - mine (s.entered (k / 18) [] 0 0 (s.laneAt k)) < n)

/-- A request that waits more than 512 cc at its lane while its bucket holds G (R224). -/
def State.noteWait (s : State) (g : GateReq) : State :=
  let a := localAddr g.addr
  match if g.waited && !isMaint g then s.charged g.who a g.sel.tweak else none with
  | some c =>
    let k := bucketKey c.part (lineField a) (bucketTier a) c.cls
    { s with reg := { s.reg with bucket := s.reg.bucket.upd Bucket.init k fun b => { b with waited := b.waited || decide (0 < b.g) } } }
  | none => s

/-- A request reaches its lane, which serves what it can. A line lies behind one lane for good (R29): the one that the first request for it named. -/
def State.enterLane (s : State) (g : GateReq) (dl : Nat) : State :=
  let line := localAddr g.addr / 128
  let lane := (s.mem.laneOf.get none line).getD g.lane
  let k := 18 * lineField (localAddr g.addr) + lane
  if s.creditLeft k g.who = false then s
  else
    let l := s.laneAt k ++ [⟨g, dl, s.beat.tick.toNat⟩]
    (({ s with mem := { s.mem with lanes := s.mem.lanes.put [] k l, laneOf := s.mem.laneOf.put none line (some lane) } } : State).noteWait g).serveLane k l.length

/-- The requests that wait at a lane for a line of a lost domain complete POISONED (R413, R420), those of peer chips and of agent 149 among them. -/
def State.poisonLanes (s : State) (d : Nat) : State :=
  let mine := fun (g : GateReq) => match s.rangeOf (localAddr g.addr) with
    | some r => (s.rangeAt r).st == .owned && (s.rangeAt r).owner == d
    | none => false
  (s.mem.lanes.flatMap fun e => e.2.filter fun h => mine h.req).foldl (fun t h => t.answerWith h.req .poisoned 0) (s.purgeLanes mine)

/-! ### GATE_REQUEST -/

/-- A gather travels on the narrow path (R248). -/
def narrowPath (t : TileAddr) : Access → Access
  | .read n => match t with
    | .gather _ => .read true
    | _ => .read n
  | a => a

/-- An engine's request as Lendor forms it: one of a tile that passed R339 and moves, at a line of its pages, under the selector of that page's entry
(R327, R338, R341); none: no byte of it moves. Other requests stand as they are. -/
def State.formed (s : State) (g : GateReq) : Option GateReq :=
  match reqTag g.who with
  | none => some g
  | some (e, tag) =>
    match s.tileLine g.tile (localAddr g.addr) with
    | some (t, _, tier, _) =>
      if t.st = .moving ∧ t.req.engine = e ∧ t.req.tag = tag ∧ t.req.write = isWrite g.acc then
        some { g with sel := ⟨t.desc.keyFor tier, segTweak t.part t.seg⟩, acc := narrowPath t.req.addr g.acc }
      else none
    | none => none

/-- A request under the tag with which its engine runs: an S3-compatible engine's batch has one row tag, whatever the request names (R241). -/
def State.oneTag (s : State) (g : GateReq) : GateReq :=
  match reqTag g.who with
  | none => g
  | some (e, tag) => { g with who := match s.runTag e tag with
      | .row i => .row e i (parityHolds g.who)
      | .batch => .batch e (parityHolds g.who)
      | .work => .work e }

/-- The deadline that an engine's request carries: that of its row or WORK (R223). -/
def State.reqDl (s : State) (who : Requester) : Nat :=
  match reqTag who with
  | some (e, tag) => (s.tileClass ⟨e, tag, .token, false⟩).2
  | none => 0

/-- GATE_REQUEST (R361): a row index at or above the rows of the engine's batch is refused and counted (R238). -/
def gateRequest (asked : GateReq) (s : State) : State :=
  let g := s.oneTag asked
  if addrNode g.addr ≠ s.ownNode then s
  else if (reqTag g.who).any fun x => s.pastRows x.1 x.2 then
    match reqTag g.who with
    | some (e, _) => (s.badTag e 1).reply g .faultRange 0
    | none => s
  else if (reqTag g.who).isSome ∧ (s.reqPart g.who).isNone then s
  else match s.formed g with
    | some x => s.enterLane x (s.reqDl g.who)
    | none => s

/-- GATE_REQUEST. -/
def execGateRequest (g : GateReq) (s : State) : Host.Outcome State Fault Refusal := .next (s.live (gateRequest g))

/-! ### Requests from peer chips (R221, R222) -/

/-- LINK_REQUEST (R222): the gate charges the owner in the carried class. A read's data leaves by the port and a write's data
comes in by it. A deadline from a chip that advertises `drift` counts as none. -/
def linkRequest (g : GateReq) (deadline : Nat) (drift : Bool) (s : State) : State :=
  match g.who with
  | .peer _ _ port _ =>
    let x := s.net.ports.get Port.init port
    if x.up = false ∨ addrNode g.addr ≠ s.ownNode then s
    else s.enterLane g (if drift || x.drift then 0 else s.readDl deadline)
  | _ => s

/-- LINK_REQUEST. -/
def execLinkRequest (g : GateReq) (deadline : Nat) (drift : Bool) (s : State) : Host.Outcome State Fault Refusal :=
  .next (s.live (linkRequest g deadline drift))

/-! ### Tag fills, rewrites and clearing -/

/-- TAG_FILL (R366, R374). -/
def execTagFill (a : Nat) (ecc : EccEvent) (s : State) : Host.Outcome State Fault Refusal :=
  .next (s.live fun s => if (s.rangeOf a).isSome || inRegionData a then s.tagFetch a ecc else s)

/-- Where a context-0 address of a partition lies in its local memory: tier and local address. -/
def State.zeroPlace (s : State) (p a : Nat) : Option (Nat × Nat × Nat) :=
  match s.place p 0 a false with
  | (_, some x) => if x.tier = 0 then none else some (x.tier, localAddr x.phys, (s.segAt x.seg).keyFor x.tier)
  | (_, none) => none

/-- Reads the copy lines of a block (R376): none where one fails its tag or ECC, is CLEAR or is not in the slow tier. -/
def State.copyLines (s : State) (p base : Nat) (ecc : EccEvent) : List Nat → State × Option (List LineData)
  | [] => (s, some [])
  | i :: rest =>
    match s.zeroPlace p (base + 128 * i) with
    | none => (s, none)
    | some (tier, a, key) =>
      if tier ≠ 1 ∨ (s.lineAt (a / 128)).st = .clear then (s, none)
      else match s.copyRead false p key a (tweakOf 1 p) (if i = 0 then ecc else .clean) with
        | (t, none) => (t, none)
        | (t, some d) => match t.copyLines p base ecc rest with
          | (t, some l) => (t, some (d :: l))
          | (t, none) => (t, none)

/-- Loses every member context of a group (R377, R515). -/
def State.loseMembers (s : State) (g : Nat) : State :=
  ((s.groupAt g).members.map Prod.fst).foldl (fun t c => t.loseCtx c 7 0 g) s

/-- SHARED_POISON_REWRITE (R376, R377). The 4 KiB block is rewritten whole from its copy, or not at all. -/
def sharedPoisonRewrite (g n block : Nat) (ecc : EccEvent) (s : State) : State :=
  match s.mem.rewrites.find? fun w => w.group == g && w.slot == n && w.block == block with
  | none => s
  | some w =>
    let sl := (s.groupAt g).slot n
    let s := { s with mem := { s.mem with rewrites := s.mem.rewrites.filter fun x => x != w } }
    match s.copyLines w.part (sl.copy + 4096 * block) ecc (List.range 32) with
    | (t, some ls) =>
      let t := (ls.zipIdx).foldl (fun t (x : LineData × Nat) =>
        match t.zeroPlace w.part (sl.fast + 4096 * block + 128 * x.2) with
        | some (_, a, key) => t.copyWrite false w.part key a (tweakOf 1 w.part) (some x.1)
        | none => t) t
      (t.logRec { kind := 0x0009, part := w.part, a := g, b := w.addr, c := 0 }).partEvent w.part
    | (t, none) =>
      if sl.st = .active then
        ((t.degrade w.part g n).loseMembers g).logRec { kind := 0x0009, part := w.part, a := g, b := w.addr, c := 1 }
      else t

/-- SHARED_POISON_REWRITE. -/
def execSharedPoisonRewrite (g n block : Nat) (ecc : EccEvent) (s : State) : Host.Outcome State Fault Refusal :=
  .next (s.live (sharedPoisonRewrite g n block ecc))

/-- Two data extents, each with its tag extent behind it, share an address. -/
def extentsMeet (x y : Nat × Nat) : Bool := decide (x.1 < y.1 + y.2 + y.2 / 16 ∧ y.1 < x.1 + x.2 + x.2 / 16)

/-- Clears an extent (R384): every tag word reads CLEAR, also in the tag extent, and the stored bytes of the data lines stay. -/
def State.clearLines (s : State) (base len : Nat) : State :=
  { s with mem := { s.mem with
    extents := (base, len) :: s.mem.extents.filter fun x => !extentsMeet (base, len) x
    line := s.mem.line.mapAll Line.init fun l v =>
      if base ≤ l * 128 ∧ l * 128 < base + len then { v with st := .clear, gen := 0, wcount := 0, lost := false }
      else if base + len ≤ l * 128 ∧ l * 128 < base + len + len / 16 then Line.init else v } }

/-- Every tag word of a CLEARING range reads CLEAR: the range becomes FREE (R359). The tag writes are control traffic (R384). -/
def rangeClearingDone (r : Nat) (s : State) : State :=
  let x := s.rangeAt r
  if x.st ≠ .clearing then s
  else ((s.clearLines x.base x.len).countControl x.base (x.len / 16)).modRange r fun x => { x with st := .free, owner := 0xFF, released := none }

/-- RANGE_CLEARING_DONE. -/
def execRangeClearingDone (r : Nat) (s : State) : Host.Outcome State Fault Refusal := .next (s.live (rangeClearingDone r))

end Sys2Proof.Machine
end

