-- ==== Sys2Proof/Machine/MaintOps.lean ====
section
/-! DEFINITION. Maintenance activities: the conflict matrix (R380, R381), the mapping that holds a line, and the walks of SKIM
(R372), TAG_REBUILD (R374) and PATROL (R378). -/

namespace Sys2Proof.Machine

/-! ### Conflicts (R380, R381) -/

/-- Two activities conflict where they share a range (R380). -/
def Activity.conflicts (a b : Activity) : Bool :=
  a.ranges.any (fun r => b.ranges.contains r) &&
  match a.code, b.code with
  | 1, _ | _, 1 => true
  | 2, 2 | 2, 5 | 5, 2 | 5, 5 => true
  | 3, 3 => (a.seg == b.seg && a.page == b.page) || a.dest == b.dest
  | _, _ => false

/-- A request conflicts with an activity that runs or waits (R381). -/
def State.clashes (s : State) (a : Activity) : Bool := s.mem.acts.any fun b => a.conflicts b

/-- A passing request of a mailbox enters the activities: it waits for its slot, or parks with DEFERRED when it conflicts
(R381). -/
def State.startActivity (before after : State) (c : Cmd) (a : Activity) (len : Nat) : State :=
  if c.space < len then before.respond c.ref .ok 0 len 0 none
  else
    let park := before.clashes a
    let t := after.addAct { a with ref := some c.ref, parked := park }
    if park then t.respond c.ref .deferred 0 0 0 none else t

/-- Removes an activity. -/
def State.dropAct (s : State) (id : Nat) : State := { s with mem := { s.mem with acts := s.mem.acts.filter fun a => a.id != id } }

/-! ### The mapping that holds a line (R372) -/

/-- The segments of a partition in the order of R372: the context-0 set first, then by context and segment. -/
def State.walkOrder (s : State) (p : Nat) : List (Nat × Seg) :=
  let mine := s.xl.seg.filter fun e => e.2.valid && s.keyOf p e.1
  (mine.filter fun e => decide (2 ^ 20 ≤ e.1)) ++ mine.filter fun e => decide (e.1 < 2 ^ 20)

/-- The present page of a segment of this chip that lies at a local address. -/
def State.segPage (s : State) (p k : Nat) (g : Seg) (a : Nat) : Option Nat :=
  (if g.node = s.ownNode then List.range g.pages else []).find? fun i =>
    match (s.tableWord p k i .clean).2 with
    | some w => entryPresent w && entryTier w != 0 &&
        decide (localAddr (entryPhys w) ≤ a ∧ a < localAddr (entryPhys w) + g.pageSize)
    | none => false

/-- A segment maps a local address: a present page of it lies there. -/
def State.segMaps (s : State) (p k : Nat) (g : Seg) (a : Nat) : Bool := (s.segPage p k g a).isSome

/-- The tweak of the mapping that holds a line of a partition's range; the device copies come last. -/
def State.mapTweak (s : State) (p a : Nat) : Option Nat :=
  match (s.walkOrder p).find? fun e => s.segMaps p e.1 e.2 a with
  | some e => some (segTweak p e.1)
  | none =>
    if (s.walkOrder p).any fun e => decide (localAddr e.2.table ≤ a ∧ a < localAddr e.2.table + 8 * e.2.pages) then
      some (tweakOf 2 p)
    else none

/-! ### Walks -/

/-- The listed lines of a range: line numbers. -/
def State.linesIn (s : State) (r : Nat) : List Nat :=
  (s.mem.line.map Prod.fst).filter fun l => decide ((s.rangeAt r).base ≤ l * 128 ∧ l * 128 < (s.rangeAt r).base + (s.rangeAt r).len)

/-- A stored line is found bad when its bytes are consumed (R373). -/
def Range.bad (x : Range) (e : EccEvent) : Bool := e == .uncorrectable || (e == .correctable && x.act)

/-- SKIM takes one line that is still at generation g to the next (R372). A line that it
sets POISONED or CLEAR is logged (R506). -/
def State.skimLine (s : State) (a : Activity) (r g : Nat) (bad : List (Nat × EccEvent)) (l : Nat) : State :=
  let s := s.snoopRead l
  let v := s.lineAt l
  let x := s.rangeAt r
  let next := (g + 1) % 4
  if v.gen ≠ g ∨ v.st = .clear then s
  else
    let s := s.modAct a.id fun a => { a with lines := a.lines + 1 }
    if v.st = .poisoned ∨ v.st = .shared then (s.tagUse l true).putLine l { v with gen := next }
    else match s.mapTweak a.part (l * 128) with
      | none => (((s.tagUse l true).putLine l { v with st := .clear, gen := 0, wcount := 0 }).dirtyMark r (l * 128)).modAct a.id fun a => { a with cleared := a.cleared + 1 }
      | some t =>
        let e := eccAt bad (l * 128)
        if x.bad e ∨ (s.opened r l v t).isNone then
          (((s.tagUse l true).putLine l
            { v with st := if tweakKind t = 1 ∧ x.bad e then .shared else .poisoned, gen := next }).dirtyMark r (l * 128)).modAct a.id fun a => { a with poisoned := a.poisoned + 1 }
        else
          let s := if e = .correctable then (s.modRange r fun x => { x with fixed := inc32 x.fixed }).modAct a.id fun a => { a with
              fixed := a.fixed + 1 } else s
          (s.tagUse l true).putLine l { v with
            data := (s.opened r l v t).getD 0, gen := next, wcount := 0, kept := .sealed ((s.genKey r next).getD 0) (lineTweak l t next 0) }

/-- SKIM's walk and its end (R372): the range moves to the next generation and the new slot pair. -/
def State.skim (s : State) (a : Activity) (bad : List (Nat × EccEvent)) : State :=
  match a.ranges with
  | [] => s
  | r :: _ =>
    let g := (s.rangeAt r).keyGen
    let t := (s.linesIn r).foldl (fun t l => t.skimLine a r g bad l) s
    t.modRange r fun x => { x with keyGen := (g + 1) % 4, keySlot := a.skimSlot, skimSlot := 0xFFFF, raised := false }

/-- The bytes that a rebuilt tag word gives a line (R364, R374): the stored ones unscrambled under the keys and the T of the new word. -/
def State.rebuiltData (s : State) (v : Line) (key tweak : Nat) : State × LineData :=
  if v.kept = .sealed key tweak then (s, v.data)
  else match v.bytes with
    | some b => (s, scramble false key tweak b)
    | none => ({ s with free := s.free + 1 }, scramble false key tweak (Config.dramBytes s.free))

/-- TAG_REBUILD takes one line that is POISONED from the loss of its tag line and not written since (R374). A correctable error is corrected (R373). -/
def State.rebuildLine (s : State) (a : Activity) (r : Nat) (bad : List (Nat × EccEvent)) (l : Nat) : State :=
  let s := if (s.lineAt l).lost then s.snoopRead l else s
  let v := s.lineAt l
  let x := s.rangeAt r
  if v.st ≠ .poisoned ∨ v.lost = false ∨ x.holds (l * 128) = false then s
  else
    let s := s.modAct a.id fun a => { a with lines := a.lines + 1 }
    match s.mapTweak a.part (l * 128) with
    | none => s
    | some t =>
      let e := eccAt bad (l * 128)
      if x.bad e then s
      else
        let s := if e = .correctable then (s.modRange r fun x => { x with fixed := inc32 x.fixed }).modAct a.id fun a => { a with
            fixed := a.fixed + 1 } else s
        let key := (s.genKey r x.keyGen).getD 0
        let tweak := lineTweak l t x.keyGen 65535
        let (s, d) := s.rebuiltData v key tweak
        (s.tagUse l true).putLine l ⟨d, .valid, x.keyGen, 65535, .sealed key tweak, false⟩

/-- The lines that TAG_REBUILD takes (R374): those of the listed tag lines, or after an overflow the whole range. -/
def State.rebuildLines (s : State) (r : Nat) : List Nat :=
  let x := s.rangeAt r
  if x.overflow then s.linesIn r else x.lost.flatMap fun l => (List.range 16).map fun i => l + i

/-- TAG_REBUILD's walk (R374): the listed tag lines, or after an overflow the whole range; then SKIM is queued. -/
def State.rebuild (s : State) (a : Activity) (bad : List (Nat × EccEvent)) : State :=
  match a.ranges with
  | [] => s
  | r :: _ =>
    let t := (s.rebuildLines r).foldl (fun t l => t.rebuildLine a r bad l) s
    let t := t.modRange r fun x => { x with lost := [], overflow := false }
    if t.frozenLines r = 0 then t else t.raiseSkim r

/-- PATROL finds the error of one line, or of a tag line by its address (R373, R378): it reads every data line, whatever its state. -/
def State.patrolLine (s : State) (a : Activity) (r : Nat) (e : Nat × EccEvent) : State :=
  let x := s.rangeAt r
  if x.base + x.len ≤ e.1 then
    if x.spans e.1 = false then s
    else match e.2 with
      | .uncorrectable =>
        let first := x.base / 128 + (e.1 - (x.base + x.len)) / 128 * 16
        let fresh := ((List.range 16).filter fun i => (s.lineAt (first + i)).st != .poisoned && (s.lineAt (first + i)).st != .shared).length
        (s.loseTagLine r first).modAct a.id fun a => { a with poisoned := a.poisoned + fresh }
      | .correctable => s.chargeMaint a.part e.1 128
      | .clean => s
  else if x.holds e.1 = false ∨ e.2 = .clean then s
  else if x.bad e.2 then
    let st := (s.lineAt (e.1 / 128)).st
    if st = .poisoned ∨ st = .shared then s
    else (s.poisonLine (e.1 / 128) .poisoned).modAct a.id fun a => { a with poisoned := a.poisoned + 1 }
  else ((s.modRange r fun x => { x with fixed := inc32 x.fixed }).chargeMaint a.part e.1 128).modAct a.id fun a => { a with
    fixed := a.fixed + 1 }

/-- PATROL's walk of each data line and each tag line; owned lines are read from their owners (R410). -/
def State.patrol (s : State) (a : Activity) (bad : List (Nat × EccEvent)) : State :=
  match a.ranges with
  | [] => s
  | r :: _ =>
    let x := s.rangeAt r
    let owned := (s.coh.copy.map Prod.fst).filter fun l => x.holds (l * 128)
    let t := bad.foldl (fun t e => t.patrolLine a r e) (owned.foldl State.snoopRead s)
    t.modAct a.id fun a => { a with lines := x.len / 128 }

/-! ### The pace of the maintenance buckets (R215, R383) -/

/-- What an activity moves through maintenance buckets: 256 B for each line that SKIM or TAG_REBUILD takes, 128 B for each data and tag line that PATROL
reads, and the lines that TIER_MOVE and BASE_LOAD read and write in a memory tier. -/
def State.moveCost (s : State) (a : Activity) : List (Nat × Nat) :=
  let r := a.ranges.headD 0
  let x := s.rangeAt r
  match a.code with
  | 1 => [(x.base, 256 * ((s.rebuildLines r).filter fun l => (s.lineAt l).lost).length)]
  | 2 => [(x.base, 256 * ((s.linesIn r).filter fun l => (s.lineAt l).gen == x.keyGen && (s.lineAt l).st == .valid).length)]
  | 3 =>
    let size := (s.segAt a.seg).pageSize
    (match (s.tableWord a.part a.seg a.page .clean).2 with
      | some w => if entryTier w = 0 then [] else [(localAddr (entryPhys w), size)]
      | none => []) ++ if a.destTier = 0 then [] else [(localAddr a.dest, size)]
  | 4 => a.ranges.map fun r => ((s.rangeAt r).base, ((s.groupAt a.group).slot a.slot).length)
  | _ => [(x.base, x.len + x.len / 16)]

/-- What is left in the maintenance bucket that meters an address. -/
def State.maintLeft (s : State) (p a : Nat) : Nat :=
  let x := s.reg.field.get RegField.init (p * 4 + lineField a)
  if bucketTier a = 0 then x.fastLeft else x.slowLeft

/-- A running activity moves what its buckets pass, each to one part in `n` of what it holds. -/
def State.paceAct (s : State) (n id : Nat) : State :=
  match s.actAt id with
  | none => s
  | some a => a.left.zipIdx.foldl (fun s (x : (Nat × Nat) × Nat) =>
      let m := min x.1.2 (s.maintLeft a.part x.1.1 / n)
      if m = 0 then s
      else (s.chargeMaint a.part x.1.1 m).modAct id fun a => { a with moved := a.moved + m, left := a.left.set x.2 (x.1.1, x.1.2 - m) }) s

/-- The running activities at a frame boundary: those of one partition share a bucket evenly, and take in turn what the others leave of it (R383). While DUMP
runs they pause (R382). -/
def State.paceActs (s : State) : State :=
  if s.log.run.isSome then s
  else
    let run := s.mem.acts.filter fun a => a.running && !a.paced
    let t := run.foldl (fun t a => t.paceAct (run.filter fun b => b.part == a.part).length a.id) s
    run.foldl (fun t a => t.paceAct 1 a.id) t

/-- The lines that a running activity has done, by the bytes that it has moved (R389). -/
def Activity.progress (a : Activity) : Nat := if a.code = 5 then a.moved / 136 else a.moved / 256

end Sys2Proof.Machine
end

