-- ==== Sys2Proof/Machine/Batch.lean ====
section
/-! DEFINITION. The co-batch family: CBG_SET, BASE_LOAD with its end, BASE_SWAP and its swap point (08_mixed_tenant_batching). -/

namespace Sys2Proof.Machine

/-! ### Effect boundaries (R108) -/

/-- The frame number of the first boundary at least 1,024 bt from now. -/
def State.earliest (s : State) : Nat := ceilDiv (s.beat.tick.toNat + 1024) 8192

/-- The frame of the boundary that `at_frame` names; none: it does not meet R108. -/
def State.effectFrame (s : State) (at_ : Nat) : Option Nat :=
  if at_ = 0 then some s.earliest
  else
    let ahead := (at_ + 2 ^ 32 - s.earliest % 2 ^ 32) % 2 ^ 32
    if ahead ≤ 1024 then some (s.earliest + ahead) else none

/-! ### CBG_SET (R260–R263) -/

/-- The reserved fields of a CBG_SET entry by kind. -/
def cbgReserved (kind : Nat) : List (Nat × Nat × Nat) :=
  [(1, 0, 8), (3, 2, 6)] ++
  match kind with
  | 0 => [(5, 5, 3), (6, 7, 1), (7, 0, 8), (8, 0, 192)]
  | 1 => [(20, 4, 4), (21, 0, 24), (28, 0, 32)]
  | 2 => [(4, 0, 224)]
  | 3 => [(8, 0, 192)]
  | _ => []

/-- The checks of CBG_SET, in order. -/
def cbgSetChecks (c : Cmd) : List (Bool × Status × Nat) :=
  let kind := c.f 0 0 8
  let run := kind == 1 || kind == 3
  let first := c.f 4 0 16
  let n := c.f 6 0 16
  let len := c.f 16 0 32
  [
    (c.zeros (cbgReserved kind), .rejectedInconsistent, 0x0005),
    (decide (kind ≤ 3), .rejectedInconsistent, 0x0600),
    (kind != 0 || decide (1 ≤ c.f 4 0 13 ∧ c.f 4 0 13 ≤ 4096 ∧ c.f 6 0 4 ≤ 7), .rejectedInconsistent, 0x0601),
    (!run || decide (1 ≤ n ∧ first + n ≤ 65536 ∧ 1 ≤ first), .rejectedInconsistent, 0x0602),
    (kind != 1 || decide (c.f 8 0 64 % 128 = 0 ∧ c.f 8 0 64 + len ≤ 2 ^ 48 ∧ len % 32 = 0 ∧ len ≤ 67108864 ∧ (len = 0 ↔ c.f 20 0 4 = 0)),
      .rejectedInconsistent, 0x0603)]

/-- CBG_SET at staging. -/
def runCbgSet (c : Cmd) (s : State) : State :=
  let kind := c.f 0 0 8
  let run := kind == 1 || kind == 3
  let first := c.f 4 0 16
  s.checked c (cbgSetChecks c) fun s =>
    s.stage c [(kind + 4 * c.f 2 0 10 + (if run then 4096 * first else 0), c.pay)]

/-- CBG_SET. -/
def execCbgSet (k : Take) (s : State) : Host.Outcome State Fault Refusal := .next (s.live (hawk 0x0601 anyCmd k runCbgSet))

/-- The swap of a group ends without its swap point: its slot or its group is gone. It completes as its own check would
answer then (DEDUCED, notes/assumptions/28.md). -/
def State.failSwap (s : State) (g : Nat) (st : Status) (d : Nat) : State :=
  match (s.groupAt g).swap with
  | some w => (s.modGroup g fun x => { x with swap := none }).finish w.ref st d 0 0
  | none => s

/-- Applies a CBG_SET entry (R261, R264). -/
def State.applyCbg (s : State) (p d : Nat) : State :=
  let g := fld d 2 0 10
  let run := (List.range (fld d 6 0 16)).map fun i => fld d 4 0 16 + i
  match fld d 0 0 8 with
  | 0 => s.modGroup g fun x =>
    let x := if x.owner.isNone then { Group.init with owner := some p } else x
    { x with limit := fld d 4 0 13, maxRank := fld d 6 0 4, fmt := fld d 6 4 3 }
  | 1 =>
    let m : Member := ⟨fld d 8 0 64, fld d 16 0 32, fld d 20 0 4, BitVec.ofNat 32 (fld d 24 0 32)⟩
    s.modGroup g fun x => { x with members := run.foldl (fun t c => t.put none c (some m)) x.members }
  | 2 => (s.modGroup g fun _ => Group.init).orphanSteps fun x => x == g
  | _ => s.modGroup g fun x => { x with members := run.foldl (fun t c => t.drop c) x.members }

/-! ### BASE_LOAD (R251, R254, R255) -/

/-- The context-0 segment that holds an extent whole, when its home tier is the given one. -/
def State.extentSeg (s : State) (p a len tier : Nat) : Option Nat :=
  match s.findSeg p 0 a with
  | some k => if (s.segAt k).holds (a + len - 1) && (s.segAt k).homeTier == tier then some k else none
  | none => none

/-- Two extents share a byte. -/
def overlap (a n b m : Nat) : Bool := decide (a < b + m ∧ b < a + n)

/-- The checks of BASE_LOAD, in order. -/
def baseLoadChecks (c : Cmd) (s : State) : List (Bool × Status × Nat) :=
  let g := c.f 0 0 10
  let n := c.f 2 0 1
  let fast := c.f 8 0 64
  let copy := c.f 16 0 64
  let len := c.f 24 0 64
  let sl := (s.groupAt g).slot n
  let other := (s.groupAt g).slot (1 - n)
  let fs := s.extentSeg c.part fast len 2
  let cs := s.extentSeg c.part copy len 1
  [
    (c.zeros [(1, 2, 6), (2, 1, 15), (32, 0, 64)], .rejectedInconsistent, 0x0005),
    ((s.groupAt g).owner == some c.part, .notPermitted, 0x0610),
    (sl.st == .empty || sl.st == .standby || sl.st == .degraded, .rejectedInconsistent, 0x0611),
    (c.f 4 0 32 != 0 && len % 2097152 == 0 && decide (1 ≤ len ∧ len ≤ 2 ^ 38) && fast % 2097152 == 0 && copy % 2097152 == 0,
      .rejectedInconsistent, 0x0612),
    (fs.isSome && cs.isSome, .rejectedInconsistent, 0x0613),
    (other.st == .empty || !([fast, copy].any fun a => [other.fast, other.copy].any fun b => overlap a len b other.length),
      .rejectedInconsistent, 0x0617)]

/-- BASE_LOAD. -/
def runBaseLoad (c : Cmd) (s : State) : State :=
  let g := c.f 0 0 10
  let n := c.f 2 0 1
  let fast := c.f 8 0 64
  let copy := c.f 16 0 64
  let len := c.f 24 0 64
  let fs := s.extentSeg c.part fast len 2
  let cs := s.extentSeg c.part copy len 1
  s.checked c (baseLoadChecks c s) fun s =>
    let ranges := (fs.toList.map fun k => (s.segAt k).keyFast) ++ cs.toList.map fun k => (s.segAt k).keySlow
    let t := s.modGroup g fun x => x.modSlot n fun _ =>
      { BaseSlot.init with st := .loading, baseId := BitVec.ofNat 32 (c.f 4 0 32), fast := fast, copy := copy, length := len, ref := some c.ref }
    s.startActivity t c { Activity.new 4 ranges c.part with group := g, slot := n } 24

/-- BASE_LOAD. -/
def execBaseLoad (k : Take) (s : State) : Host.Outcome State Fault Refusal := .next (s.live (hawk 0x0602 anyCmd k runBaseLoad))

/-- The first context-0 address of the page that holds an address. -/
def State.pageStart (s : State) (p a : Nat) : Nat :=
  match s.findSeg p 0 a with
  | some k => (s.segAt k).base + (a - (s.segAt k).base) / (s.segAt k).pageSize * (s.segAt k).pageSize
  | none => a

/-- Copies the lines of a load in order (R255): the state, the lines copied, and what ended the load before its end. -/
def State.loadLines (s : State) (p : Nat) (sl : BaseSlot) (bad : List (Nat × EccEvent)) (done : Nat) :
    List Nat → State × Nat × Option (Status × Nat)
  | [] => (s, done, none)
  | i :: rest =>
    let src := sl.copy + 128 * i
    let dst := sl.fast + 128 * i
    match s.zeroPlace p src, s.zeroPlace p dst with
    | some (1, a, key), some (2, b, key') =>
      if (s.lineAt (a / 128)).st = .clear then (s, done, some (.poisoned, src))
      else match s.copyRead true p key a (tweakOf 1 p) (eccAt bad a) with
        | (t, none) => (t, done, some (.poisoned, src))
        | (t, some d) => (t.copyWrite true p key' b (tweakOf 1 p) (some d)).loadLines p sl bad (done + 1) rest
    | some (1, _, _), _ => (s, done, some (.faultTranslation, s.pageStart p dst))
    | _, _ => (s, done, some (.faultTranslation, s.pageStart p src))

/-- BASE_LOAD_END: the load has copied its last line, or ended early, at the pace of its maintenance buckets (R215); its end follows at a maintenance slot
(R251, R379). -/
def baseLoadEnd (g n : Nat) (bad : List (Nat × EccEvent)) (s : State) : State :=
  match s.mem.acts.find? fun a => a.code == 4 && a.group == g && a.slot == n && a.running && !a.complete with
  | none => s
  | some a =>
    if s.log.run.isSome then s
    else
      let sl := (s.groupAt g).slot n
      let (t, lines, fail) := s.loadLines a.part sl bad 0 (List.range (sl.length / 128))
      let f := fail.getD (.ok, 0)
      if a.paced = false ∧ (fail = none ∨ a.moved < 256 * lines) then s
      else t.modAct a.id fun a => { a with complete := true, lines := lines, fixed := statusCode f.1, dest := f.2 }

/-- BASE_LOAD_END. -/
def execBaseLoadEnd (g n : Nat) (bad : List (Nat × EccEvent)) (s : State) : Host.Outcome State Fault Refusal :=
  .next (s.live (baseLoadEnd g n bad))

/-- The code of a base slot's state (BASE_LOAD). -/
def baseCode : BaseSt → Nat
  | .empty => 0
  | .loading => 1
  | .standby => 2
  | .active => 3
  | .retiring => 4
  | .degraded => 5

/-- A load ends at a maintenance slot (R251): STANDBY, or EMPTY with the status that ended it. -/
def State.endLoad (s : State) (a : Activity) : State :=
  let ok := a.fixed == 0
  let t := s.modGroup a.group fun x => x.modSlot a.slot fun b => if ok then { b with st := .standby, ref := none } else BaseSlot.init
  let st := if a.fixed = 0 then Status.ok else if a.fixed = statusCode .poisoned then .poisoned else .faultTranslation
  t.finishOpt a.ref st 0 24 (pack [(3, if ok then 2 else 0), (29, 0), (32, a.start.toNat), (64, a.lines), (64, a.dest)])

/-! ### BASE_SWAP (R256–R259) -/

/-- The checks of BASE_SWAP, in order. -/
def baseSwapChecks (c : Cmd) (s : State) : List (Bool × Status × Nat) :=
  let g := c.f 0 0 10
  let n := c.f 2 0 1
  let x := s.groupAt g
  let at_ := s.effectFrame (c.f 4 0 32)
  [
    (c.zeros [(1, 2, 6), (2, 1, 15)], .rejectedInconsistent, 0x0005),
    (x.owner == some c.part, .notPermitted, 0x0610),
    ((x.slot n).st == .standby, .rejectedInconsistent, 0x0614),
    (x.swap.isNone && x.slot0.st != .retiring && x.slot1.st != .retiring, .rejectedInconsistent, 0x0615),
    (at_.isSome, .rejectedInconsistent, 0x0616)]

/-- BASE_SWAP. -/
def runBaseSwap (c : Cmd) (s : State) : State :=
  let g := c.f 0 0 10
  let n := c.f 2 0 1
  let at_ := s.effectFrame (c.f 4 0 32)
  s.checked c (baseSwapChecks c s) fun s =>
    s.background (s.modGroup g fun x => { x with swap := some ⟨c.ref, n, at_.getD 0, false, 0, 0, 0, 0, 0⟩ }) c 16

/-- BASE_SWAP. -/
def execBaseSwap (k : Take) (s : State) : Host.Outcome State Fault Refusal := .next (s.live (hawk 0x0603 anyCmd k runBaseSwap))

/-- What the other slot becomes at a swap point (R251). -/
def retired : BaseSt → BaseSt
  | .active => .retiring
  | .degraded => .empty
  | st => st

/-- Open batches of a group's slot that hold no row go away: no batch opens on a slot that retires (R251). -/
def State.dropEmptyBatches (s : State) (g n : Nat) : State :=
  { s with eng := s.eng.mapAll Engine.init fun _ e => match e.open_ with
    | some b => if b.group = g ∧ b.slot = n ∧ b.rows = [] then { e with open_ := none } else e
    | none => e }

/-- The swap point of a group's BASE_SWAP (R257). -/
def State.swapPoint (s : State) (g : Nat) : State :=
  match (s.groupAt g).swap with
  | none => s
  | some w =>
    let x := s.groupAt g
    let old := 1 - w.toSlot
    if (x.slot w.toSlot).st ≠ .standby then s.failSwap g .rejectedInconsistent 0x0614
    else
      let was := (x.slot old).st
      let t := s.dropEmptyBatches g old
      let batches := t.slotBatches g old
      let t := t.modGroup g fun x =>
        let x := x.modSlot w.toSlot fun b => { b with st := .active }
        let x := x.modSlot old fun b => if was = .degraded then BaseSlot.init else { b with st := retired b.st }
        { x with baseGen := nextGen x.baseGen }
      let y := t.groupAt g
      let held := (y.members.filter fun e => y.holds e.1).length
      let w' := { w with passed := true, swapAt := t.nowFrame, baseGen := y.baseGen, held := held, refs := t.refs g w.toSlot, old := batches }
      let t := t.modGroup g fun x => { x with swap := some w' }
      if was = .degraded then
        (t.modGroup g fun x => { x with swap := none }).finish w.ref .ok 0 16
          (pack [(32, t.frame), (8, y.baseGen.toNat), (8, 0), (16, held), (32, t.refs g w.toSlot), (32, batches)])
      else t.swapCheck g

end Sys2Proof.Machine
end

