-- ==== Sys2Proof/Machine/Fences.lean ====
section
/-! DEFINITION. The fence family: FENCE_ALLOC to FENCE_IMPORT, what links bring for fences, and the wait-for graph (10_fences). -/

namespace Sys2Proof.Machine

/-! ### FENCE_ALLOC and FENCE_FREE (R310, R311) -/

/-- A fence number that an allocation may take: FREE and not held for an import that waits (R314). -/
def State.fenceOpen (s : State) (n : Nat) : Bool := (s.fenceAt n).st == .free && !(s.fenceAt n).reserved

/-- The number that `pick` gives: 0 the named fence, 1 the lowest FREE one homed in a field (R30), 2 the lowest FREE one. -/
def State.pickFence (s : State) (p pick field fence : Nat) : Option Nat :=
  if pick = 0 then if s.fenceOpen fence then some fence else none
  else lowestIn (s.partAt p).record.fenBlocks 64 fun n => s.fenceOpen n && (pick != 1 || n / 4096 == field)

/-- The checks of R310 that name a context and a pick, around those that FENCE_ALLOC alone makes. -/
def fenceChecks (c : Cmd) (s : State) (reserved : Bool) (pick field : Nat) (extra : List (Bool × Status × Nat)) :
    List (Bool × Status × Nat) :=
  let x := s.ctxAt (c.f 0 0 16)
  [(reserved, .rejectedInconsistent, 0x0005),
    ((s.recOf c).hasCtx (c.f 0 0 16), .notPermitted, 0x0800),
    (x.st != .lost, .contextLost, 0x0801),
    (x.st == .live, .rejectedInconsistent, 0x0801),
    (c.f 2 0 8 == x.gen.toNat, .staleGeneration, 0),
    (decide (pick ≤ 2), .rejectedInconsistent, 0x0802)] ++ extra ++
  [(pick != 0 || (s.recOf c).hasFence (c.f 4 0 14), .notPermitted, 0x0805),
    ((s.pickFence c.part pick field (c.f 4 0 14)).isSome, .rejectedInconsistent, 0x0806)]

/-- The checks of FENCE_ALLOC, in order (R310). -/
def fenceAllocChecks (c : Cmd) (s : State) : List (Bool × Status × Nat) :=
  let compat := c.f 3 0 1 == 1
  let pick := c.f 3 1 2
  let step := c.f 3 3 1 == 1
  let mir := c.f 3 4 1 == 1
  let g := c.f 6 0 10
  let v := c.f 8 0 64
  let a := c.f 16 0 64
  let steps := (s.fen.fence.filter fun e => e.2.st != .free && e.2.kind == .step && e.2.group == g && !e.2.orphan).length
  fenceChecks c s (c.zeros [(3, 7, 1), (5, 6, 2), (7, 2, 6)]) pick (c.f 3 5 2) [
    (decide (v ≤ if compat then 0xFFFFFFFF else 0xFFFFFFFFFFFFFFFE), .rejectedInconsistent, 0x0802),
    (!step || ((s.groupAt g).owner == some c.part && decide (steps < 4)), .rejectedInconsistent, 0x0803),
    (!mir || (a % 8 == 0 && s.covered c.part (c.f 0 0 16) a 8 true), .rejectedInconsistent, 0x0804)]

/-- FENCE_ALLOC (R310). -/
def runFenceAlloc (c : Cmd) (s : State) : State :=
  let compat := c.f 3 0 1 == 1
  let pick := c.f 3 1 2
  let step := c.f 3 3 1 == 1
  let mir := c.f 3 4 1 == 1
  let g := c.f 6 0 10
  let v := c.f 8 0 64
  let a := c.f 16 0 64
  s.checked c (fenceAllocChecks c s) fun s =>
    let n := (s.pickFence c.part pick (c.f 3 5 2) (c.f 4 0 14)).getD 0
    let t := s.modFence n fun f => { Fence.init with
      st := .live, kind := if step then .step else .plain, compat := compat, value := BitVec.ofNat 64 v, gen := nextGen f.gen
      owner := c.f 0 0 16, mirror := if mir then some a else none, group := if step then g else 0 }
    s.answer t c [(14, n), (2, 0), (8, (t.fenceAt n).gen.toNat), (2, n / 4096), (38, 0)]

/-- FENCE_ALLOC. -/
def execFenceAlloc (k : Take) (s : State) : Host.Outcome State Fault Refusal := .next (s.live (hawk 0x0801 anyCmd k runFenceAlloc))

/-- The checks of FENCE_FREE, in order (R311). -/
def fenceFreeChecks (c : Cmd) (s : State) : List (Bool × Status × Nat) :=
  let n := c.f 0 0 14
  let f := s.fenceAt n
  [
    (c.zeros [(1, 6, 2), (3, 0, 40)], .rejectedInconsistent, 0x0005),
    ((s.recOf c).hasFence n, .notPermitted, 0x0805),
    (f.st != .free, .rejectedInconsistent, 0x0807),
    (c.f 2 0 8 == f.gen.toNat, .staleGeneration, 0)]

/-- FENCE_FREE (R311): a LIVE fence becomes ABANDONED and then FREE within the command. -/
def runFenceFree (c : Cmd) (s : State) : State :=
  let n := c.f 0 0 14
  let f := s.fenceAt n
  s.checked c (fenceFreeChecks c s) fun s =>
    s.answer ((s.abandonFence n).freeFence n) c [(64, f.value.toNat), (32, f.stale.toNat), (32, f.rejected.toNat)]

/-- FENCE_FREE. -/
def execFenceFree (k : Take) (s : State) : Host.Outcome State Fault Refusal := .next (s.live (hawk 0x0802 anyCmd k runFenceFree))

/-! ### FENCE_EXPORT (R312, R313) -/

/-- `op` of a FENCE_EXPORT is WITHDRAW. -/
def isWithdraw (c : Cmd) : Bool := c.f 3 0 1 == 1

/-- The checks of R313 that both operations make. -/
def exportHead (c : Cmd) (s : State) : List (Bool × Status × Nat) :=
  let n := c.f 0 0 14
  let f := s.fenceAt n
  [(c.zeros [(1, 6, 2), (3, 1, 7), (5, 1, 7), (6, 6, 10), (12, 0, 32)], .rejectedInconsistent, 0x0005),
    ((s.recOf c).hasFence n && f.st == .live, .notPermitted, 0x0810),
    (c.f 2 0 8 == f.gen.toNat, .staleGeneration, 0)]

/-- The exports that the chip holds. -/
def State.exportCount (s : State) : Nat := (s.fen.fence.map fun e => e.2.exports_.length).sum

/-- The checks of FENCE_EXPORT, in order. -/
def fenceExportChecks (c : Cmd) (s : State) : List (Bool × Status × Nat) :=
  let n := c.f 0 0 14
  let f := s.fenceAt n
  let node := c.f 4 0 9
  let part := c.f 6 0 6
  exportHead c s ++ [
    (f.kind != .proxy && c.f 8 0 32 != 0, .rejectedInconsistent, 0x0811),
    (s.nodeAllowed c.part node, .notPermitted, 0x0812),
    (f.exports_.all (fun e => !(e.node == node && e.part == part)) && decide (f.exports_.length < 8) && decide (s.exportCount < 4096),
      .rejectedInconsistent, 0x0813)]

/-- FENCE_EXPORT with `op` EXPORT. -/
def runFenceExport (c : Cmd) (s : State) : State :=
  let n := c.f 0 0 14
  let node := c.f 4 0 9
  let part := c.f 6 0 6
  s.checked c (fenceExportChecks c s) fun s =>
    let t := s.modFence n fun f => { f with exports_ := f.exports_ ++ [⟨node, part, BitVec.ofNat 32 (c.f 8 0 32), []⟩] }
    s.answer t c [(32, s.log.inc.toNat), (32, 0)]

/-- FENCE_EXPORT (EXPORT). -/
def execFenceExport (k : Take) (s : State) : Host.Outcome State Fault Refusal :=
  .next (s.live (hawk 0x0803 (fun c => !isWithdraw c) k runFenceExport))

/-- The checks of FENCE_WITHDRAW, in order. -/
def fenceWithdrawChecks (c : Cmd) (s : State) : List (Bool × Status × Nat) :=
  let n := c.f 0 0 14
  let f := s.fenceAt n
  let is := fun (e : Export) => e.node == c.f 4 0 9 && e.part == c.f 6 0 6
  exportHead c s ++ [(f.exports_.any is, .rejectedInconsistent, 0x0814)]

/-- FENCE_EXPORT with `op` WITHDRAW: abandons every subscription's PROXY and deletes the export. -/
def runFenceWithdraw (c : Cmd) (s : State) : State :=
  let n := c.f 0 0 14
  let f := s.fenceAt n
  let is := fun (e : Export) => e.node == c.f 4 0 9 && e.part == c.f 6 0 6
  s.checked c (fenceWithdrawChecks c s) fun s =>
    let subs := (f.exports_.filter is).flatMap fun e => e.subs
    let t := (s.modFence n fun f => { f with exports_ := f.exports_.filter fun e => !is e }).abandonSubs subs
    s.answer t c [(32, s.log.inc.toNat), (16, subs.length), (16, 0)]

/-- FENCE_EXPORT (WITHDRAW). -/
def execFenceWithdraw (k : Take) (s : State) : Host.Outcome State Fault Refusal :=
  .next (s.live (hawk 0x0803 isWithdraw k runFenceWithdraw))

/-! ### FENCE_IMPORT (R314) -/

/-- A PROXY comes to life at a number (R297, R314). -/
def State.newProxy (s : State) (n ctx : Nat) (src : Source) (compat : Bool) (value : W64) : State :=
  s.modFence n fun f => { Fence.init with
    st := .live, kind := .proxy, compat := compat, value := value, gen := nextGen f.gen, owner := ctx, src := some src }

/-- The response of a FENCE_IMPORT. -/
def importFields (s : State) (n : Nat) (inc : W32) : List (Nat × Nat) :=
  [(14, n), (2, 0), (8, (s.fenceAt n).gen.toNat), (1, bit (s.fenceAt n).compat), (7, 0), (32, inc.toNat), (64, (s.fenceAt n).value.toNat)]

/-- What an exporting chip answers (R314), for an importer whose width with this chip is 32-bit or not. -/
def State.exportAnswer (s : State) (node part srcPart fence : Nat) (gen : Byte) (key : W32) (narrow : Bool) : ImportAns :=
  let f := s.fenceAt fence
  if f.st = .live ∧ f.gen = gen ∧ (s.partAt srcPart).st ≠ .free ∧ (s.partAt srcPart).record.hasFence fence = true ∧
      f.exports_.any (fun e => e.node == node && e.part == part && e.key == key) = true then
    if narrow ∧ f.compat = false then .refuseWidth else .grant f.compat f.value s.log.inc
  else .refuse

/-- Adds a subscription to the export that names a target (R312). -/
def State.subscribe (s : State) (fence node part proxy : Nat) : State :=
  s.modFence fence fun f => { f with exports_ := f.exports_.map fun e =>
    if e.node == node && e.part == part && !e.subs.contains (node, proxy) then { e with subs := e.subs ++ [(node, proxy)] } else e }

/-- A path to a node may exist: some port is trained, and the node is not marked RESET (R534). -/
def State.reachable (s : State) (node : Nat) : Bool := !s.nodeDown node

/-- The checks of FENCE_IMPORT, in order. -/
def fenceImportChecks (c : Cmd) (s : State) : List (Bool × Status × Nat) :=
  let pick := c.f 3 0 2
  let node := c.f 6 0 9
  fenceChecks c s (c.zeros [(3, 4, 4), (5, 6, 2), (7, 1, 7), (8, 6, 2), (11, 6, 2), (16, 0, 64)]) pick (c.f 3 2 2) [] ++ [
    (s.nodeAllowed c.part node, .notPermitted, 0x0812)]

/-- FENCE_IMPORT: an export of the own chip is asked at once, another chip over its link. -/
def runFenceImport (c : Cmd) (s : State) : State :=
  let pick := c.f 3 0 2
  let node := c.f 6 0 9
  let x := c.f 0 0 16
  let src : Source := ⟨node, c.f 8 0 6, c.f 10 0 14, BitVec.ofNat 8 (c.f 9 0 8)⟩
  let key := BitVec.ofNat 32 (c.f 12 0 32)
  s.checked c (fenceImportChecks c s) fun s =>
    let n := (s.pickFence c.part pick (c.f 3 2 2) (c.f 4 0 14)).getD 0
    if node = s.ownNode then
      match s.exportAnswer node c.part src.part src.fence src.gen key false with
      | .grant compat value inc =>
        let t := (s.newProxy n x src compat value).subscribe src.fence node c.part n
        s.answer t c (importFields t n inc)
      | .refuse => s.reject c .notPermitted 0x0815
      | .refuseWidth => s.reject c .versionUnsupported 0x0816
    else if s.reachable node = false then s.reject c .peerReset 0
    else
      let t := (s.modFence n fun f => { f with reserved := true }).linkSend
        (.importRequest node ⟨s.ownNode, c.part, src.part, src.fence, src.gen, key, n⟩)
      s.background { t with fen := { t.fen with imports := t.fen.imports ++ [⟨c.ref, c.part, n, x, src, key⟩] } } c 16

/-- FENCE_IMPORT. -/
def execFenceImport (k : Take) (s : State) : Host.Outcome State Fault Refusal := .next (s.live (hawk 0x0804 anyCmd k runFenceImport))

/-- IMPORT_REQUEST (R314): the exporter's side. -/
def importRequest (port : Nat) (r : ImportReq) (s : State) : State :=
  let x := s.net.ports.get Port.init port
  if x.up = false ∨ s.coreStopped 6 = true then s
  else
    let a := s.exportAnswer r.node r.part r.srcPart r.fence r.gen r.key x.s3
    let t := match a with
      | .grant _ _ _ => s.subscribe r.fence r.node r.part r.proxy
      | _ => s
    (t.countMsg port 1 false).linkSend (.importAnswer r.node r.proxy a)

/-- IMPORT_REQUEST. -/
def execImportRequest (port : Nat) (r : ImportReq) (s : State) : Host.Outcome State Fault Refusal := .next (s.live (importRequest port r))

/-- Takes the import that waits at a slot out of the list. -/
def State.endImport (s : State) (w : ImportWait) : State :=
  { s with fen := { s.fen with imports := s.fen.imports.filter fun x => x != w } }.modFence w.fence fun f => { f with reserved := false }

/-- The import that waits at a slot. -/
def State.importAt (s : State) (mb : Mailbox) (slot : Nat) : Option ImportWait :=
  s.fen.imports.find? fun w => w.ref.mb == mb && w.ref.slot == slot

/-- IMPORT_TIMEOUT: no answer came within 100 µs. -/
def importTimeout (mb : Mailbox) (slot : Nat) (s : State) : State :=
  match s.importAt mb slot with
  | none => s
  | some w => (s.endImport w).finish w.ref .peerReset 0 0 0

/-- IMPORT_TIMEOUT. -/
def execImportTimeout (mb : Mailbox) (slot : Nat) (s : State) : Host.Outcome State Fault Refusal := .next (s.live (importTimeout mb slot))

/-- A port to a node knows it under another incarnation than the one that answers (R316). -/
def State.otherLife (s : State) (node : Nat) (inc : W32) : Bool :=
  s.net.ports.any fun e => e.2.up && e.2.node == node && e.2.inc != inc

/-- IMPORT_ANSWER (R314). A grant of an earlier incarnation is not taken (R316): it ends as a reset peer's does (DEDUCED, notes/assumptions/86.md). A PROXY
whose context is no longer LIVE is not made (DEDUCED, notes/assumptions/25.md). -/
def importAnswer (mb : Mailbox) (slot : Nat) (a : ImportAns) (s : State) : State :=
  match s.importAt mb slot with
  | none => s
  | some w =>
    let t := (s.countMsg (s.portFor w.src.node) 2 false).endImport w
    match a with
    | .refuse => t.finish w.ref .notPermitted 0x0815 0 0
    | .refuseWidth => t.finish w.ref .versionUnsupported 0x0816 0 0
    | .grant compat value inc =>
      if s.otherLife w.src.node inc then t.finish w.ref .peerReset 0 0 0
      else if (t.ctxAt w.ctx).st = .live then
        let t := t.newProxy w.fence w.ctx w.src compat value
        t.finish w.ref .ok 0 16 (pack (importFields t w.fence inc))
      else (t.linkSend (.unsubscribe w.src.node w.src.fence w.fence)).finish w.ref .contextLost 0 0 0

/-- IMPORT_ANSWER. -/
def execImportAnswer (mb : Mailbox) (slot : Nat) (a : ImportAns) (s : State) : Host.Outcome State Fault Refusal :=
  .next (s.live (importAnswer mb slot a))

/-- A message of the exporter for a PROXY has arrived (R554). -/
def State.heardFrom (s : State) (n kind : Nat) : State :=
  match (s.fenceAt n).src with
  | some x => s.countMsg (s.portFor x.node) kind false
  | none => s

/-- PROXY_UPDATE (R315, R321). -/
def execProxyUpdate (n : Nat) (v : W64) (s : State) : Host.Outcome State Fault Refusal :=
  .next (s.live fun s => if (s.fenceAt n).kind = .proxy then (s.heardFrom n 3).updateProxy n v else s)

/-- PROXY_ABANDON (R315). -/
def execProxyAbandon (n : Nat) (s : State) : Host.Outcome State Fault Refusal :=
  .next (s.live fun s => if (s.fenceAt n).kind = .proxy then (s.heardFrom n 4).abandonOne n else s)

/-! ### The wait-for graph (R318–R320) -/

/-- An unsatisfied WAIT at the head of a ring in a scan's snapshot: ring, fence, value and head index. -/
abbrev Snap := Nat × Nat × W64 × W32

/-- The WAIT at a ring's head that is not satisfied, as the snapshot and the confirmation see it. -/
def blockedAt (r : Nat) (x : Ring) : Option Snap :=
  match x.running.find? fun d => d.type == 3 with
  | some d => some (r, d.fence x.fmt, BitVec.ofNat 64 (d.value x.fmt), d.index)
  | none => none

/-- The descriptor that ring memory holds at an index, read under the ring's context (R318); `host` gives host-tier bytes. -/
def State.descAt (s : State) (r : Nat) (x : Ring) (i : W32) (host : Option (BitVec 512)) : Option Desc :=
  let n := if x.fmt = 3 then 64 else 32
  ((s.objRead ((s.ringPart r).getD 0xFF) x.ctx (x.descAddr + n * (i.toNat % x.slots)) n x.cls (host.map BitVec.toNat)).2).map fun v =>
    ⟨i, BitVec.ofNat 512 v, 0⟩

/-- The fences that a blocked ring signals among its first 256 published descriptors after its head (R318). -/
def State.signals (s : State) (host : List (Nat × Nat × BitVec 512)) (r : Nat) (head : W32) : List Nat :=
  let x := s.ringAt r
  let n := min 256 (ahead x.prod head - 1)
  (List.range n).filterMap fun j =>
    let i := head + 1 + BitVec.ofNat 32 j
    match s.descAt r x i ((host.find? fun h => h.1 == r && h.2.1 == i.toNat).map fun h => h.2.2) with
    | some d => if d.type = 4 then some (d.fence x.fmt) else none
    | none => none

/-- A ring with what the scan knows of it: its head index, the fence it waits on, and the fences it signals. -/
structure ScanRing where
  ring : Nat
  head : W32
  wait : Nat
  sig  : List Nat

/-- A ring as a node of the graph. -/
def ScanRing.node (r : ScanRing) : WfgNode := ⟨0, r.ring, r.head⟩

/-- The edges of the graph from a node (R318). A group and an external node have none. -/
def State.waitEdges (s : State) (all : List ScanRing) (n : WfgNode) : List WfgNode :=
  if n.kind = 0 then (all.filter fun r => r.ring == n.id).map fun r => ⟨1, r.wait, 0⟩
  else if n.kind = 1 then
    ((all.filter fun r => r.sig.contains n.id).map ScanRing.node) ++
      match (s.fenceAt n.id).src with
      | some x => if x.node = s.ownNode then [⟨1, x.fence, 0⟩] else [⟨2, 0, 0⟩]
      | none => []
  else []

/-- The paths that go on from a path to a node at which `goal` is met, over nodes that meet `ok`, none twice. -/
def State.waitPaths (s : State) (all : List ScanRing) (ok goal : WfgNode → Bool) : Nat → List WfgNode → List (List WfgNode)
  | 0, _ => []
  | k + 1, path =>
    match path.getLast? with
    | none => []
    | some last => (s.waitEdges all last).flatMap fun n =>
        if goal n then [path ++ [n]]
        else if ok n && !path.contains n then s.waitPaths all ok goal k (path ++ [n]) else []

/-- More steps than a path of distinct nodes can have: between two rings lie at most two fences, since a PROXY has no PROXY for its source (R312). -/
def waitFuel (all : List ScanRing) : Nat := 3 * all.length + 3

/-- The cycles (R318): closed paths, each from its ring of the lowest number. -/
def State.waitCycles (s : State) (all : List ScanRing) : List (List WfgNode) :=
  all.flatMap fun r => (s.waitPaths all (fun n => n.kind == 1 || (n.kind == 0 && decide (r.ring < n.id))) (fun n => n == r.node) (waitFuel all) [r.node]).map
    List.dropLast

/-- The paths that a cycle through other chips leaves on this one (R320): from a fence that another chip follows to an external node (DEDUCED,
notes/assumptions/87.md). -/
def State.waitBridges (s : State) (all : List ScanRing) : List (List WfgNode) :=
  (s.fen.fence.filter fun e => (e.2.exports_.flatMap Export.subs).any fun x => x.1 != s.ownNode).flatMap fun e =>
    s.waitPaths all (fun _ => true) (fun n => n.kind == 2) (waitFuel all) [⟨1, e.1, 0⟩]

/-- A cycle that only software can end (R318): none of its fences is raised by a ring outside it, follows a fence outside it or another chip, or
follows a group. -/
def State.soleCycle (s : State) (all : List ScanRing) (path : List WfgNode) : Bool :=
  path.all fun n => n.kind == 0 || (n.kind == 1 && (s.fenceAt n.id).kind != .step && (s.waitEdges all n).all fun x => path.contains x)

/-- The partitions that hold a node. -/
def State.nodePart (s : State) (n : WfgNode) : Option Nat :=
  if n.kind = 0 then s.ringPart n.id else if n.kind = 1 then s.fencePart n.id else none

/-- The same cycle in another scan: its nodes by kind and number. -/
def sameCycle (a b : WfgCycle) : Bool := a.nodes.map (fun n => (n.kind, n.id)) == b.nodes.map fun n => (n.kind, n.id)

/-- A kept path that is a cycle. -/
def WfgCycle.closed (c : WfgCycle) : Bool := c.nodes.all fun n => n.kind != 2

/-- The FENCE_CYCLE record of a cycle for a partition (R320, R540). -/
def WfgCycle.record (c : WfgCycle) (p : Nat) (epoch : W32) : RecBody :=
  { kind := 0x000F, part := p, a := min c.nodes.length 32, b := epoch.toNat
    c := match c.nodes with
      | [] => 0
      | n :: _ => n.id + n.kind * 2 ^ 20 }

/-- WFG_SCAN_END (R318–R320): cycles whose rings still wait as in the snapshot are kept, and each is recorded for every partition that holds a node
of it. -/
def wfgScanEnd (host : List (Nat × Nat × BitVec 512)) (s : State) : State :=
  match s.fen.wfg.scan with
  | none => s
  | some snap =>
    let w := s.fen.wfg
    let all : List ScanRing := snap.map fun e => ⟨e.1, e.2.2.2, e.2.1, s.signals host e.1 e.2.2.2⟩
    let still := fun (n : WfgNode) => n.kind != 0 || snap.any fun e => e.1 == n.id && blockedAt n.id (s.ringAt n.id) == some e
    let found := (s.waitCycles all ++ s.waitBridges all).filter fun p => p.all still
    let cycles := found.map fun nodes =>
      let c : WfgCycle := ⟨nodes, (nodes.filterMap s.nodePart).eraseDups, s.soleCycle all nodes, true, w.scanAt⟩
      match w.cycles.find? (sameCycle c) with
      | some o => { c with fresh := false, first := o.first }
      | none => c
    let t := { s with fen := { s.fen with wfg := { w with
      scan := none, epoch := w.scanAt, cycles := cycles
      blocked := parts.map fun p => (p, (snap.filter fun e => s.ringPart e.1 == some p).length) } } }
    parts.foldl (fun t p =>
      let mine := cycles.filter fun c => c.closed && c.parts.contains p
      let t := mine.foldl (fun (t : State) c => t.logRec (c.record p w.scanAt)) t
      if mine.any WfgCycle.fresh then t.partEvent p else t) t

/-- WFG_SCAN_END. -/
def execWfgScanEnd (host : List (Nat × Nat × BitVec 512)) (s : State) : Host.Outcome State Fault Refusal :=
  .next (s.live (wfgScanEnd host))

/-- One entry of WFG_READ; a partition mailbox sees another partition's nodes as external ones with `id` 0. -/
def cycleFields (s : State) (p : Nat) (manager : Bool) (c : WfgCycle) : List (Nat × Nat) :=
  let nodes := c.nodes.take 32
  let mine := fun (n : WfgNode) => manager || s.nodePart n == some p
  [(16, nodes.length), (1, bit c.sole), (1, bit c.fresh), (1, bit (decide (32 < c.nodes.length))), (1, bit (c.parts.any fun q => q != p)),
    (12, 0), (32, c.first.toNat)] ++
  nodes.flatMap fun n => if mine n then [(20, n.id), (2, n.kind), (10, 0), (32, n.index.toNat)] else [(20, 0), (2, 2), (10, 0), (32, 0)]

/-- The bytes of a list of fields. -/
def fieldBytes (l : List (Nat × Nat)) : Nat := (l.map Prod.fst).sum / 8

/-- Whole entries as space allows. -/
def fillSpace (space : Nat) : List (List (Nat × Nat)) → List (List (Nat × Nat))
  | [] => []
  | e :: t => if fieldBytes e ≤ space then e :: fillSpace (space - fieldBytes e) t else []

/-- The checks of WFG_READ, in order. -/
def wfgReadChecks (c : Cmd) : List (Bool × Status × Nat) :=
  [(c.zeros [(2, 0, 48)], .rejectedInconsistent, 0x0005)]

/-- WFG_READ. -/
def runWfgRead (c : Cmd) (s : State) : State :=
  s.checked c (wfgReadChecks c) fun s =>
    let w := s.fen.wfg
    let mine := (w.cycles.filter fun x => x.parts.contains c.part).take 64
    let rest := (mine.drop (c.f 0 0 16)).map (cycleFields s c.part (c.ref.mb == .manager))
    let out := fillSpace (c.space - 16) rest
    s.answer s c ([(8, c.part), (8, (s.partAt c.part).gen.toNat), (1, bit w.overrun), (1, bit (decide (out.length < rest.length))), (14, 0),
      (32, w.epoch.toNat), (32, ((w.blocked.find? fun e => e.1 == c.part).map Prod.snd).getD 0), (16, mine.length), (16, out.length)] ++
      out.flatten)

/-- WFG_READ. -/
def execWfgRead (k : Take) (s : State) : Host.Outcome State Fault Refusal := .next (s.live (hawk 0x0805 anyCmd k runWfgRead))

end Sys2Proof.Machine
end

