-- ==== Sys2Proof/Machine/Power.lean ====
section
/-! DEFINITION. Power: the partition power states (R421–R431), budgets (R432–R436) and Capo (R437–R440), of
14_power_and_capo. -/

namespace Sys2Proof.Machine

/-! ### Power states (R423–R429) -/

/-- The code of a power state (PWR_STATE_SET); a transient state shows the state it left. -/
def powCode : PowSt → Nat
  | .l0 => 0
  | .l1 => 1
  | .l2 => 2
  | .l3 => 3
  | .draining => 0
  | .saving => 2
  | .restoring => 3

/-- The state of a code. -/
def powOf : Nat → PowSt
  | 0 => .l0
  | 1 => .l1
  | 2 => .l2
  | _ => .l3

/-- The bytes of the save slots of a partition's engines (R428). -/
def State.slotBytes (s : State) (p : Nat) : Nat := 8388608 * (bitsOf (s.partAt p).record.engines).length

/-- The lines of a partition's ranges. -/
def State.ownsLine (s : State) (p l : Nat) : Bool :=
  match s.rangeOf (l * 128) with
  | some r => (s.rangeAt r).st == .owned && (s.rangeAt r).owner == p
  | none => false

/-- Snoops out the operand caches of a partition's engines (R411). -/
def State.snoopEngines (s : State) (p : Nat) : State := (bitsOf (s.partAt p).record.engines).foldl State.probeEngine s

/-- Snoops out the ways that a partition holds (R411). -/
def State.snoopWays (s : State) (p : Nat) : State :=
  [128, 129, 130, 131].foldl (fun s a => s.probeOut a fun l => s.ownsLine p l) s

/-- The final response of a move, when a command waits for it. -/
def State.powDone (s : State) (p : Nat) : State :=
  let x := s.powAt p
  let t := s.modPow p fun x => { x with busy := false, ref := none, since := s.nowFrame }
  t.finishOpt x.ref .ok 0 8 (pack [(8, powCode (t.powAt p).st), (24, 0), (32, s.nowFrame.toNat)])

/-- A partition starts saving its engines (R428). -/
def State.startSave (s : State) (p : Nat) : State :=
  ((s.snoopEngines p).snoopWays p).modPow p fun x => { x with st := .saving, nominal := 0, left := s.slotBytes p }

/-- Starts a move of a partition to a power state (R424). -/
def State.powMove (s : State) (p target : Nat) (ref : Option SlotRef) : State :=
  let t := s.modPow p fun x => { x with target := target, busy := true, ref := ref }
  match (s.powAt p).st with
  | .l0 | .l1 => if target ≤ 1 then t.modPow p fun x => { x with step := true }
      else t.modPow p fun x => { x with st := .draining, step := true }
  | .l2 => if target = 3 then t.startSave p else t.modPow p fun x => { x with step := true }
  | .l3 => t.modPow p fun x => { x with st := .restoring, left := s.slotBytes p }
  | _ => s

/-- The checks of PWR_STATE_SET, in order (R424, R426). -/
def pwrStateSetChecks (c : Cmd) (s : State) : List (Bool × Status × Nat) :=
  let p := c.part
  let x := s.powAt p
  let target := c.f 0 0 2
  let wake := c.f 0 2 1 == 1
  [
    (c.zeros [(0, 3, 5), (1, 0, 56)], .rejectedInconsistent, 0x0005),
    ((s.partAt p).st == .live, .rejectedInconsistent, 0x0C10),
    (!x.busy, .rejectedInconsistent, 0x0C11),
    (!wake || decide (2 ≤ target), .rejectedInconsistent, 0x0C12)]

/-- PWR_STATE_SET (R424, R426). -/
def runPwrStateSet (c : Cmd) (s : State) : State :=
  let p := c.part
  let x := s.powAt p
  let target := c.f 0 0 2
  let wake := c.f 0 2 1 == 1
  s.checked c (pwrStateSetChecks c s) fun s =>
    let t := s.modPow p fun x => { x with wake := wake }
    if x.st = powOf target then s.answer t c [(8, target), (24, 0), (32, x.since.toNat)]
    else s.background ((t.modPow p fun x => { x with earlier := none }).powMove p target (some c.ref)) c 8

/-- PWR_STATE_SET. -/
def execPwrStateSet (k : Take) (s : State) : Host.Outcome State Fault Refusal := .next (s.live (hawk 0x0C02 anyCmd k runPwrStateSet))

/-- The engines of a partition run and hold nothing, and what they asked of a home has ended. -/
def State.partIdle (s : State) (p : Nat) : Bool :=
  (bitsOf (s.partAt p).record.engines).all fun e => (s.engAt e).idle && s.engQuiet e

/-- DRAIN_IDLE: the last engine of a DRAINING partition is idle (R424). -/
def drainIdle (p : Nat) (s : State) : State :=
  let x := s.powAt p
  if x.st ≠ .draining ∨ x.step = true ∨ s.partIdle p = false then s
  else if x.target = 3 then s.startSave p
  else ((s.snoopEngines p).modPow p fun x => { x with st := .l2, nominal := 0 }).powDone p

/-- DRAIN_IDLE. -/
def execDrainIdle (p : Nat) (s : State) : Host.Outcome State Fault Refusal := .next (s.live (drainIdle p))

/-- Writes the save slots of a partition's engines under slots 6 and 7, or clears them (R428, R429). -/
def State.markSlots (s : State) (p : Nat) (full : Bool) : State :=
  (bitsOf (s.partAt p).record.engines).foldl (fun t e => t.markSlot e (if full then some (s.free, s.pairMat 6) else none))
    (if full then { s with free := s.free + 1 } else s)

/-- Every line of the save slots of a partition's engines passes its check (R429): it is CLEAR, or its MAC holds under slots 6 and 7. -/
def State.slotsGood (s : State) (p : Nat) : Bool :=
  (bitsOf (s.partAt p).record.engines).all fun e =>
    ((s.mem.saves.get none e).all fun v => v.2 == s.pairMat 6) &&
    (s.mem.line.filter fun x => slotOf x.1 == some e).all fun x =>
      x.2.st == .clear || (x.2.st == .valid && (x.2.opened (s.pairMat 6) (lineTweak x.1 (tweakOf 3 0) x.2.gen x.2.wcount)).isSome)

/-- SAVE_DONE: the last save line is accepted by its lane (R424, R428). -/
def saveDone (p : Nat) (s : State) : State :=
  if (s.powAt p).st = .saving ∧ (s.powAt p).left = 0 then ((s.markSlots p true).modPow p fun x => { x with st := .l3 }).powDone p else s

/-- SAVE_DONE. -/
def execSaveDone (p : Nat) (s : State) : Host.Outcome State Fault Refusal := .next (s.live (saveDone p))

/-- RESTORE_DONE with every line good: the slots are cleared (R429); for L2 the clocks stay gated, for L0 and L1 the engines
return at the next frame boundary (R424, DEDUCED, notes/assumptions/33.md). -/
def State.restored (s : State) (p : Nat) : State :=
  let t := s.markSlots p false
  if (s.powAt p).target = 2 then (t.modPow p fun x => { x with st := .l2 }).powDone p
  else t.modPow p fun x => { x with step := true }

/-- WAKE (R427): a partition in L2 or L3 with `wake_on_work` has ready work. -/
def wake (p : Nat) (s : State) : State :=
  let x := s.powAt p
  let ready := [0, 1, 2, 3].any fun f => !(s.work p f).isEmpty
  if (s.partAt p).st = .live ∧ x.wake = true ∧ x.busy = false ∧ (x.st = .l2 ∨ x.st = .l3) ∧ ready = true ∧ s.out.low = false then
    (s.powMove p 0 none).partEvent p
  else s

/-- WAKE. -/
def execWake (p : Nat) (s : State) : Host.Outcome State Fault Refusal := .next (s.live (wake p))

/-- A partition reset or a domain loss ends its power moves (R449): slots cleared, the state L0, and a running PWR_STATE_SET
completes STALE_GENERATION. -/
def State.powReset (s : State) (p : Nat) : State :=
  let x := s.powAt p
  let t := (s.markSlots p false).modPow p fun x => { x with
    st := .l0, serve := true, nominal := 16, busy := false, ref := none, step := false, left := 0, tp := 16, earlier := none, since := s.nowFrame }
  t.finishOpt x.ref .staleGeneration 0 0 0

/-- LOW entry for one partition (R430): from L0 or L1 it goes to L2 and records its state. A move between L0 and L1 that waits
for its boundary is made at once. -/
def State.lowEntry (s : State) (p : Nat) : State :=
  let x := s.powAt p
  if (s.partAt p).st ≠ .live ∨ (x.st ≠ .l0 ∧ x.st ≠ .l1) then s
  else
    let t := if x.busy then (s.modPow p fun x => { x with st := powOf x.target, step := false }).powDone p else s
    (t.modPow p fun x => { x with earlier := some (powCode x.st), wake := false }).powMove p 2 none

/-! ### The power action of a frame boundary (R89, R424, R432, R433) -/

/-- The steps of power moves that wait for the boundary (R424, R430). -/
def State.powStep (s : State) (p : Nat) : State :=
  let x := s.powAt p
  let up := fun (t : State) (n : Nat) => t.modPow p fun x => { x with
    st := powOf n, serve := true, nominal := if n = 0 then 16 else x.l1Keep, step := false, gated := [] }
  if x.step then
    match x.st with
    | .draining => (bitsOf (s.partAt p).record.engines).foldl (fun t e => t.leaveService p e)
        (s.modPow p fun x => { x with serve := false, step := false })
    | _ => (up s x.target).powDone p
  else match x.earlier, s.out.low, x.busy, x.st with
    | some n, false, false, .l2 => (up s n).modPow p fun x => { x with earlier := none, since := s.nowFrame }
    | _, _, _, _ => s

/-- A save or restore moves what the slow maintenance bucket of field 3 lets pass in a frame (R428). -/
def State.powPace (s : State) (p : Nat) : State :=
  let x := s.powAt p
  if x.left = 0 then s
  else
    let n := min x.left (s.reg.field.get RegField.init (p * 4 + 3)).slowLeft
    (s.modPow p fun x => { x with left := x.left - n }).chargeMaint p 0x027F80000000 n

/-- Bytes of a tier charged to a partition in the frame that closed (R214, R432). -/
def State.frameBytes (s : State) (p tier : Nat) : Nat :=
  ((s.reg.bucket.filter fun e => e.1 / 64 == p && e.1 / 8 % 2 == tier).map fun e => e.2.last).sum

/-- E_p in nJ (R432). -/
def State.frameEnergy (s : State) (p : Nat) (reports : List (Nat × Nat)) : Nat :=
  ((reports.filter fun e => (s.partAt p).record.engines.getLsbD e.1).map Prod.snd).sum +
  (s.chip.pjFast * s.frameBytes p 0 + s.chip.pjSlow * s.frameBytes p 1) / 16000

/-- t_p after a frame of energy E_p (R433): powers compared as nJ × 160 per 8,192 ns against the budget in 0.1 W. -/
def PowPart.throttle (x : PowPart) : Nat :=
  if 8192 * x.eff * x.burst < 160 * x.lastE ∨ 8192 * x.winFrames * x.eff < 10 * x.winE then max x.kMin (x.tp - 1)
  else if 160 * x.lastE < 8192 * x.eff * 14 then min 16 (x.tp + 1)
  else x.tp

/-- Closes a partition's power averaging period (R432, R433). -/
def State.powClose (s : State) (reports : List (Nat × Nat)) (p : Nat) : State :=
  let e := s.frameEnergy p reports
  let t := s.modPow p fun x =>
    let y := { x with lastE := e, winE := x.winE + e, winFrames := x.winFrames + 1 }
    { y with tp := y.throttle }
  t.modPart p fun x => { x with energyTotal := x.energyTotal + e }

/-- The engines' energy reports, as Capo uses them (R438). -/
def State.takeReports (s : State) (reports : List (Nat × Nat)) : State :=
  { s with pwr := { s.pwr with report := reports.foldl (fun t e => t.put 0 e.1 e.2) [] } }

/-- The voltage of a rail in 0.25 mV: what its sense pair reads, or VOUT (in mV) where the pair is faulted or absent (R578). -/
def State.railVolts (s : State) (p vout : Nat) : Nat :=
  let code := (s.board.pair.get Pair.init (5 + p)).code
  if code = 0 ∨ code = 5 then s.board.sense.get 0 p else 4 * vout

/-- W_core in 0.1 W (R442, R443): Σ of voltage × current (in 10 mA), or Σ P_f while `avs_fault` is set. -/
def State.coreNow (s : State) : Nat :=
  if s.pwr.avsFault then ((s.pwr.part.filter fun e => (s.partAt e.1).st != .free).map fun e => e.2.lastE * 10).sum / 8192
  else (s.pwr.rails.map fun e => s.railVolts e.1 e.2.1 * e.2.2).sum / 40000

/-- The AVSBus transaction of a boundary (R442, R443): the rail in turn, in voltage (mV) and current (10 mA; PRESUMED,
notes/assumptions/42.md). -/
def State.avsPoll (s : State) (v : Option (Nat × Nat)) : State :=
  let p := s.pwr
  match v with
  | some x =>
    let good := min 16 (p.avsGood + 1)
    { s with pwr := { p with
      rails := p.rails.put (0, 0) p.rail x, rail := (p.rail + 1) % 8, avsBad := 0, avsGood := good
      avsFault := p.avsFault && decide (good < 16) } }
  | none =>
    let bad := min 3 (p.avsBad + 1)
    let t := { s with pwr := { p with rail := (p.rail + 1) % 8, avsBad := bad, avsGood := 0, avsFault := p.avsFault || bad == 3 } }
    if bad = 3 ∧ p.avsFault = false then t.chipEvent else t

/-- The power action of a frame boundary (R89, order 4). -/
def State.powerAction (s : State) (reports : List (Nat × Nat)) (avs : Option (Nat × Nat)) : State :=
  let held := parts.filter fun p => (s.partAt p).st != .free && (s.partAt p).st != .creating
  let t := held.foldl (fun t p => (t.powStep p).powPace p) (s.takeReports reports)
  let t := (held.foldl (fun t p => t.powClose reports p) t).avsPoll avs
  { t with pwr := { t.pwr with coreSum := t.pwr.coreSum + t.coreNow, coreN := t.pwr.coreN + 1 } }

/-! ### Budgets (R434–R436) -/

/-- The effective budget of a partition in 0.1 W (R434). -/
def State.effBudget (s : State) (x : PowPart) : Nat :=
  let b := x.budget * s.pwr.scale / 256
  if s.pwr.throttle ∧ x.droopCls = 1 then b / 2 else b

/-- Sets the effective budget of a partition. -/
def State.setEff (s : State) (p : Nat) : State := s.modPow p fun x => { x with eff := s.effBudget x }

/-- The close of a thermal window with T_max in 0.125 °C and the diode that gave it (R434). -/
def State.thermalClose (s : State) (tMax : Int) (diode : Nat) : State :=
  let w := if s.pwr.coreN = 0 then 0 else s.pwr.coreSum / s.pwr.coreN
  let limit := s.pwr.chipLimit - s.pwr.reserve
  let hot := decide ((8 * s.pwr.tThrottle : Int) ≤ tMax)
  let trip := decide ((8 * s.pwr.tTrip : Int) ≤ tMax)
  let t := { s with pwr := { s.pwr with
    scale := if w = 0 then 256 else min 256 (256 * limit / w), coreSum := 0, coreN := 0, coreDw := min w 65535
    throttle := hot, trip := trip, tMax := tMax, diode := diode } }
  let held := parts.filter fun p => (t.partAt p).st != .free
  let t := held.foldl (fun t p => (t.setEff p).modPow p fun x => { x with
    winE := 0, winFrames := 0, tp := if trip then x.kMin else x.tp }) t
  if trip then t.chipEvent else t

/-- The checks of PWR_BUDGET_SET, in order (R435). -/
def pwrBudgetSetChecks (c : Cmd) : List (Bool × Status × Nat) :=
  let kind := c.f 0 0 8
  let zeros := if kind = 0 then c.zeros [(1, 4, 4), (2, 5, 3), (3, 5, 3), (7, 0, 200)]
    else if kind = 1 then c.zeros [(1, 0, 8), (11, 0, 168)] else true
  let kMin := c.f 2 0 5
  [
    (zeros, .rejectedInconsistent, 0x0005),
    (decide (kind ≤ 1), .rejectedInconsistent, 0x0C00),
    (if kind = 0 then c.part != 0xFF else c.part == 0xFF, .notPermitted, 0x0C01),
    (kind != 0 || decide (1 ≤ kMin ∧ kMin ≤ 16 ∧ kMin ≤ c.f 3 0 5 ∧ c.f 3 0 5 ≤ 16 ∧ 10 ≤ c.f 4 0 16 ∧ 16 ≤ c.f 6 0 8 ∧ c.f 6 0 8 ≤ 64),
      .rejectedInconsistent, 0x0C02),
    (kind != 1 || decide (c.f 7 0 8 ≤ 125 ∧ 10 ≤ c.f 8 0 8 ∧ c.f 8 0 8 ≤ 150 ∧ c.f 9 0 8 < c.f 8 0 8 ∧ 1 ≤ c.f 10 0 4 ∧
      1 ≤ c.f 10 4 4 ∧ c.f 10 4 4 ≤ 7), .rejectedInconsistent, 0x0C02),
    (kind != 1 || decide (c.f 6 0 8 < c.f 7 0 8 ∧ c.f 4 0 16 < c.f 2 0 16), .rejectedInconsistent, 0x0C03)]

/-- PWR_BUDGET_SET at staging (R435). -/
def runPwrBudgetSet (c : Cmd) (s : State) : State :=
  let kind := c.f 0 0 8
  s.checked c (pwrBudgetSetChecks c) fun s =>
    s.stage c [(kind, c.pay)]

/-- PWR_BUDGET_SET. -/
def execPwrBudgetSet (k : Take) (s : State) : Host.Outcome State Fault Refusal := .next (s.live (hawk 0x0C01 anyCmd k runPwrBudgetSet))

/-- Applies a PWR_BUDGET_SET entry (R436). -/
def State.applyPower (s : State) (p d : Nat) : State :=
  if fld d 0 0 8 = 0 then
    (s.modPow p fun x => { x with
      droopCls := fld d 1 0 1, droopPrio := fld d 1 1 3, kMin := fld d 2 0 5, l1Keep := fld d 3 0 5, budget := fld d 4 0 16
      burst := fld d 6 0 8, tp := max x.tp (fld d 2 0 5), nominal := if x.st = .l1 then fld d 3 0 5 else x.nominal }).setEff p
  else { s with pwr := { s.pwr with
    chipLimit := fld d 2 0 16, reserve := fld d 4 0 16, tThrottle := fld d 6 0 8, tTrip := fld d 7 0 8, droopMv := fld d 8 0 8
    recoverMv := fld d 9 0 8, shed := fld d 10 0 4, deepKeep := fld d 10 4 4 } }

/-- The budgets of a state fit (R436). -/
def State.budgetsFit (s : State) : Bool :=
  decide (((parts.filter fun p => (s.partAt p).st != .free).map fun p => (s.powAt p).budget).sum ≤ s.pwr.chipLimit - s.pwr.reserve)

/-- The power values of a partition that is created (PWR_BUDGET_SET). -/
def State.powCreate (s : State) (p : Nat) : State :=
  (s.modPow p fun _ => { PowPart.init with
    budget := 120 * (bitsOf (s.partAt p).record.engines).length, since := s.nowFrame }).setEff p

/-! ### Capo (R437–R440) -/

/-- Capo in a field. -/
def State.capoAt (s : State) (f : Nat) : Capo := s.pwr.capo.get Capo.init f

/-- Changes Capo in a field. -/
def State.modCapo (s : State) (f : Nat) (g : Capo → Capo) : State :=
  { s with pwr := { s.pwr with capo := s.pwr.capo.upd Capo.init f g } }

/-- Marks that Capo moved a keep of a field in the frame that runs. -/
def State.capoMoved (s : State) (f : Nat) : State := s.modCapo f fun c => { c with moved := true }

/-- A field with 16 or more masked sensors runs the fixed stretch (R440). -/
def Capo.fixed (c : Capo) : Bool := decide (16 ≤ c.masked.length)

/-- The engines of a field. -/
def fieldEngines (f : Nat) : List Nat := (List.range 32).map fun i => f * 32 + i

/-- Sets the Capo keep of a field's engines; those stretched by it count as stretched in the frame that runs (R441). -/
def State.setKeeps (s : State) (f : Nat) (k : Nat → Nat) : State :=
  let t := s.capoMoved f
  { t with pwr := { t.pwr with
    keep := (fieldEngines f).foldl (fun t e => t.put 16 e (k e)) t.pwr.keep
    kept := (fieldEngines f).foldl (fun t e => if k e < 16 then t.put false e true else t) t.pwr.kept } }

/-- The Capo keep of an engine (R437–R440). -/
def State.capoKeep (s : State) (e : Nat) : Nat :=
  if (s.capoAt (engField e)).fixed then min 12 (s.pwr.keep.get 16 e) else s.pwr.keep.get 16 e

/-- k of an engine's divider (R421); one that joined a DRAINING partition stays gated (R449). -/
def State.clockKeep (s : State) (e : Nat) : Nat :=
  match s.engPart e with
  | none => 0
  | some p => if (s.powAt p).gated.contains e then 0 else min (min (s.powAt p).nominal (s.powAt p).tp) (s.capoKeep e)

/-- The ticks of the frame that closes for which an engine was stretched (R130, R441): all of them where Capo moved nothing in its field and holds it
stretched, what is reported, up to the frame, where Capo moved a keep and stretched it, and none otherwise (DEDUCED, notes/assumptions/97.md). -/
def State.stretchOf (s : State) (reported e : Nat) : Nat :=
  if (s.capoAt (engField e)).moved then (if s.pwr.kept.get false e then min 8192 reported else 0)
  else if s.capoKeep e < 16 then 8192 else 0

/-- A partition's ticks of the frame that closes: those of the engine that was stretched longest. -/
def State.stretchTicks (s : State) (p reported : Nat) : Nat :=
  (bitsOf (s.partAt p).record.engines).foldl (fun n e => max n (s.stretchOf reported e)) 0

/-- Capo at a frame boundary: tripped sensors count it (R440), and a new frame's stretch starts from what holds now. -/
def State.capoFrame (s : State) : State :=
  { s with pwr := { s.pwr with
    capo := s.pwr.capo.mapAll Capo.init fun _ c => { c with
      tripped := c.tripped.map fun x => (x.1, x.2 + 1), lanes := c.st == .whole, moved := false }
    kept := s.pwr.keep.filterMap fun e => if e.2 < 16 then some (e.1, true) else none } }

/-- DROOP_TRIP (R437, R439). -/
def droopTrip (f n : Nat) (s : State) : State :=
  if 4 ≤ f ∨ n / 64 ≠ f ∨ (s.capoAt f).masked.contains n then s
  else (s.modCapo f fun c => { c with
    st := .whole, lanes := true, detections := satAdd 16 c.detections 1
    tripped := if c.tripped.any fun x => x.1 == n then c.tripped else c.tripped ++ [(n, 0)] }).setKeeps f fun _ => 8

/-- DROOP_TRIP. -/
def execDroopTrip (f n : Nat) (s : State) : Host.Outcome State Fault Refusal := .next (s.live (droopTrip f n))

/-- The order in which Capo takes engines (R438): BEST_EFFORT first, then by `droop_prio`, partition and engine. -/
def State.capoOrder (s : State) (f : Nat) : List Nat :=
  let l := (fieldEngines f).filterMap fun e => (s.engPart e).map fun p => (p, e)
  (sortOn (fun (x : Nat × Nat) => let y := s.powAt x.1
    (((1 - y.droopCls) * 8 + y.droopPrio) * 64 + x.1 : Nat)) l).map Prod.snd

/-- Chooses engines until the cut suffices: Σ L × (16 − deep_keep) ≥ L_field × shed_x16 (R438). -/
def State.capoChoose (s : State) (need : Nat) : Nat → List Nat → List Nat
  | _, [] => []
  | sum, e :: t =>
    let l := s.pwr.report.get 0 e
    if need ≤ sum then [] else if l = 0 then s.capoChoose need sum t
    else e :: s.capoChoose need (sum + l * (16 - s.pwr.deepKeep)) t

/-- STRETCH_REASSIGN (R438). -/
def stretchReassign (f : Nat) (s : State) : State :=
  if (s.capoAt f).st ≠ .whole then s
  else
    let need := ((fieldEngines f).map fun e => s.pwr.report.get 0 e).sum * s.pwr.shed
    let chosen := s.capoChoose need 0 (s.capoOrder f)
    (s.modCapo f fun c => { c with st := .reassigned }).setKeeps f fun e => if chosen.contains e then s.pwr.deepKeep else 16

/-- STRETCH_REASSIGN. -/
def execStretchReassign (f : Nat) (s : State) : Host.Outcome State Fault Refusal := .next (s.live (stretchReassign f))

/-- RECOVERY_HOLD_END (R439): every unmasked sensor has recovered. -/
def execRecoveryHoldEnd (f : Nat) (s : State) : Host.Outcome State Fault Refusal :=
  .next (s.live fun s => if (s.capoAt f).st = .reassigned then s.modCapo f fun c => { c with st := .ramp, tripped := [] } else s)

/-- KEEP_RAMP_STEP (R439): the ramp ends when every keep is 16. -/
def keepRampStep (f : Nat) (s : State) : State :=
  if (s.capoAt f).st ≠ .ramp then s
  else
    let t := s.setKeeps f fun e => min 16 (s.pwr.keep.get 16 e + 1)
    if (fieldEngines f).all fun e => t.pwr.keep.get 16 e == 16 then t.modCapo f fun c => { c with st := .idle } else t

/-- KEEP_RAMP_STEP. -/
def execKeepRampStep (f : Nat) (s : State) : Host.Outcome State Fault Refusal := .next (s.live (keepRampStep f))

/-- A sensor of a field is due for masking (R440): it has stayed tripped through 64 frame boundaries, and 4 other sensors of its field read above the
recovery level, as far as Capo has seen no trip of them since. -/
def Capo.maskDue (c : Capo) (n : Nat) : Bool :=
  (c.tripped.any fun x => x.1 == n && decide (64 ≤ x.2)) &&
  decide (4 ≤ 64 - (c.tripped.filter fun x => x.1 != n).length - c.masked.length - 1)

/-- SENSOR_MASK (R440). -/
def sensorMask (f n : Nat) (s : State) : State :=
  if 4 ≤ f ∨ n / 64 ≠ f ∨ (s.capoAt f).masked.contains n = true ∨ (s.capoAt f).maskDue n = false then s
  else
    let t := s.modCapo f fun c => { c with masked := c.masked ++ [n], tripped := c.tripped.filter fun x => x.1 != n }
    (t.logRec { kind := 0x0011, part := 0xFF, place := f, a := n }).chipEvent

/-- SENSOR_MASK. -/
def execSensorMask (f n : Nat) (s : State) : Host.Outcome State Fault Refusal := .next (s.live (sensorMask f n))

end Sys2Proof.Machine
end

