-- ==== Sys2Proof/Machine/Card.lean ====
section
/-! DEFINITION. The Balcy card (R128–R131), and PART_QUERY's head and record (R101, R115), of 04_partitions. -/

namespace Sys2Proof.Machine

/-- The code of a partition state (R115). -/
def partCode : PartSt → Nat
  | .free => 0
  | .creating => 1
  | .live => 2
  | .resetting => 3
  | .destroying => 4

/-- A counter of a partition's byte vector (R547). -/
def State.bytesAt (s : State) (p i : Nat) : Nat := s.obs.pbytes.get 0 (p * 24 + i)

/-- The bytes of a partition since its create by FAST, SLOW, HOST and all link ports (R130, R547). -/
def State.byteTotals (s : State) (p : Nat) : List Nat :=
  [s.bytesAt p 2, s.bytesAt p 3, s.bytesAt p 4, ((List.range 18).map fun i => s.bytesAt p (6 + i)).sum]

/-- Starts a new epoch's figures: what it will have counted is relative to the totals now. -/
def State.newTally (s : State) (p : Nat) : Tally := { Tally.zero with bytes := s.byteTotals p }

/-- The figures of the epoch that ends (R130): byte differences and the contexts that are live now. -/
def State.closeTally (s : State) (p : Nat) : Tally :=
  let t := (s.partAt p).tally
  { t with
    bytes := (s.byteTotals p).zipWith (fun a b => a - b) t.bytes
    live := min 65535 ((s.ctxsOf p).filter fun e => e.2.st == .live).length }

/-- A value held to the largest of its width. -/
def sat (w n : Nat) : Nat × Nat := (w, min n (2 ^ w - 1))

/-- The card of a partition that is not FREE (R130). -/
def State.cardFields (s : State) (p : Nat) : List (Nat × Nat) :=
  let x := s.partAt p
  let r := x.record
  let t := x.last
  let total := s.byteTotals p
  let at_ := fun (l : List Nat) (i : Nat) => l.getD i 0
  [(16, 1), (8, p), (8, x.gen.toNat), (32, x.cardSeq.toNat), (3, partCode x.st), (1, bit s.beat.drift), (28, 0),
   (32, x.configSeq.toNat), (32, x.configFrame.toNat), (32, x.span.toNat), (64, s.beat.tick.toNat),
   (128, r.engines.toNat), (128, r.ways.toNat), (128, r.ranges.toNat), (256, r.ctxBlocks.toNat), (256, r.seqBlocks.toNat),
   (256, r.fenBlocks.toNat), (16, r.ringBase), (16, r.ringPages), (16, r.vecBase), (16, r.vecCount), (32, r.linkShare),
   (32, (s.powAt p).budget), (128, r.label.toNat), (384, 0),
   (64, x.epoch.toNat), sat 32 t.held, sat 32 t.busy, sat 32 t.admits, sat 32 t.batches, sat 16 t.served.length, sat 16 t.live,
   sat 16 t.maxGap, sat 16 t.misses, sat 64 (at_ t.bytes 0), sat 64 (at_ t.bytes 1), sat 64 (at_ t.bytes 2), sat 64 (at_ t.bytes 3),
   sat 64 t.short, sat 32 (t.energyNj / 1000000), sat 32 t.stretch, sat 16 t.ctxLost, sat 16 t.retries, sat 16 t.poisoned,
   sat 16 t.late, sat 16 t.l0, sat 16 t.l1, sat 16 t.l2, sat 16 t.l3, (1280, 0),
   sat 64 x.admitTotal, sat 64 (at_ total 0), sat 64 (at_ total 1), sat 64 (at_ total 2), sat 64 (at_ total 3),
   sat 64 (x.energyTotal / 1000000)]

/-- Lendor writes a partition's card (R128, R129): `seq` goes odd and then to the next even value; on the card of a FREE partition it reads 0
(R130). -/
def State.writeCard (s : State) (p : Nat) : State :=
  let t := s.modPart p fun x => { x with cardSeq := if x.st = .free then 0 else x.cardSeq + 2 }
  let x := t.partAt p
  let image := if x.st = .free then pack [(16, 1), (8, p), (8, x.gen.toNat)] else pack (t.cardFields p)
  t.modPart p fun y => { y with card := image }

/-- The partition record of a partition, with the `stage_mask` that a query shows (R101, R115). -/
def recordFields (r : PartRec) : List (Nat × Nat) :=
  [(32, 0x1FFF), (32, 0), (128, r.engines.toNat), (128, r.ways.toNat), (128, r.ranges.toNat), (256, r.ctxBlocks.toNat),
   (256, r.seqBlocks.toNat), (256, r.fenBlocks.toNat), (16, r.ringBase), (16, r.ringPages), (16, r.vecBase), (16, r.vecCount),
   (32, r.linkShare), (32, r.mbPasid), (32, r.hostPasid), (32, r.eventVec), (128, r.label.toNat), (256, 0)]

end Sys2Proof.Machine
end

