-- ==== Sys2Proof/Machine/Replay.lean ====
section
/-! DEFINITION. Suspect replay (R523–R525): the next suspect, and the verdict. -/

namespace Sys2Proof.Machine

/-- Takes an engine's tiles out of service: what it ran has ended. -/
def State.dropTiles (s : State) (e : Nat) : State :=
  (s.xl.tiles.filterMap fun x => match x.2 with
    | some t => if t.req.engine = e then some (x.1, t) else none
    | none => none).foldl (fun s x =>
      match x.2.st with
      | .faultWait i => (s.freeFaultSlot x.2.part i).dropTile x.1
      | _ => s.dropTile x.1) (s.purgeLanes fun g => (reqTag g.who).any fun y => y.1 == e)

/-- The rows of a context in a batch, as a replay runs them. -/
def Batch.only (b : Batch) (c : Nat) : Batch :=
  { b with rows := (b.rows.filter fun r => r.ctx == c).map fun r => { r with failed := none }, shared := none }

/-- A row of a batch leaves flight with no completion (R45). -/
def State.dropRow (s : State) (r : Row) : State :=
  (s.modSeq r.seq fun q => if r.prefill then { q with preFly := q.preFly - 1 } else { q with decFly := false }).seqLanded r.seq

/-- A row of a batch returns to ready; its context's charge returns (R205, R525). -/
def State.returnRow (s : State) (e : Nat) (r : Row) : State :=
  if (s.ctxAt r.ctx).gen = r.ctxGen then s.unadmit (engField e) r else s.dropRow r

/-- The record of a watchdog's verdict (R525, R540). -/
def State.verdict (s : State) (e : Nat) (r : Replay) (v guilty : Nat) : State :=
  s.logRec { kind := 0x0003, part := r.batch.part, place := e, a := e, b := r.batch.id.toNat, c := r.batch.ctxs.length,
             d := v + guilty * 65536 }

/-- Ends a replay with its verdict (R525): at most one suspect is guilty. -/
def State.endReplay (s : State) (e : Nat) (r : Replay) : State :=
  let t := s.modEng e fun x => { x with replay := none, back := true }
  let t := match r.guilty with
    | [] => t.verdict e r 0 0
    | c :: _ =>
      let t := t.verdict e r 1 c
      let t := t.loseCtx c 6 0 e
      (r.batch.rows.filter fun (x : Row) => x.ctx == c).foldl State.dropRow t
  t.swapCheck r.batch.group

/-- The next suspect of a replay goes to its engine (R524); one whose context is no longer LIVE under the tag's generation is
skipped and its rows dropped (R546). -/
def State.nextReplay (s : State) (e : Nat) : Nat → State
  | 0 => s
  | n + 1 =>
    match (s.engAt e).replay with
    | none => s
    | some r =>
      match r.todo with
      | [] => s.endReplay e r
      | c :: rest =>
        let b := r.batch.only c
        let live := b.rows.all fun x => (s.ctxAt c).gen == x.ctxGen && (s.ctxAt c).st == .live
        if live then
          let id := (s.engAt e).nextId + 1
          let b := { b with id := id, start := s.beat.tick.toNat }
          (s.modEng e fun x => { x with
            running := some (.batch b), wd := 0, nextId := id, replay := some { r with todo := rest, now := some c } }).dispatchBatch e
            (s.batchDesc b) b
        else
          ((b.rows.foldl State.dropRow s).modEng e fun x => { x with replay := some { r with todo := rest } }).nextReplay e n

end Sys2Proof.Machine
end

