-- ==== Sys2Proof/Machine/Complete.lean ====
section
/-! DEFINITION. WORK_COMPLETION and BATCH_COMPLETION: the statuses of rows and WORK (R44, R45, R246, R247, R502), their sequences
(R269–R275), the correction of charges (R177, R178), and the losses that follow (R517). -/

namespace Sys2Proof.Machine

/-! ### Engine time (R177, R178, R167) -/

/-- An estimate one eighth of the way to a measured value total ÷ n, rounded toward it (R178). -/
def moveEst (est total n : Nat) : Nat :=
  if est * n ≤ total then est + ceilDiv (total - est * n) (8 * n) else est - ceilDiv (est * n - total) (8 * n)

/-- Gives a context engine time back (R177). -/
def State.refund (s : State) (p c f : Nat) (back : Int) : State := s.chargeCtx p c f (-back)

/-- Counts engine time of a context (R167). -/
def State.engineTime (s : State) (c ns : Nat) : State :=
  s.modCtx c fun x => { x with now := { x.now with engineNs := x.now.engineNs + ns } }

/-- Counts the operations that an engine reports (R549). -/
def State.countOps (s : State) (p : Nat) (l : List (Nat × Nat)) : State :=
  l.foldl (fun s x => if x.1 < 45 then
    { s with obs := { s.obs with ops := s.obs.ops.upd 0 (p * 45 + x.1) fun n => (n + x.2) % 2 ^ 64 } } else s) s

/-- A dispatch credit of an engine frees; one that frees in window frames 32–63 counts for condition 4 (R187). -/
def State.freeCredit (s : State) (e : Nat) : State :=
  match if s.org.winStep = 1 then s.engPart e else none with
  | some p => { s with org := { s.org with credits := s.org.credits.upd 0 (p * 4 + engField e) fun n => n + 1 } }
  | none => s

/-- What ran on an engine has ended: its tiles are gone and the queued entry, if any, runs (R200). -/
def State.endJob (s : State) (e : Nat) : State :=
  ((s.dropTiles e).freeCredit e).modEng e fun x => { x with running := x.queued, queued := none, wd := 0 }

/-! ### Rows (R246, R247, R269–R275) -/

/-- The status of a row at its batch's completion (R247), with the `lost_reason` and address that it gives its context. -/
def Row.outcome (r : Row) (b : Batch) : Fail :=
  match b.shared with
  | some f => if f.status = .stepRetry then f else r.failed.getD f
  | none => r.failed.getD ⟨.ok, 0, 0⟩

/-- `len` advances past each position whose row completed OK (R272). -/
def Seq.advance (q : Seq) : Nat → Seq
  | 0 => q
  | n + 1 => if q.okAbove.contains q.len then Seq.advance { q with len := q.len + 1, okAbove := q.okAbove.filter (· != q.len) } n else q

/-- Completes the chunks that `len` has passed (R277). -/
def State.passChunks (s : State) (n : Nat) : State :=
  let q := s.seqAt n
  let done := q.chunks.filter fun c => decide (c.pos + c.tokens ≤ q.len)
  done.foldl (fun t c => t.complete c.ring c.desc .ok)
    (s.modSeq n fun q => { q with chunks := q.chunks.filter fun c => !decide (c.pos + c.tokens ≤ q.len) })

/-- A sequence enters READY in this frame (R269, R274). -/
def State.enterReady (s : State) (n : Nat) : State :=
  let t := s.tickOrder
  t.modSeq n fun q => { q with st := .ready, readyFrame := s.frame, readyAt := t.ten.order }

/-- A prefill row completed OK. -/
def State.prefillOk (s : State) (r : Row) (x : RowReport) : State :=
  let q := s.seqAt r.seq
  if q.st ≠ .filling then s
  else
    let t := s.modSeq r.seq fun q =>
      let q := if q.len ≤ r.pos ∧ q.okAbove.contains r.pos = false then { q with okAbove := q.okAbove ++ [r.pos] } else q
      let q := { q with token := if r.pos + 1 = q.prompt then BitVec.ofNat 32 x.token else q.token }
      Seq.advance { q with last := .ok } (q.okAbove.length + 1)
    let t := t.passChunks r.seq
    if (t.seqAt r.seq).len = q.prompt then t.enterReady r.seq else t

/-- A decode row completed OK. -/
def State.decodeOk (s : State) (b : Batch) (r : Row) (x : RowReport) (late : Bool) : State :=
  let q := s.seqAt r.seq
  if q.st ≠ .running then s
  else
    let end_ := x.stop || decide (q.len + 1 = q.maxLen)
    match s.stepRecord r.seq r.pos .ok late x.stop end_ b.baseGen x.token with
    | (t, false) => (t.modSeq r.seq fun q => { q with len := q.len + 1 }).failSeq r.seq .faultTranslation r.pos b.baseGen false false false
    | (t, true) =>
      let t := t.modSeq r.seq fun q => { q with len := q.len + 1, last := .ok, token := BitVec.ofNat 32 x.token }
      if end_ then t.modSeq r.seq fun q => { q with st := .ended } else t.enterReady r.seq

/-- A row completed STEP_RETRY (R272); the sequence shows it as the status of its last completed row (R290). -/
def State.retryRow (s : State) (r : Row) : State :=
  s.modSeq r.seq fun q =>
    if r.prefill then
      { q with next := min q.next r.pos, okAbove := q.okAbove.filter fun p => decide (p < r.pos), last := if q.st = .filling then .stepRetry else q.last }
    else if q.st = .running then { q with st := .ready, last := .stepRetry } else q

/-- A row of a live context completes with its status. -/
def State.landRow (s : State) (b : Batch) (r : Row) (x : RowReport) : State :=
  let f := r.outcome b
  let late := s.late r.dl
  let s := s.modSeq r.seq fun q => if r.prefill then { q with preFly := q.preFly - 1 } else { q with decFly := false }
  let s := s.modPart b.part fun p => { p with tally := { p.tally with
    late := satAdd 16 p.tally.late (bit late), retries := satAdd 16 p.tally.retries (bit (f.status == .stepRetry)),
    poisoned := satAdd 16 p.tally.poisoned (bit (f.status == .poisoned)) } }
  let s := s.modCtx r.ctx fun c => { c with now := { c.now with misses := satAdd 32 c.now.misses (bit late) } }
  let t := match f.status with
    | .ok => if r.prefill then s.prefillOk r x else s.decodeOk b r x late
    | .stepRetry => s.retryRow r
    | st =>
      let q : Seq := s.seqAt r.seq
      if q.st = SeqSt.filling ∨ q.st = SeqSt.ready ∨ q.st = SeqSt.running then s.failSeq r.seq st r.pos b.baseGen true late (x.stop && !r.prefill) else s
  t.seqLanded r.seq

/-- A row's completion: dropped when its context's generation has moved on (R45) or the batch was opened under an old `part_gen`
(R502). -/
def State.completeRow (s : State) (b : Batch) (r : Row) (x : RowReport) : State :=
  if (s.ctxAt r.ctx).gen ≠ r.ctxGen ∨ (s.partAt b.part).gen ≠ b.partGen then
    (s.dropRow r).modCtx r.ctx fun c => { c with revoke := c.revoke.map fun v => { v with rows := v.rows + 1 } }
  else s.landRow b r x

/-- The context of a row whose status costs it becomes LOST (R515, R517). -/
def State.loseRow (s : State) (b : Batch) (r : Row) : State :=
  let f := r.outcome b
  if f.reason = 0 ∨ (s.ctxAt r.ctx).gen ≠ r.ctxGen then s else s.loseCtx r.ctx f.reason f.addr r.seq

/-- Corrects the charges of a context's rows, and counts its engine time and SRAM bytes (R177, R167, R548). -/
def State.settleCtx (s : State) (b : Batch) (f time sram c : Nat) : State :=
  let mine := b.rows.filter fun r => r.ctx == c
  let n := b.rows.length
  let k := mine.length
  if (mine.any fun r => (s.ctxAt c).gen != r.ctxGen) = true then s
  else
    let back : Int := (((mine.map Row.charge).sum * n : Nat) - (k * time : Nat) : Int).tdiv n
    ((s.refund b.part c f back).engineTime c (k * time / n)).countCtx c 0 (k * sram / n)

/-- A batch completes (R44, R247): rows, charges, losses, STEP fences and the slot it read. -/
def State.completeBatch (s : State) (e : Nat) (b : Batch) (reports : List RowReport) (r : EngineReport) : State :=
  let f := engField e
  let time := s.beat.tick.toNat - b.start
  let n := b.rows.length
  let current := (s.partAt b.part).gen == b.partGen
  let t := b.rows.zipIdx.foldl (fun t (y : Row × Nat) => t.completeRow b y.1 ((reports[y.2]?).getD ⟨0, false⟩)) s
  let t := b.ctxs.foldl (fun t c => t.settleCtx b f time r.sram c) t
  let t := if n = 0 then t else t.modGroup b.group fun g => if g.owner = some b.part then { g with est := moveEst g.est time n } else g
  let t := t.countPart b.part 0 r.sram
  let t := if current then t.countOps b.part r.ops else t
  let t := b.rows.foldl (fun t x => t.loseRow b x) t
  let retry := b.rows.any fun x => (x.outcome b).status == .stepRetry
  let t := if current && !retry then t.stepGroup b.group else t
  t.swapCheck b.group

/-! ### Engines that leave (R111) -/

/-- An engine that a set took from its partition and that holds nothing is drained (R111): its operand cache is snooped out (R411) and its
save slot is cleared. -/
def State.drainEngine (s : State) (p e : Nat) : State :=
  let x := s.engAt e
  if x.chosen.isSome || !x.idle || !s.engQuiet e || !(x.st == .service || x.st == .failed) then s
  else
    let t := s.probeEngine e
    (t.modPart p fun y => { y with drainEng := y.drainEng &&& ~~~(1#128 <<< e) }).markSlot e none

/-- The drain of an engine ends with what it ran, unless its partition is being destroyed (R111, R116). -/
def State.drained (s : State) (e : Nat) : State :=
  (parts.filter fun p => (s.partAt p).drainEng.getLsbD e && (s.partAt p).st != .destroying).foldl (fun t p => t.drainEngine p e) s

/-- A job has ended at an engine: its freed credit chooses, an open batch closes (R182, R185), and an engine that left is drained. -/
def State.jobEnded (s : State) (e : Nat) : State :=
  match s.engPart e with
  | some p => (s.settlePart p (engField e)).drained e
  | none => s.drained e

/-- A write of the engine's job has still to be accepted by its gate lane or its peer: the job's completion waits for it (R44, R156). -/
def State.writesWait (s : State) (e : Nat) : Bool :=
  (s.xl.tiles.any fun x => match x.2 with
    | some y => y.req.engine == e && y.req.write
    | none => false) ||
  s.mem.lanes.any fun x => x.2.any fun h => isWrite h.req.acc && (reqTag h.req.who).any fun y => y.1 == e

/-- BATCH_COMPLETION, once every write is accepted (R44; the report waits at the port: DESIGN CHOICE, notes/assumptions/79.md). A completed
replay clears its suspect, and the next one follows (R524). -/
def batchCompletion (e : Nat) (rows : List RowReport) (r : EngineReport) (s : State) : State :=
  match if s.writesWait e then none else (s.engAt e).running with
  | some (.batch b) =>
    let t := (s.endJob e).modEng e fun x => { x with ran := some b.part }
    match (s.engAt e).replay with
    | some y =>
      let t := (t.modEng e fun x => { x with replay := some { y with now := none } }).completeBatch e b rows r
      (t.nextReplay e (y.todo.length + 1)).jobEnded e
    | none => (t.completeBatch e b rows r).jobEnded e
  | _ => s

/-- BATCH_COMPLETION. -/
def execBatchCompletion (e : Nat) (rows : List RowReport) (r : EngineReport) (s : State) : Host.Outcome State Fault Refusal :=
  .next (s.live (batchCompletion e rows r))

/-! ### WORK -/

/-- The status of a WORK at its completion (R502, R520). -/
def State.workStatus (s : State) (w : WorkRun) : Status :=
  if (s.partAt w.part).gen ≠ w.partGen then .staleGeneration
  else if (s.ctxAt w.ctx).gen ≠ w.ctxGen then .contextLost
  else (w.failed.map Fail.status).getD .ok

/-- WORK_COMPLETION, once every write of the command buffer is accepted (R156; DESIGN CHOICE, notes/assumptions/79.md). The operations of work that a
revocation or a reset aborted do not count (R520, R549). -/
def workCompletion (e : Nat) (r : EngineReport) (s : State) : State :=
  match if s.writesWait e then none else (s.engAt e).running with
  | some (.work w) =>
    let f := engField e
    let time := s.beat.tick.toNat - w.start
    let st := s.workStatus w
    let t := (s.endJob e).complete w.ring w.desc st
    let t := t.modPart w.part fun p => { p with tally := { p.tally with poisoned := satAdd 16 p.tally.poisoned (bit (st == .poisoned)) } }
    let same := (t.ctxAt w.ctx).gen == w.ctxGen
    let t := if same then
        (((t.refund w.part w.ctx f ((w.charge : Int) - time)).engineTime w.ctx time).countCtx w.ctx 0 r.sram).modCtxf w.ctx f fun x =>
          { x with workEst := moveEst x.workEst time 1 }
      else t
    let t := t.countPart w.part 0 r.sram
    let t := if same && (t.partAt w.part).gen == w.partGen then t.countOps w.part r.ops else t
    let t := match w.failed with
      | some x => if same ∧ x.reason ≠ 0 then t.loseCtx w.ctx x.reason x.addr w.ring else t
      | none => t
    t.jobEnded e
  | _ => s

/-- WORK_COMPLETION. -/
def execWorkCompletion (e : Nat) (r : EngineReport) (s : State) : Host.Outcome State Fault Refusal :=
  .next (s.live (workCompletion e r))

end Sys2Proof.Machine
end

