-- ==== Sys2Proof/Machine/Maint.lean ====
section
/-! DEFINITION. The gate family: RANGE_SET, MAINT_START, MAINT_QUERY, MAINTENANCE_SLOT and PARKED_RESUME (12_memory_gate). -/

namespace Sys2Proof.Machine

/-! ### RANGE_SET (R386) -/

/-- `op` of a RANGE_SET. -/
def rangeOp (d : Nat) : Nat := fld d 1 0 2

/-- The fields that a RANGE_SET operation does not use. -/
def rangeReserved (op : Nat) : List (Nat × Nat × Nat) :=
  [(0, 7, 1), (1, 3, 5), (6, 0, 16), (24, 0, 64)] ++
  match op with
  | 1 => [(1, 2, 1), (2, 0, 16), (4, 0, 16), (8, 0, 128)]
  | 2 => [(1, 2, 1), (2, 0, 16), (8, 0, 128)]
  | _ => []

/-- The block of a local address (R357). -/
def blockOf (a : Nat) : Nat := if localTier a = some 2 then a / 2 ^ 34 else a / 2 ^ 36

/-- A range with its tag extent meets R360 against the map of R357. -/
def extentFits (base len : Nat) : Bool :=
  let last := base + len + len / 16 - 1
  base % 2097152 == 0 && len % 2097152 == 0 && decide (2097152 ≤ len) && decide (base < 2 ^ 48) &&
  (localTier base).isSome && localTier base == localTier last && blockOf base == blockOf last &&
  (if localTier base = some 2 then decide (last < 0x005F80000000) else decide (last < 0x027F00000000))

/-- An even slot number of at most 510. -/
def evenSlot (n : Nat) : Bool := n % 2 == 0 && decide (n ≤ 510)

/-- The checks of RANGE_SET, in order. -/
def rangeSetChecks (c : Cmd) : List (Bool × Status × Nat) :=
  let op := rangeOp c.pay
  let key := c.f 2 0 16
  let skim := c.f 4 0 16
  [
    (c.zeros (rangeReserved op), .rejectedInconsistent, 0x0005),
    (decide (op ≤ 2), .rejectedInconsistent, 0x0A00),
    ((op != 0 || (evenSlot key && (skim == 0xFFFF || (evenSlot skim && skim != key)))) && (op != 2 || skim == 0xFFFF || evenSlot skim),
      .rejectedInconsistent, 0x0A01),
    (op != 0 || extentFits (c.f 8 0 64) (c.f 16 0 64), .rejectedInconsistent, 0x0A02)]

/-- RANGE_SET at staging. -/
def runRangeSet (c : Cmd) (s : State) : State :=
  s.checked c (rangeSetChecks c) fun s =>
    s.stage c [(c.f 0 0 7, c.pay)]

/-- RANGE_SET. -/
def execRangeSet (k : Take) (s : State) : Host.Outcome State Fault Refusal := .next (s.live (hawk 0x0A01 anyCmd k runRangeSet))

/-- Counts a load of a slot pair into lane key registers (R454). -/
def State.useSlots (s : State) (n : Nat) : State :=
  [n, n + 1].foldl (fun s i => { s with sec := { s.sec with slots := s.sec.slots.upd KeySlot.init i fun k =>
    if k.loaded then { k with count := inc32 k.count } else k } }) s

/-- Applies a RANGE_SET entry (R359). -/
def State.applyRange (s : State) (d : Nat) : State :=
  let r := fld d 0 0 7
  match rangeOp d with
  | 0 => s.modRange r fun _ => { Range.init with
      st := .clearing, act := fld d 1 2 1 == 1, keySlot := fld d 2 0 16, skimSlot := fld d 4 0 16, base := fld d 8 0 64, len := fld d 16 0 64 }
  | 1 => s.modRange r fun _ => Range.init
  | _ => s.modRange r fun x => { x with skimSlot := fld d 4 0 16 }

/-- The slots that a pair names are a scramble and a tag slot, and none is Lendor's (R387). -/
def State.pairFits (s : State) (n : Nat) : Bool :=
  let a := s.sec.slots.get KeySlot.init n
  let b := s.sec.slots.get KeySlot.init (n + 1)
  a.loaded && b.loaded && a.use == 0 && b.use == 1 && a.binding != 0xFE && b.binding != 0xFE

/-- The slots of a pair are bound to a partition or to none (R387, R110). -/
def State.pairBinds (s : State) (p n : Nat) : Bool :=
  [n, n + 1].all fun i => (s.sec.slots.get KeySlot.init i).binding == 0xFF || (s.sec.slots.get KeySlot.init i).binding == p

/-! ### MAINT_START (R388) -/

/-- The final response of MAINT_START. -/
def maintFields (s : State) (a : Activity) : List (Nat × Nat) :=
  [(8, a.code), (7, a.ranges.headD 0), (1, 0), (16, 0), (32, a.start.toNat), (32, s.frame), (32, a.lines), (32, a.fixed),
    (32, a.poisoned), (32, a.cleared), (32, 0)]

/-- A SKIM that Lendor queued on a range and that still waits. -/
def State.queuedSkim (s : State) (r : Nat) : Option Activity :=
  s.mem.acts.find? fun a => a.code == 2 && !a.running && a.ref.isNone && a.ranges.contains r

/-- Puts a command's SKIM in the place of the one that Lendor queued (R390). -/
def State.replaceSkim (s : State) (c : Cmd) (old new : Activity) : State :=
  if c.space < 32 then s.respond c.ref .ok 0 32 0 none
  else
    let rest := { s with mem := { s.mem with acts := s.mem.acts.filter fun a => a.id != old.id } }
    let park := rest.clashes new
    let t := s.modAct old.id fun a => { new with id := a.id, ref := some c.ref, parked := park }
    if park then t.respond c.ref .deferred 0 0 0 none else t

/-- The checks of R388 for TIER_MOVE. -/
def moveChecks (c : Cmd) (s : State) (k page dest tier : Nat) (word : Option Nat) : List (Bool × Status × Nat) :=
  let g := s.segAt k
  let w := word.getD 0
  ((ctxChecks c s (c.f 4 0 16) (c.f 6 0 8) false).map fun x => (x.1, x.2.1, 0x0A14)) ++ [
    (g.valid && g.node == s.ownNode && decide (page < g.pages) && entryPresent w, .faultTranslation, 0x0A16),
    (dest % g.pageSize == 0 && !(tier == entryTier w && dest == entryPhys w) && decide (tier ≤ 2) &&
      (tier == 0 || (dest / 2 ^ 48 == s.ownNode && g.keyFor tier != 0xFF && (s.rangeAt (g.keyFor tier)).holds (localAddr dest) &&
        (s.rangeAt (g.keyFor tier)).holds (localAddr dest + g.pageSize - 1) && localTier (localAddr dest) == some tier)),
      .rejectedInconsistent, 0x0A15)]

/-- The checks of MAINT_START, in order. -/
def maintStartChecks (c : Cmd) (s : State) : List (Bool × Status × Nat) :=
  let code := c.f 0 0 8
  let r := c.f 1 0 7
  let range := s.rangeAt r
  let k := segKey c.part (c.f 4 0 16) (c.f 7 0 4)
  let page := c.f 8 0 32
  let dest := c.f 16 0 64
  let tier := c.f 7 4 2
  let slot := if c.f 2 0 16 = 0xFFFF then range.skimSlot else c.f 2 0 16
  let word := if code = 3 ∧ (s.segAt k).valid ∧ page < (s.segAt k).pages then (s.tableWord c.part k page .clean).2 else none
  [
    (c.zeros [(1, 7, 1), (7, 6, 2), (12, 0, 32), (24, 0, 64)], .rejectedInconsistent, 0x0005),
    (code == 1 || code == 2 || code == 3 || code == 5, .rejectedInconsistent, 0x0A10),
    ((code != 1 && code != 2) || c.ref.mb == .manager, .notPermitted, 0x0A11),
    (code == 3 || (range.st == .owned && range.owner == c.part), .notPermitted, 0x0A12),
    (code != 2 || (slot != 0xFFFF && evenSlot slot && slot != range.keySlot && s.pairFits slot && s.pairBinds range.owner slot),
      .rejectedInconsistent, 0x0A13)] ++ (if code = 3 then moveChecks c s k page dest tier word else [])

/-- MAINT_START. -/
def runMaintStart (c : Cmd) (s : State) : State :=
  let code := c.f 0 0 8
  let r := c.f 1 0 7
  let range := s.rangeAt r
  let k := segKey c.part (c.f 4 0 16) (c.f 7 0 4)
  let page := c.f 8 0 32
  let dest := c.f 16 0 64
  let tier := c.f 7 4 2
  let slot := if c.f 2 0 16 = 0xFFFF then range.skimSlot else c.f 2 0 16
  let word := if code = 3 ∧ (s.segAt k).valid ∧ page < (s.segAt k).pages then (s.tableWord c.part k page .clean).2 else none
  s.checked c (maintStartChecks c s) fun s =>
    let w := word.getD 0
    if code = 3 then
      let g := s.segAt k
      let src := if entryTier w = 0 then [] else [g.keyFor (entryTier w)]
      let dst := if tier = 0 then [] else [g.keyFor tier]
      s.startActivity s c { Activity.new 3 (src ++ dst) c.part with seg := k, page := page, destTier := tier, dest := dest } 32
    else
      let a := { Activity.new code [r] c.part with skimSlot := slot }
      match if code = 2 then s.queuedSkim r else none with
      | some old => s.replaceSkim c old a
      | none => s.startActivity s c a 32

/-- MAINT_START. -/
def execMaintStart (k : Take) (s : State) : Host.Outcome State Fault Refusal := .next (s.live (hawk 0x0A02 anyCmd k runMaintStart))

/-! ### MAINT_QUERY (R389) -/

/-- The code of a range's state (R389). -/
def rangeCode : RangeSt → Nat
  | .undefined => 0
  | .clearing => 1
  | .free => 2
  | .owned => 3

/-- The checks of MAINT_QUERY, in order. -/
def maintQueryChecks (c : Cmd) (s : State) : List (Bool × Status × Nat) :=
  let r := c.f 0 0 7
  let x := s.rangeAt r
  [
    (c.zeros [(0, 7, 1), (1, 0, 56)], .rejectedInconsistent, 0x0005),
    (c.ref.mb == .manager || (x.st == .owned && x.owner == c.part), .notPermitted, 0x0A18)]

/-- MAINT_QUERY. -/
def runMaintQuery (c : Cmd) (s : State) : State :=
  let r := c.f 0 0 7
  let x := s.rangeAt r
  s.checked c (maintQueryChecks c s) fun s =>
    let acts := s.mem.acts.filter fun a => a.ranges.contains r
    let codes := fun (f : Activity → Bool) => ((List.range 6).map fun i => bit (acts.any fun a => a.code == i + 1 && f a) * 2 ^ i).sum
    let bad := (s.linesIn r).filter fun l => (s.lineAt l).st == .poisoned || (s.lineAt l).st == .shared
    let run := ((acts.find? fun a => a.running).map Activity.progress).getD 0
    s.answer s c [(7, r), (1, 0), (2, rangeCode x.st), (1, bit x.act), (2, x.keyGen), (1, bit x.overflow), (2, 0), (8, x.owner), (8, 0),
      (16, x.keySlot), (16, x.skimSlot), (64, x.base), (64, x.len), (6, codes Activity.running + 32 * bit s.log.run.isSome), (2, 0), (6, codes fun a => !a.running), (2, 0),
      (8, x.lost.length), (8, 0), (32, run), (64, x.frozen), (32, s.frozenLines r), (32, bad.length), (32, x.mismatch.toNat),
      (32, x.fixed.toNat), (32, x.blocked.toNat), (32, 0)]

/-- MAINT_QUERY. -/
def execMaintQuery (k : Take) (s : State) : Host.Outcome State Fault Refusal := .next (s.live (hawk 0x0A03 anyCmd k runMaintQuery))

/-! ### MAINTENANCE_SLOT (R379–R383) -/

/-- A line that a walk of SKIM, TAG_REBUILD or PATROL has still to read is blocked by a transaction (R403, R410): the walk ends in a later slot. -/
def State.walkBlocked (s : State) (a : Activity) : Bool :=
  (a.code == 1 || a.code == 2 || a.code == 5) && s.coh.txns.any fun (t : Txn) => a.ranges.any fun r => (s.rangeAt r).holds (t.req.line * 128)

/-- Ends an activity that has finished its last line: its walk, its end and its final response. -/
def State.endActivity (s : State) (bad : List (Nat × EccEvent)) (id : Nat) : State :=
  match s.actAt id with
  | none => s
  | some a =>
    if a.running = false ∨ ((a.code = 3 ∨ a.code = 4) ∧ a.complete = false) ∨
      ((a.code = 1 ∨ a.code = 2 ∨ a.code = 5) ∧ a.paced = false) ∨ s.walkBlocked a = true then s
    else
      let t := match a.code with
        | 1 => s.rebuild a bad
        | 2 => s.skim a bad
        | 5 => s.patrol a bad
        | _ => s
      let b := (t.actAt id).getD a
      let t := t.dropAct id
      if a.code = 4 then t.endLoad b else t.finishOpt b.ref .ok 0 32 (pack (maintFields t b))

/-- Starts a waiting activity that R381 allows. -/
def State.beginActivity (s : State) (id : Nat) : State :=
  match s.actAt id with
  | none => s
  | some a =>
    let blocked := s.mem.acts.any fun b => b.id != id && a.conflicts b && (b.running || decide (b.code < a.code))
    if a.running ∨ blocked then s
    else
      let t := s.modAct id fun a => { a with running := true, start := s.nowFrame, left := s.moveCost a }
      if a.code = 2 then t.useSlots a.skimSlot else t

/-- MAINTENANCE_SLOT: what has finished ends, then what may start starts, in class order and take order. While DUMP runs every
activity pauses (R382, R543). The slot follows the snapshot of the same boundary (R89). -/
def maintenanceSlot (bad : List (Nat × EccEvent)) (s : State) : State :=
  if s.beat.due.contains 8 = false ∨ s.epochWaits = true ∨ s.beat.due.contains 7 = true then s
  else
    let s := { s with beat := { s.beat with due := s.beat.due.filter fun x => x != 8 } }
    let t := if s.log.run.isSome then s
      else
        let t := (s.mem.acts.map Activity.id).foldl (fun t i => t.endActivity bad i) s
        ((sortOn (fun (a : Activity) => (a.code : Int)) t.mem.acts).map Activity.id).foldl State.beginActivity t
    t.servicePass

/-- MAINTENANCE_SLOT. -/
def execMaintenanceSlot (bad : List (Nat × EccEvent)) (s : State) : Host.Outcome State Fault Refusal := .next (s.live (maintenanceSlot bad))

/-- PARKED_RESUME (R62): the activity of a parked command runs, and its slot moves from PARKED to RUNNING. -/
def parkedResume (mb : Mailbox) (slot : Nat) (s : State) : State :=
  let x := (s.mbAt mb).slotAt slot
  match s.mem.acts.find? fun a => a.running && a.parked && a.ref == some ⟨mb, slot, x.ticket⟩ with
  | some a =>
    if x.st = .parked then
      (s.modMb mb fun b => b.modSlot slot fun x => { x with st := .running }).modAct a.id fun a => { a with parked := false }
    else s
  | none => s

/-- PARKED_RESUME. -/
def execParkedResume (mb : Mailbox) (slot : Nat) (s : State) : Host.Outcome State Fault Refusal := .next (s.live (parkedResume mb slot))

end Sys2Proof.Machine
end

