-- ==== Sys2Proof/Machine/Recover.lean ====
section
/-! DEFINITION. Recovery as shared operations: revocation (R519), dropped sets (R113), the partition reset (R528), the loss of a
domain (R413), and what an engine reset ends (R523). -/

namespace Sys2Proof.Machine

/-! ### Revocation (R519) -/

/-- Completes a ring's held WAITs with a status, and takes them off their fences (R519). -/
def State.endRingWaits (s : State) (r : Nat) (st : Status) : State :=
  ((s.ringAt r).running.filter fun d => d.type == 3).foldl (fun t d => t.complete r d st) (s.dropWaiters r)

/-- The descriptors of a ring that complete without running when its context is revoked (R519, R521): held WAITs, and those fetched or published unless
the ring has halted (R158) or a discarding unbind takes them without completion (R161). -/
def Ring.unstarted (x : Ring) : Nat :=
  let dropped := x.haltCode != 0 || (x.unbind.map Unbind.discard).getD false
  (if dropped then 0 else x.queue.length + ahead x.prod x.fetch) + (x.running.filter fun d => d.type == 3).length

/-- Disarms the probes of a partition that meet a condition (R560). -/
def State.disarm (s : State) (p : Nat) (f : Probe → Bool) : State :=
  { s with watch := { s.watch with probe := s.watch.probe.filter fun e => !(e.1 / 8 == p && f e.2) } }

/-- Revokes a context in one step (R519). `st` is the status of the entries that it writes; `why` the `lost_reason` of a LIVE
context. -/
def State.revokeCtx (s : State) (p c why : Nat) (st : Status) : State :=
  let rings := s.ctxRings c
  let seqs := s.openSeqs c
  let fences := (s.ctxFences c).filter fun f => (s.fenceAt f).st == .live
  let descs := (rings.map fun r => (s.ringAt r).unstarted).sum + (seqs.map fun q => (s.seqAt q).chunks.length).sum
  let t := (s.disarm p fun x => x.ctx == c).modCtx c fun x => { x with
    reason := if x.st = .live then BitVec.ofNat 16 why else x.reason, st := .lost, gen := nextGen x.gen
    revoke := x.revoke.map fun v => { v with descs := v.descs + descs, fences := v.fences + fences.length } }
  let t := if (s.ctxAt c).st = .live then t.modPart p fun x => { x with tally := { x.tally with ctxLost := satAdd 16 x.tally.ctxLost 1 } } else t
  let t := rings.foldl (fun t r => (t.flushRing r st).endRingWaits r st) t
  let t := seqs.foldl (fun t q => t.dropChunks q st) t
  let t := (t.dropOpenRows c).clearFloor c
  let t := seqs.foldl (fun t q =>
    if (t.seqAt q).st = .filling ∨ (t.seqAt q).st = .ready ∨ (t.seqAt q).st = .running then
      t.failSeq q .contextLost (t.seqAt q).len 0 false false false else t) t
  let t := fences.foldl State.abandonFence t
  let t := t.endWaits fun y => y.ctx == c && y.part == p
  s.eng.foldl (fun t e => match e.2.running with
    | some (.work w) => if w.ctx = c then { t with out := { t.out with aborts := t.out.aborts ++ [e.1] } } else t
    | _ => t) t

/-- Revokes every context of a partition that is LIVE or LOST; its probes disarm (R560). -/
def State.revokeAll (s : State) (p why : Nat) (st : Status) : State :=
  ((s.ctxsOf p).filter fun e => e.2.st != .free).foldl (fun t e => t.revokeCtx p e.1 why st) (s.disarm p fun _ => true)

/-- The LIVE contexts of a partition. -/
def State.liveCtxs (s : State) (p : Nat) : Nat := ((s.ctxsOf p).filter fun e => e.2.st == .live).length

/-- The LIVE fences of a partition. -/
def State.liveFences (s : State) (p : Nat) : Nat := ((s.fencesOf p).filter fun e => e.2.st == .live).length

/-! ### Pending sets and waiting commands (R113, R116) -/

/-- The response payload of a PART_COMMIT (R105). -/
def commitPay (frame seq : W32) (index entries detail : Nat) : Nat :=
  pack [(32, frame.toNat), (32, seq.toNat), (8, index), (8, entries), (16, detail), (32, 0)]

/-- `config_seq` of a set's addressed partition, 0 for a chip-level one. -/
def State.setSeq (s : State) (x : PendSet) : W32 := if x.part < 64 then (s.partAt x.part).configSeq else 0

/-- A set names a partition. -/
def PendSet.names (x : PendSet) (p : Nat) : Bool := x.part == p || x.create == some p || x.entries.any fun e => e.part == p

/-- Drops the pending sets that name a partition (R113). Each answers with the payload of PART_COMMIT; a dropped create has no entry, so that its
`fail_index` is 0xFF (DESIGN CHOICE, notes/assumptions/77.md). -/
def State.dropSets (s : State) (p : Nat) : State :=
  let out := s.box.sets.filter fun x => x.names p
  let t := { s with box := { s.box with sets := s.box.sets.filter fun x => !x.names p } }
  out.foldl (fun t x => t.finish x.ref .staleGeneration 0x0111 16
    (commitPay 0 (t.setSeq x) ((x.entries.findIdx? fun e => e.part == p).getD 0xFF) x.entries.length 0x0111)) t

/-- A slot waits for a command that names a partition. -/
def waitsFor (p key : Nat) (x : Slot) : Bool :=
  (x.st == .running || x.st == .parked) && (key == p || reqFld x.req 12 0 8 == p)

/-- Completes with STALE_GENERATION every parked or background command that names a partition, but one (R116). -/
def State.staleAll (s : State) (p : Nat) (but : Option SlotRef) : State :=
  s.box.mbx.foldl (fun t m =>
    let mb : Mailbox := if m.1 < 64 then .part m.1 else if m.1 = 64 then .manager else if m.1 = 65 then .security else .debug
    m.2.slots.foldl (fun t x =>
      if waitsFor p m.1 x.2 ∧ but.map (fun b => (b.mb, b.slot)) ≠ some (mb, x.1) then t.finish ⟨mb, x.1, x.2.ticket⟩ .staleGeneration 0 0 0 else t) t) s

/-- What a command that has not ended would still do is not done (R72): a swap before its swap point, an import, an activity, and a close, whose
sequence goes FREE with its last row and returns no page. A ring that is UNBINDING stays so until its last descriptor has completed: its table lets it
leave that state in one way only (R157; DEDUCED, notes/assumptions/61.md). -/
def State.stopCommand (s : State) (ref : SlotRef) : State :=
  let t : State := { s with ten := { s.ten with
    group := s.ten.group.mapAll Group.init fun _ (g : Group) => match g.swap with
      | some w => if w.ref = ref ∧ w.passed = false then { g with swap := none } else g
      | none => g } }
  let t := (t.fen.imports.filter fun w => w.ref == ref).foldl State.endImport t
  let t : State := { t with ten := { t.ten with
    seq := t.ten.seq.mapAll Seq.init fun _ (q : Seq) => if q.close.map Prod.fst = some ref then { q with close := none } else q } }
  let mine := t.mem.acts.filter fun a => a.ref == some ref
  let t := mine.foldl (fun t a => if a.code = 4 then t.modGroup a.group fun g => g.modSlot a.slot fun _ => BaseSlot.init else t) t
  { t with mem := { t.mem with acts := t.mem.acts.filter fun a => a.ref != some ref } }

/-- The commands of a partition mailbox's session complete with STALE_GENERATION when a reset of the partition ends it, and take no further
effect (R72). -/
def State.staleSession (s : State) (p : Nat) : State :=
  let b := s.mbAt (.part p)
  if b.open_ = false then s
  else
    (b.slots.filter fun x => (x.2.st == .running || x.2.st == .parked) && x.2.session == b.session).foldl (fun t x =>
      (t.stopCommand ⟨.part p, x.1, x.2.ticket⟩).finish ⟨.part p, x.1, x.2.ticket⟩ .staleGeneration 0 0 0) s

/-! ### Engines (R513, R523) -/

/-- A queued job that has not started returns: rows to ready and a WORK to its ring's head, with their charges (R205, R523). -/
def State.returnQueued (s : State) (e : Nat) : State :=
  match (s.engAt e).queued with
  | none => s
  | some (.batch b) => (b.rows.foldl (fun t r => t.returnRow e r) (s.modEng e fun x => { x with queued := none })).swapCheck b.group
  | some (.work w) =>
    let t := (s.modEng e fun x => { x with queued := none }).modRing w.ring fun x => { x with
      running := x.running.filter (fun d => d.index != w.desc.index), queue := w.desc :: x.queue }
    (if (t.ctxAt w.ctx).gen = w.ctxGen then t.refund w.part w.ctx (engField e) w.charge else t).unbindCheck w.ring

/-- Ends a job with no result: a WORK's entry carries a status, rows leave flight (R502). -/
def State.dropJob (s : State) (st : Status) : Option Job → State
  | none => s
  | some (.batch b) => (b.rows.foldl State.dropRow s).swapCheck b.group
  | some (.work w) => s.complete w.ring w.desc st

/-- The batch that a reset ends at an engine ran in this frame (R130). -/
def Engine.ranNow (x : Engine) : Option Nat :=
  match x.running with
  | some (.batch b) => some b.part
  | _ => x.ran

/-- A reset of an engine whose partition is reset or destroyed (R513, R528): its operand cache is snooped out, what it held ends, no replay goes on, its
count of batches starts anew (R242). -/
def State.resetEngine (s : State) (e : Nat) : State :=
  let x := s.engAt e
  let t := ((s.probeEngine e).dropTiles e).modEng e fun y => { y with
    running := none, queued := none, open_ := none, chosen := none, replay := none, wd := 0, back := false, nextId := 0, ran := x.ranNow
    st := if y.st = .failed then .failed else .service }
  let t := t.dropJob .staleGeneration x.queued
  match x.replay with
  | some r => (r.batch.rows.filter fun (y : Row) => r.todo.contains y.ctx || r.now == some y.ctx || r.guilty.contains y.ctx).foldl State.dropRow t |>.swapCheck r.batch.group
  | none => t.dropJob .staleGeneration x.running

/-- Ends the replays of a partition's engines without a verdict (R528, R546): their engines serve again. -/
def State.endReplays (s : State) (p : Nat) : State :=
  (bitsOf (s.partAt p).record.engines).foldl (fun t e =>
    match (t.engAt e).replay with
    | some _ => t.resetEngine e
    | none => if (t.engAt e).st = .resetting ∨ (t.engAt e).st = .quarantined then t.resetEngine e else t.modEng e fun x => { x with wd := 0 }) s

/-! ### The partition reset (R528) -/

/-- The engines of a partition, open batches included, stop forming work. -/
def State.stopForming (s : State) (p : Nat) : State :=
  ((bitsOf (s.partAt p).record.engines).foldl (fun t e => t.modEng e fun x => { x with open_ := none, chosen := none }) s).swapChecks p

/-- A partition reset starts (R528). `write` tells that dirty lines go to memory (a PART_RESET). -/
def State.startReset (s : State) (p reason : Nat) (ref : Option SlotRef) (write : Bool) : State :=
  let lost := s.liveCtxs p
  let fences := s.liveFences p
  let t := s.modPart p fun x => { x with st := .resetting, gen := nextGen x.gen, reset := some ⟨ref, reason, lost, fences, s.beat.tick⟩ }
  let t := ((t.dropSets p).staleSession p).endSession (.part p) true
  let t := ((t.revokeAll p 8 .staleGeneration).stopForming p).endReplays p
  let t := (bitsOf (t.partAt p).record.engines).foldl (fun t e =>
    if (t.engAt e).running.isSome then { t with out := { t.out with aborts := t.out.aborts ++ [e] } } else t) t
  (if write then (t.snoopEngines p).snoopWays p else t).powReset p

/-- Loss of a partition domain (R413): owned lines are POISONED, every cached line goes, open transactions end, and the
partition is reset. -/
def State.loseDomain (s : State) (d agent cause : Nat) : State :=
  if d = 64 then s.needReset 1 agent
  else if (s.partAt d).st ≠ .live ∧ (s.partAt d).st ≠ .resetting ∧ (s.partAt d).st ≠ .destroying then s
  else
    let mine := s.coh.copy.filter fun e => s.ownsLine d e.1
    let t := mine.foldl (fun t e => if e.2.any fun c => c.own then t.poisonLine e.1 .poisoned else t) s
    let ended := (t.coh.txns.filter fun x => x.req.domain == d).map fun x =>
      let fill := x.req.op == 0x04 || x.req.op == 0x05 || x.req.op == 0x06 || x.req.op == 0x10
      ((if fill then 3 else 2), { x.req with op := 0x01, src := x.req.dst, dst := x.req.src, status := .poisoned, state := 0, dirty := false, data := 0 })
    let t := { t with coh := { t.coh with
      lost := if t.coh.lost.contains d then t.coh.lost else d :: t.coh.lost
      copy := t.coh.copy.filter fun (e : Nat × List Copy) => !t.ownsLine d e.1
      txns := t.coh.txns.filter fun (x : Txn) => x.req.domain != d
      net := (t.coh.net.filter fun (x : Nat × Msg) => x.2.domain != d) ++ ended
      wait := t.coh.wait.mapAll [] fun _ l => l.filter fun (x : Nat × Nat) => x.2 != d
      granted := t.coh.granted.mapAll [] fun _ l => l.filter fun (x : Nat × Nat) => x.2 != d } }
    let t := [132, 133, 134, 135].foldl (fun t h => t.ticketAll h (t.coh.wait.get [] h).length) (t.poisonLanes d)
    let t := t.logRec { kind := 0x0015, part := d, a := d, b := agent, c := cause }
    if (s.partAt d).st = .live then t.startReset d (0xFFFF0000 + 8) none false else t

end Sys2Proof.Machine
end

