-- ==== Sys2Proof/Machine/Rights.lean ====
section
/-! DEFINITION. Debug rights and levels (R472–R476), and what ends when a right leaves effect (R495), of
15_keys_lifecycle_debug and 16_state_combinations. -/

namespace Sys2Proof.Machine

/-- The code of a life-cycle state (R483). -/
def lcCode : Lc → Nat
  | .blank => 0
  | .fabTest => 1
  | .provision => 2
  | .deploy => 3
  | .analysis => 4
  | .scrap => 5

/-- The life-cycle state of a code. -/
def lcOf : Nat → Option Lc
  | 0 => some .blank
  | 1 => some .fabTest
  | 2 => some .provision
  | 3 => some .deploy
  | 4 => some .analysis
  | 5 => some .scrap
  | _ => none

/-- The rights that the state itself gives (R464, R473). -/
def stateRights : Lc → BitVec 8
  | .blank | .fabTest => 0x7F
  | _ => 0

/-- The rights that a certificate can bring into effect (R464). -/
def certMask : Lc → BitVec 8
  | .provision | .deploy => 0x1F
  | .analysis => 0x7F
  | _ => 0

/-- The rights that a challenge grant can bring into effect (R464). -/
def grantMask : Lc → BitVec 8
  | .provision | .deploy | .analysis => 0xFF
  | _ => 0

/-- The rights that a certificate may list (R476). -/
def certLimit : Lc → BitVec 8
  | .analysis => 0x7F
  | _ => 0x1F

/-- A certificate serves as far as its state, rights and revocation level go (R476). -/
def Sec.certFits (x : Sec) (c : Cert) : Bool :=
  c.lcMask.testBit (lcCode x.lc) && (BitVec.ofNat 8 c.rights &&& ~~~(certLimit x.lc)) == 0 && decide (x.rev ≤ c.rev)

/-- The rights of the held certificate while it serves. -/
def Sec.certRights (x : Sec) : BitVec 8 :=
  match x.cert with
  | some (c, true) => if x.certFits c then BitVec.ofNat 8 c.rights &&& certMask x.lc else 0
  | _ => 0

/-- The rights of the challenge grant. -/
def Sec.grantRights (x : Sec) : BitVec 8 := BitVec.ofNat 8 (x.grant.getD 0) &&& grantMask x.lc

/-- Plumb has entered LOCKED at least once since the start (R476). -/
def State.lockedOnce (s : State) : Bool := s.beat.plumb != .acquire && !s.beat.never

/-- The rights in effect (R473, R488): before the first lock those of the state alone (R489). What acts on them reads the record that the island writes and
MACs under slot 1; no command alters the record, so that its MAC always matches. -/
def State.rights (s : State) : BitVec 8 :=
  if s.imageBad then 0 else stateRights s.sec.lc ||| (if s.lockedOnce then s.sec.certRights ||| s.sec.grantRights else 0)

/-- A right is in effect, by its bit in R472. -/
def State.hasRight (s : State) (n : Nat) : Bool := s.rights.getLsbD n

/-- The debug level in effect (R472): CLOSED 0, OBSERVE 1, CONTROL 2, FULL 3. -/
def State.level (s : State) : Nat :=
  if s.rights &&& 0x60 ≠ 0 then 3 else if s.rights &&& 0x1C ≠ 0 then 2 else if s.rights &&& 3 ≠ 0 then 1 else 0

/-- A core runs on, and its engines return at the next frame boundary (R563). -/
def State.releaseCore (s : State) (c : Nat) : State :=
  if s.coreStopped c then s.modCore c fun x => { x with st := .idle, back := true, frames := 0 } else s

/-- Every breakpoint hold is released (R492, R495). -/
def State.releaseHolds (s : State) : State := (List.range 8).foldl State.releaseCore s

/-- Every breakpoint is cleared. -/
def State.clearBps (s : State) : State := (List.range 8).foldl (fun t c => t.modCore c fun x => { x with bps := [] }) s

/-- Changes the trace port. -/
def State.modTrace (s : State) (f : Trace → Trace) : State := { s with watch := { s.watch with trace := f s.watch.trace } }

/-- A TAP instruction in which Lendor's clocks stand (R491). -/
def TapIr.stops (ir : TapIr) : Bool := ir == .intest || ir == .scan

/-- The TAP leaves INTEST or internal scan: a chip reset is due, and the clocks run again unless the new instruction is the other of the two (R491). -/
def State.leaveScan (s : State) (ir : TapIr) : State :=
  let was := s.board.tap
  let t := { s with board := { s.board with tap := ir } }
  if was.stops = true ∧ ir ≠ was then
    ({ t with chip := { t.chip with stopped := ir.stops } } : State).needReset 6 0
  else t

/-- What ends when rights leave effect (R495): `old` were in effect before. The port itself needs either trace right (R566), and stops with the
last of them (DEDUCED, notes/assumptions/58.md). -/
def State.endRights (s : State) (old : BitVec 8) : State :=
  let gone := fun (n : Nat) => old.getLsbD n && !s.hasRight n
  let t := if gone 1 then s.modTrace fun x => { x with counter := false, period := 1, parts := 0, frames := 0 } else s
  let t := if gone 2 then t.modTrace fun x => { x with instr := false, stall := false, cores := 0 } else t
  let t := if (gone 1 ∨ gone 2) ∧ s.hasRight 1 = false ∧ s.hasRight 2 = false then t.modTrace fun x => { x with port := false, lanes := 0 } else t
  let t := if gone 3 then t.releaseHolds.clearBps else t
  if gone 6 ∧ (t.board.tap = .extest ∨ t.board.tap = .intest ∨ t.board.tap = .scan) then t.leaveScan .bypass else t

/-- Makes a change to the security state, and ends what the rights that leave effect gave. -/
def State.changeSec (s : State) (f : Sec → Sec) : State := ({ s with sec := f s.sec } : State).endRights s.rights

end Sys2Proof.Machine
end

