-- ==== Sys2Proof/Machine/TraceOps.lean ====
section
/-! DEFINITION. The trace port (R565): its packets, its FIFO and what is lost, and the codes of the board pairs (R571, R572), as
shared operations. -/

namespace Sys2Proof.Machine

/-! ### Board pairs (R571, R572) -/

/-- A board pair by its number. -/
def State.pairAt (s : State) (n : Nat) : Pair := s.board.pair.get Pair.init n

/-- A pair's code changes: it is counted, and a chip event and a platform event go out (R572, R581). -/
def State.setCode (s : State) (n code : Nat) : State :=
  let t := ({ s with board := { s.board with
    pair := s.board.pair.put Pair.init n ⟨code, 0, 0⟩, changes := inc32 s.board.changes, changed := s.beat.tick } } : State).chipEvent
  { t with out := { t.out with pldm := t.out.pldm ++ [(14 + n, code)] } }

/-- One sample of a pair: `code` is what it shows, 0 for good (R572). Absent pairs are not checked (R571). -/
def State.samplePair (s : State) (n code : Nat) : State :=
  let x := s.pairAt n
  if x.code = 6 ∨ 5 < code ∨ 17 ≤ n then s
  else if code = 0 then
    if x.code ≠ 0 ∧ 16 ≤ x.good + 1 then s.setCode n 0
    else { s with board := { s.board with pair := s.board.pair.put Pair.init n ⟨x.code, 0, if x.code = 0 then 0 else x.good + 1⟩ } }
  else if x.code ≠ code ∧ 4 ≤ x.bad + 1 then s.setCode n code
  else { s with board := { s.board with pair := s.board.pair.put Pair.init n ⟨x.code, if x.code = code then 0 else x.bad + 1, 0⟩ } }

/-- The trace lanes that are fitted and OK (R573). -/
def State.usableLanes (s : State) : BitVec 4 := maskOf 4 ((List.range 4).filter fun l => (s.pairAt (1 + l)).code == 0)

/-! ### Packets (R565) -/

/-- The packets that the FIFO holds: 256 KiB. -/
def fifoSize : Nat := 8192

/-- Puts a packet into the FIFO. A full FIFO or a port with no usable lane loses it, unless its core stalls (R565, R578). -/
def State.pushPacket (s : State) (ptype source tick payload : Nat) (stall : Bool) : State :=
  let x := s.watch.trace
  if x.port = false then s
  else if s.usableLanes = 0 ∨ (fifoSize ≤ x.fifo.length ∧ stall = false) then
    (s.modTrace fun x => { x with lost := x.lost.upd 0 source (· + 1) }).countGlob 71 1
  else s.modTrace fun x => { x with
    fifo := x.fifo ++ [BitVec.ofNat 256 (pack [(8, ptype), (8, source), (16, x.pseq), (64, tick), (160, payload)])], pseq := (x.pseq + 1) % 65536 }

/-- A SYNC packet. -/
def State.syncPacket (s : State) : State :=
  s.pushPacket 0x01 0x20 s.beat.tick.toNat (pack [(9, s.ownNode), (23, 0), (32, s.log.inc.toNat), (8, match s.beat.plumb with
    | .acquire => 0
    | .locked => 1
    | .freeRun => 2
    | .drifting => 3
    | .resync => 4)]) false

/-- Sends a packet, and a SYNC packet after every 4,096 packets. -/
def State.packet (s : State) (ptype source payload : Nat) (stall : Bool) : State :=
  let t := s.pushPacket ptype source s.beat.tick.toNat payload stall
  if t.watch.trace.pseq % 4096 = 0 ∧ t.watch.trace.pseq ≠ s.watch.trace.pseq then t.syncPacket else t

/-- An OFFSET packet of a trained port. -/
def State.offsetPacket (s : State) (p : Nat) : State :=
  let x := s.net.ports.get Port.init p
  if x.up then s.packet 0x02 0x20 (pack [(8, p), (8, 0), (9, x.node), (7, 0), (16, unsigned 16 x.offset), (1, bit x.valid)]) false else s

/-- The OFFSET packets of every port. -/
def State.offsetPackets (s : State) : State := (List.range 18).foldl State.offsetPacket s

/-- A HALT packet of a core that is traced: 2 DRAINING, 3 HELD. -/
def State.haltPacket (s : State) (c st : Nat) : State :=
  let x := s.watch.trace
  if x.instr ∧ x.cores.getLsbD c then
    s.packet 0x13 c (pack [(32, (s.coreAt c).pc.toNat), (2, (s.coreAt c).hitBy), (2, st)]) x.stall
  else s

/-- The 69 counters of a partition: index and value. -/
def State.streamOf (s : State) (p : Nat) : List (Nat × Nat) :=
  ((List.range 24).map fun i => (i, s.obs.pbytes.get 0 (p * 24 + i))) ++
  (List.range 45).map fun j => (0x40 + j, s.obs.ops.get 0 (p * 45 + j))

/-- The counter stream at a frame boundary (TRACE_SET kind 2), unless a breakpoint has stopped the telemetry core (R564). -/
def State.counterStream (s : State) : State :=
  let x := s.watch.trace
  if x.counter = false ∨ s.coreStopped 7 = true then s
  else if x.frames + 1 < x.period then s.modTrace fun x => { x with frames := x.frames + 1 }
  else (bitsOf x.parts).foldl (fun t p => (s.streamOf p).foldl (fun t e =>
      t.packet 0x20 0x10 (pack [(8, p), (8, e.1), (16, 0), (64, e.2), (32, s.nowFrame.toNat)]) false) t)
    (s.modTrace fun x => { x with frames := 0 })

end Sys2Proof.Machine
end

