-- ==== Sys2Proof/Machine/Observe.lean ====
section
/-! DEFINITION. Observation: DIGEST_SET and the digest windows (R555–R560), BREAK_SET and breakpoints (R562–R564), TRACE_SET and
the trace port (R565, R566), of 19_observability. -/

namespace Sys2Proof.Machine

/-! ### Digests (R555–R560) -/

/-- The fields of a DIGEST_SET lie in their ranges: format, sizes, alignments and, outside MX formats, no scale extent. -/
def digestFields (c : Cmd) : Bool :=
  decide (c.f 1 0 4 ≤ 8 ∧ 4 ≤ c.f 3 0 4 ∧ c.f 3 0 4 ≤ 12 ∧ 1 ≤ c.f 12 0 16 ∧ c.f 12 0 16 ≤ 1024) &&
  c.f 16 0 64 % 128 == 0 && c.f 24 0 64 % 128 == 0 && c.f 48 0 64 % 4096 == 0 &&
  (isMx (c.f 1 0 4) || (c.f 32 0 64 == 0 && c.f 40 0 64 == 0))

/-- The checks of DIGEST_SET, in order (R560). -/
def digestSetChecks (c : Cmd) (s : State) : List (Bool × Status × Nat) :=
  [
    (c.zeros [(0, 5, 3), (1, 4, 4), (2, 5, 3), (3, 4, 4), (7, 0, 8), (8, 17, 15), (14, 0, 16), (56, 0, 64)], .rejectedInconsistent, 0x0005),
    (digestFields c, .rejectedInconsistent, 0x1000),
    (c.ref.mb != .manager || s.hasRight 0, .notPermitted, 0x1001)]

/-- DIGEST_SET at staging (R560; DEDUCED, notes/assumptions/36.md). -/
def runDigestSet (c : Cmd) (s : State) : State :=
  s.checked c (digestSetChecks c s) fun s => s.stage c [(c.f 0 0 3, c.pay)]

/-- DIGEST_SET. -/
def execDigestSet (k : Take) (s : State) : Host.Outcome State Fault Refusal := .next (s.live (hawk 0x1001 anyCmd k runDigestSet))

/-- The probe that a DIGEST_SET entry arms. -/
def armedProbe (d : Nat) : Probe :=
  ⟨true, fld d 0 4 1 == 1, fld d 1 0 4, fld d 2 0 4, fld d 2 4 1 == 1, fld d 3 0 4, fld d 4 0 16, BitVec.ofNat 8 (fld d 6 0 8), fld d 8 0 17,
    fld d 12 0 16, fld d 16 0 64, fld d 24 0 64, fld d 32 0 64, fld d 40 0 64, fld d 48 0 64, 0, 0, Digest.zero⟩

/-- Applies a DIGEST_SET entry: its window opens now (R558). -/
def State.applyDigest (s : State) (p d : Nat) : State :=
  s.modProbe p (fld d 0 0 3) fun _ => if fld d 0 3 1 = 1 then Probe.init else armedProbe d

/-- The checks of R560 at PART_COMMIT, over the projected state. -/
def State.digestChecks (s : State) (p d : Nat) : List (Bool × Status × Nat) :=
  let x := armedProbe d
  let off := fld d 0 3 1 == 1
  let g := s.segAt (segKey p x.ctx x.seg)
  let inside := fun (a n : Nat) => g.valid && g.write && decide (g.base ≤ a ∧ a + n ≤ g.base + g.limit)
  let bytes := 128 * 2 ^ x.logSize
  [(off || ((s.partAt p).record.hasCtx x.ctx && (s.ctxAt x.ctx).st == .live && (s.ctxAt x.ctx).gen == x.gen), .rejectedInconsistent, 0x1002),
   (off || (inside x.start x.length && (x.scaleLen == 0 || inside x.scaleAt x.scaleLen)), .rejectedInconsistent, 0x1003),
   (off || (s.covered p x.ctx x.out bytes true && !overlap x.out bytes x.start x.length && !overlap x.out bytes x.scaleAt x.scaleLen),
     .rejectedInconsistent, 0x1004),
   (decide ((s.watch.probe.filter fun e => e.2.armed).length ≤ 64), .rejectedInconsistent, 0x1005)]

/-- A sum of a record: the order of the additions is open (R559; DEDUCED, notes/assumptions/27.md). -/
def State.digestSum (s : State) (d : Digest) : Nat × State :=
  if d.elements = 0 then (0, s) else ((Config.digestSum s.free).toNat, { s with free := s.free + 1 })

/-- The record of a window (R558). -/
def Probe.record (x : Probe) (i : Nat) (frame : W32) (sum sumsq : Nat) : Nat :=
  let d := x.acc
  pack [(32, frame.toNat), (3, i), (1, if x.n.testBit x.logSize then 0 else 1), (4, x.format), (24, 0), (64, d.elements),
    (64, (d.lo.map binary64).getD 0), (64, (d.hi.map binary64).getD 0), (64, sum), (64, sumsq), (32, d.nan), (32, d.inf), (64, d.digest.toNat),
    (64, d.lines), (32, d.partials), (32, d.straddled), (8, if d.scales = d.scaleNan then 0 else d.scaleMin), (8, d.scaleMax), (16, d.scaleNan),
    (32, d.scales), (32, d.unseen)]

/-- A digest record's write faults (R558): the probe is disarmed, the loss counts, and the partition hears of it. -/
def State.digestLost (s : State) (p i : Nat) : State := ((s.modProbe p i fun _ => Probe.init).countGlob 70 1).partEvent p

/-- DIGEST_WINDOW_CLOSE (R558): a window in which nothing matched writes no record. -/
def digestWindowClose (p i : Nat) (s : State) : State :=
  let x := s.probeAt p i
  if x.armed = false ∨ 8 ≤ i ∨ x.frames < x.window ∨ s.coreStopped 7 = true then s
  else
    let past := x.frames - x.window
    let next := fun (t : State) (n : Nat) => t.modProbe p i fun x => { x with n := n, frames := past, acc := Digest.zero }
    if x.acc.lines = 0 ∧ x.acc.unseen = 0 then next s x.n
    else
      let (sum, t) := s.digestSum x.acc
      let (sq, t) := t.digestSum x.acc
      match t.objWriteAs (.digest p i) p x.ctx (x.out + 128 * (x.n % 2 ^ x.logSize)) 128 0 (x.record i (frameBits (s.frame - past)) sum sq) with
      | (t, .failed) => t.digestLost p i
      | (t, _) => if x.once then t.modProbe p i fun _ => Probe.init else next t (x.n + 1)

/-- DIGEST_WINDOW_CLOSE. -/
def execDigestWindowClose (part probe : Nat) (s : State) : Host.Outcome State Fault Refusal := .next (s.live (digestWindowClose part probe))

/-! ### Breakpoints (R562–R564) -/

/-- `op` of a BREAK_SET. -/
def breakOp (c : Cmd) : Nat := c.f 0 0 2

/-- A breakpoint of a core. -/
def State.bpAt (s : State) (c b : Nat) : Bp := (s.coreAt c).bps.get Bp.init b

/-- Changes a breakpoint of a core. -/
def State.modBp (s : State) (c b : Nat) (f : Bp → Bp) : State := s.modCore c fun x => { x with bps := x.bps.upd Bp.init b f }

/-- The BREAK_SET response. -/
def breakFields (s : State) (c b : Nat) : List (Nat × Nat) :=
  let x := s.coreAt c
  [(8, match x.st with
    | .idle => bit (s.bpAt c b).armed
    | .draining => 2
    | .held => 3), (8, c), (16, 0), (32, x.pc.toNat), (32, x.hold.toNat), (32, (s.bpAt c b).hits)]

/-- The checks that the operations of BREAK_SET share (R562). -/
def breakHead (c : Cmd) (s : State) : List (Bool × Status × Nat) :=
  [(c.zeros [(0, 2, 6), (2, 0, 16)], .rejectedInconsistent, 0x0005),
   (s.hasRight 3, .notPermitted, 0x1020),
   (decide (c.f 1 0 4 < 8), .notPermitted, 0x1021),
   (c.f 4 0 32 % 4 == 0 && decide (c.f 1 6 2 ≤ 2) && (breakOp c != 0 || c.f 12 0 32 != 0), .rejectedInconsistent, 0x1022)]

/-- A BREAK_SET operation: its checks, its effect and the response. -/
def breakDo (extra : List (Bool × Status × Nat)) (f : State → State) (c : Cmd) (s : State) : State :=
  s.checked c (breakHead c s ++ extra) fun s => s.answer (f s) c (breakFields (f s) (c.f 1 0 4) (c.f 1 4 2))

/-- BREAK_SET with `op` SET: arms the breakpoint with its hits at 0. -/
def runBreakSet (c : Cmd) (s : State) : State :=
  breakDo [] (fun s => s.modBp (c.f 1 0 4) (c.f 1 4 2) fun _ =>
    ⟨true, c.f 1 6 2, BitVec.ofNat 32 (c.f 4 0 32), BitVec.ofNat 32 (c.f 8 0 32), c.f 12 0 32, 0⟩) c s

/-- BREAK_SET with `op` SET. -/
def execBreakSet (k : Take) (s : State) : Host.Outcome State Fault Refusal :=
  .next (s.live (hawk 0x1003 (fun c => breakOp c == 0) k runBreakSet))

/-- BREAK_SET with `op` CLEAR. -/
def runBreakClear (c : Cmd) (s : State) : State := breakDo [] (fun s => s.modBp (c.f 1 0 4) (c.f 1 4 2) fun _ => Bp.init) c s

/-- BREAK_SET with `op` CLEAR. -/
def execBreakClear (k : Take) (s : State) : Host.Outcome State Fault Refusal :=
  .next (s.live (hawk 0x1003 (fun c => breakOp c == 1) k runBreakClear))

/-- BREAK_SET with `op` RESUME: the core runs on, and its engines return at the next frame boundary (R563). -/
def runBreakResume (c : Cmd) (s : State) : State :=
  breakDo [((s.coreAt (c.f 1 0 4)).st == .held, .rejectedInconsistent, 0x1023)] (fun s => s.releaseCore (c.f 1 0 4)) c s

/-- BREAK_SET with `op` RESUME. -/
def execBreakResume (k : Take) (s : State) : Host.Outcome State Fault Refusal :=
  .next (s.live (hawk 0x1003 (fun c => breakOp c == 2) k runBreakResume))

/-- BREAK_SET with `op` QUERY. -/
def runBreakQuery (c : Cmd) (s : State) : State := breakDo [] id c s

/-- BREAK_SET with `op` QUERY. -/
def execBreakQuery (k : Take) (s : State) : Host.Outcome State Fault Refusal :=
  .next (s.live (hawk 0x1003 (fun c => breakOp c == 3) k runBreakQuery))

/-- The engines of a core's scope. -/
def scopeEngines (c : Nat) : List Nat := (List.range 128).filter (coreScope c)

/-- A DRAINING core is HELD once its scope is idle or 64 frame boundaries have passed (R563): the operand caches are snooped out. -/
def State.holdCheck (s : State) (c : Nat) : State :=
  let x := s.coreAt c
  if x.st ≠ .draining then s
  else if 64 ≤ x.frames ∨ ((scopeEngines c).all fun e => (s.engAt e).running.isNone && (s.engAt e).queued.isNone) then
    let t := ((scopeEngines c).filter fun e => s.eng.any fun y => y.1 == e).foldl State.probeEngine s
    (t.modCore c fun x => { x with st := .held, hold := s.nowFrame }).haltPacket c 3
  else s

/-- BREAKPOINT_HIT (R563): the hit counts; in RUN, the `count`-th and every later hit stop the core (R492). -/
def breakpointHit (c b : Nat) (pc : W32) (s : State) : State :=
  let x := s.bpAt c b
  if 8 ≤ c ∨ x.armed = false ∨ s.coreStopped c = true ∨ s.hasRight 3 = false then s
  else
    let t := s.modBp c b fun x => { x with hits := satAdd 32 x.hits 1 }
    if s.out.low = true ∨ x.hits + 1 < x.count then t
    else
      let t := (t.modCore c fun y => { y with st := .draining, pc := pc, frames := 0, hitBy := b }).haltPacket c 2
      let t := (scopeEngines c).foldl (fun t e => match t.engPart e with
        | some p => t.leaveService p e
        | none => t) t
      t.holdCheck c

/-- BREAKPOINT_HIT. -/
def execBreakpointHit (core bp : Nat) (pc : W32) (s : State) : Host.Outcome State Fault Refusal := .next (s.live (breakpointHit core bp pc))

/-- The cores at a frame boundary: drains go on, and released engines return (R563). -/
def State.coresTick (s : State) : State :=
  (List.range 8).foldl (fun t c =>
    if t.coreStopped c then (t.modCore c fun x => { x with frames := x.frames + 1 }).holdCheck c
    else if (t.coreAt c).back then t.modCore c fun x => { x with back := false } else t) s

/-! ### The trace port (R565, R566) -/

/-- The reserved fields of a TRACE_SET entry by kind. -/
def traceReserved : Nat → List (Nat × Nat × Nat)
  | 0 => [(0, 2, 6), (1, 3, 5), (2, 0, 240)]
  | 1 => [(0, 2, 6), (1, 1, 2), (1, 4, 4), (2, 9, 7), (4, 0, 224)]
  | 2 => [(0, 2, 6), (1, 1, 7), (2, 0, 16), (6, 0, 16), (16, 0, 128)]
  | _ => []

/-- The right that a kind of TRACE_SET needs is in effect (R490, R566). -/
def State.traceRight (s : State) : Nat → Bool
  | 0 => s.hasRight 1 || s.hasRight 2
  | 1 => s.hasRight 2
  | _ => s.hasRight 1

/-- The checks of TRACE_SET (R566). A `kind` of 3 and a period out of range are refused with no stated `detail`
(DESIGN CHOICE, notes/assumptions/9.md). -/
def traceChecks (c : Cmd) (s : State) : List (Bool × Status × Nat) :=
  let kind := c.f 0 0 2
  [(c.zeros (traceReserved kind), .rejectedInconsistent, 0x0005),
   (decide (kind ≤ 2), .rejectedInconsistent, (Config.unstatedDetail 1).toNat),
   (s.traceRight kind, .notPermitted, 0x1010),
   ((kind != 1 || c.f 3 0 1 == 0) && (kind != 0 || c.f 1 1 2 != 3), .rejectedInconsistent, 0x1011),
   (kind != 2 || decide (1 ≤ c.f 4 0 16 ∧ c.f 4 0 16 ≤ 1024), .rejectedInconsistent, (Config.unstatedDetail 2).toNat)]

/-- Applies a TRACE_SET entry; one whose right has left effect since it was staged is cleared (R495). -/
def State.applyTrace (s : State) (d : Nat) : State :=
  if s.traceRight (fld d 0 0 2) = false then s
  else s.modTrace fun x => match fld d 0 0 2 with
    | 0 => { x with port := fld d 1 0 1 == 1, lanes := fld d 1 1 2 }
    | 1 => { x with instr := fld d 1 0 1 == 1, stall := fld d 1 3 1 == 1, cores := BitVec.ofNat 9 (fld d 2 0 9) }
    | _ => { x with counter := fld d 1 0 1 == 1, period := fld d 4 0 16, parts := BitVec.ofNat 64 (fld d 8 0 64), frames := 0 }

/-- TRACE_SET (R105, R566): a set of its own, committed at once; the response reports the commit. -/
def runTraceSet (c : Cmd) (s : State) : State :=
  s.checked c (traceChecks c s) fun s => s.background { s with box := { s.box with sets := s.box.sets ++ [⟨[s.entryOf c (c.f 0 0 2) c.pay], s.earliest, c.ref, 0xFF, none⟩] } } c 16

/-- TRACE_SET. -/
def execTraceSet (k : Take) (s : State) : Host.Outcome State Fault Refusal := .next (s.live (hawk 0x1002 anyCmd k runTraceSet))

/-- TRACE_FIFO_ROOM (R565): packets leave the FIFO, and each source's losses are reported. -/
def traceFifoRoom (n : Nat) (s : State) : State :=
  let t := s.modTrace fun x => { x with fifo := x.fifo.drop n }
  let lost := t.watch.trace.lost
  if n = 0 then t
  else lost.foldl (fun t e => t.packet 0x30 0x20 (pack [(8, e.1), (24, 0), (32, e.2)]) true) (t.modTrace fun x => { x with lost := [] })

/-- TRACE_FIFO_ROOM. -/
def execTraceFifoRoom (packets : Nat) (s : State) : Host.Outcome State Fault Refusal := .next (s.live (traceFifoRoom packets))

/-- TRACE_LANE_OVERCURRENT (R577): a failing sample of a lane toward the code that its driver sees. -/
def execTraceLaneOvercurrent (lane code : Nat) (s : State) : Host.Outcome State Fault Refusal :=
  .next (s.live fun s => if lane < 4 ∧ 2 ≤ code ∧ code ≤ 4 then s.samplePair (1 + lane) code else s)

end Sys2Proof.Machine
end

