-- ==== Sys2Proof/Machine/Faults.lean ====
section
/-! DEFINITION. CTX_REVOKE, PART_RESET, the engine watchdogs with suspect replay, and the errors that reset the chip
(18_faults_and_recovery). -/

namespace Sys2Proof.Machine

/-! ### CTX_REVOKE (R518–R521) -/

/-- The checks of CTX_REVOKE, in order. -/
def ctxRevokeChecks (c : Cmd) (s : State) : List (Bool × Status × Nat) :=
  let x := c.f 0 0 16
  let y := s.ctxAt x
  [
    (c.zeros [(3, 0, 40)], .rejectedInconsistent, 0x0005),
    ((s.recOf c).hasCtx x, .notPermitted, 0x0F00),
    (y.st != .free, .rejectedInconsistent, 0x0F01),
    (c.f 2 0 8 == y.gen.toNat, .staleGeneration, 0),
    (y.revoke.isNone, .rejectedInconsistent, 0x0F02)]

/-- CTX_REVOKE. -/
def runCtxRevoke (c : Cmd) (s : State) : State :=
  let x := c.f 0 0 16
  s.checked c (ctxRevokeChecks c s) fun s =>
    s.background ((s.modCtx x fun z => { z with revoke := some ⟨c.ref, s.beat.tick, 0, 0, 0⟩ }).revokeCtx c.part x 9 .contextLost) c 16

/-- CTX_REVOKE. -/
def execCtxRevoke (k : Take) (s : State) : Host.Outcome State Fault Refusal := .next (s.live (hawk 0x0F01 anyCmd k runCtxRevoke))

/-- A job holds work of a context under an old generation. -/
def Job.oldOf (c : Nat) (gen : Byte) : Option Job → Bool
  | none => false
  | some (.batch b) => b.rows.any fun r => r.ctx == c && r.ctxGen != gen
  | some (.work w) => w.ctx == c && w.ctxGen != gen

/-- Nothing dispatched for a context under an old generation is at an engine or waits for an access (R521). -/
def State.revokeDrained (s : State) (c : Nat) : Bool :=
  let g := (s.ctxAt c).gen
  (s.eng.all fun e => !(Job.oldOf c g e.2.running || Job.oldOf c g e.2.queued)) &&
  s.xl.tiles.all fun e => match e.2 with
    | some t => t.ctx != c
    | none => true

/-- REVOKE_DRAIN_END (R521). -/
def revokeDrainEnd (c : Nat) (s : State) : State :=
  match (s.ctxAt c).revoke with
  | none => s
  | some v =>
    if s.revokeDrained c then
      (s.modCtx c fun x => { x with revoke := none }).finish v.ref .ok 0 16
        (pack [(8, (s.ctxAt c).gen.toNat), (8, 0), (16, v.fences), (32, v.descs), (32, v.rows), (32, (s.beat.tick - v.start).toNat)])
    else s

/-- REVOKE_DRAIN_END. -/
def execRevokeDrainEnd (c : Nat) (s : State) : Host.Outcome State Fault Refusal := .next (s.live (revokeDrainEnd c))

/-! ### PART_RESET (R526–R528) -/

/-- A PART_RESET is a CONFIG. -/
def isConfig (c : Cmd) : Bool := c.f 0 0 1 == 1

/-- The checks that both operations of PART_RESET share (R527). -/
def resetHead (c : Cmd) (s : State) : List (Bool × Status × Nat) :=
  [(c.zeros [(0, 1, 7), (1, 0, 8), (6, 0, 16), (12, 0, 32)], .rejectedInconsistent, 0x0005),
   ((s.partAt c.part).st == .live, .rejectedInconsistent, 0x0F10)]

/-- The checks of PART_RESET, in order. -/
def partResetChecks (c : Cmd) (s : State) : List (Bool × Status × Nat) :=
  resetHead c s

/-- PART_RESET with `op` RESET. -/
def runPartReset (c : Cmd) (s : State) : State :=
  s.checked c (partResetChecks c s) fun s => s.background (s.startReset c.part (c.f 8 0 32) (some c.ref) true) c 16

/-- PART_RESET with `op` RESET. -/
def execPartReset (k : Take) (s : State) : Host.Outcome State Fault Refusal :=
  .next (s.live (hawk 0x0F02 (fun c => !isConfig c) k runPartReset))

/-- The checks of PART_RESET_CONFIG, in order. -/
def partResetConfigChecks (c : Cmd) (s : State) : List (Bool × Status × Nat) :=
  let wd := c.f 2 0 16
  let rp := c.f 4 0 16
  resetHead c s ++
    [(decide (2 ≤ wd ∧ wd ≤ 4096 ∧ 1 ≤ rp ∧ rp ≤ wd) && decide ((s.migrateAt c.part).faultWait < wd), .rejectedInconsistent, 0x0F12)]

/-- PART_RESET with `op` CONFIG: the limits apply from the next frame boundary. -/
def runPartResetConfig (c : Cmd) (s : State) : State :=
  let wd := c.f 2 0 16
  let rp := c.f 4 0 16
  s.checked c (partResetConfigChecks c s) fun s =>
    s.answer (s.modPart c.part fun x => { x with wdNext := some (wd, rp) }) c [(16, wd), (16, rp), (32, (frameBits (s.frame + 1)).toNat)]

/-- PART_RESET with `op` CONFIG. -/
def execPartResetConfig (k : Take) (s : State) : Host.Outcome State Fault Refusal :=
  .next (s.live (hawk 0x0F02 isConfig k runPartResetConfig))

/-- PARTITION_RESET_COMPLETE: the engines are drained and reset, and the partition is LIVE again (R528). -/
def partitionResetComplete (p : Nat) (s : State) : State :=
  let x := s.partAt p
  match x.reset with
  | none => s
  | some r =>
    if x.st ≠ .resetting ∨ s.partIdle p = false then s
    else
      let engines := bitsOf x.record.engines
      let t := engines.foldl State.resetEngine (s.snoopWays p)
      let t := { t with coh := { t.coh with lost := t.coh.lost.filter (· != p) } }.modPart p fun y => { y with st := .live, reset := none }
      let ticks := (s.beat.tick - r.start).toNat
      let t := (t.logRec { kind := 0x0004, part := p, a := r.reason, b := r.lost, c := ticks }).writeCard p
      t.finishOpt r.ref .ok 0 16
        (pack [(8, x.gen.toNat), (8, 0), (16, r.lost), (16, r.fences), (8, engines.length), (8, 0), (32, ticks), (32, 0)])

/-- PARTITION_RESET_COMPLETE. -/
def execPartitionResetComplete (p : Nat) (s : State) : Host.Outcome State Fault Refusal := .next (s.live (partitionResetComplete p))

/-! ### Engine watchdogs (R522–R525) -/

/-- The partition of a job. -/
def Job.part : Job → Nat
  | .batch b => b.part
  | .work w => w.part

/-- The contexts of a job in ascending order: its suspects. -/
def Job.suspects : Job → List Nat
  | .batch b => sortOn (fun (c : Nat) => (c : Int)) b.ctxs
  | .work w => [w.ctx]

/-- The `batch_id` of a job (0 for a WORK). -/
def Job.id : Job → Nat
  | .batch b => b.id.toNat
  | .work _ => 0

/-- Counts a watchdog fire (R540, R596), writes its record and sends the event vector. -/
def State.countFire (s : State) (e : Nat) (j : Job) : State :=
  let p := j.part
  let t := s.modEng e fun x => { x with fires := inc32 x.fires }
  let t := { t with obs := { t.obs with wdPart := t.obs.wdPart.upd 0 p fun n => satAdd 32 n 1, wdAll := inc32 t.obs.wdAll } }
  (t.logRec { kind := 0x0003, part := p, place := e, a := e, b := j.id, c := j.suspects.length }).partEvent p

/-- What a watchdog makes of the job that hangs (R524): a batch is to be replayed, a WORK costs its context. A context that is a suspect of another
engine is replayed there alone (R546), and its rows of this batch return to ready (DESIGN CHOICE, notes/assumptions/95.md). -/
def State.hangJob (s : State) (e : Nat) : Job → State
  | .batch b =>
    let l := (Job.batch b).suspects.filter fun c => !s.suspect c
    let (mine, others) := b.rows.partition fun (r : Row) => l.contains r.ctx
    let t := others.foldl (fun t r => t.returnRow e r) s
    l.foldl State.clearFloor (t.modEng e fun x => { x with replay := some ⟨{ b with rows := mine }, l, none, []⟩ })
  | .work w =>
    let t := s.complete w.ring w.desc .contextLost
    let t := t.logRec { kind := 0x0003, part := w.part, place := e, a := e, c := 1, d := 1 + w.ctx * 65536 }
    if (t.ctxAt w.ctx).gen = w.ctxGen then t.loseCtx w.ctx 6 0 e else t

/-- WATCHDOG_FIRE (R522, R523): `answers` tells that the engine answers the snoops of its reset (R415). -/
def watchdogFire (e : Nat) (answers : Bool) (s : State) : State :=
  let x := s.engAt e
  match x.running with
  | none => s
  | some j =>
    let p := j.part
    if x.replay.isSome ∨ x.wd < (s.partAt p).wdFrames ∨ s.coreStopped (1 + e / 32) = true then s
    else if (s.partAt p).st ≠ .live then s.resetEngine e
    else
      let t := s.countFire e j
      if answers = false then t.loseDomain p e 3
      else
        let t := (t.modEng e fun y => { y with st := .resetting, running := none, wd := 0, nextId := 0, ran := x.ranNow }).hangJob e j
        (((((t.leaveService p e).returnQueued e).dropTiles e).freeCredit e).probeEngine e).floorSettle

/-- WATCHDOG_FIRE. -/
def execWatchdogFire (e : Nat) (answers : Bool) (s : State) : Host.Outcome State Fault Refusal := .next (s.live (watchdogFire e answers))

/-- ENGINE_RESET_DONE: the next suspect runs (R524), or the engine returns at the next frame boundary. The reset ends once every transaction that the
engine had asked for has ended, and what these gave its operand cache is snooped out (R411, R415). -/
def engineResetDone (e : Nat) (s : State) : State :=
  let x := s.engAt e
  if x.st ≠ .resetting ∨ s.coreStopped (1 + e / 32) = true ∨ s.engQuiet e = false then s
  else match x.replay with
    | some r => ((s.probeEngine e).modEng e fun y => { y with st := .quarantined }).nextReplay e (r.todo.length + 1)
    | none => (s.probeEngine e).modEng e fun y => { y with st := .quarantined, back := true }

/-- ENGINE_RESET_DONE. -/
def execEngineResetDone (e : Nat) (s : State) : Host.Outcome State Fault Refusal := .next (s.live (engineResetDone e))

/-- The second suspect is pending guilty (R525): the engine is FAILED, and no context is lost. -/
def State.failEngine (s : State) (e : Nat) (r : Replay) : State :=
  let t := s.modEng e fun y => { y with st := .failed, replay := none, badTags := y.badTags + 1 }
  let t := (r.batch.rows.filter fun (y : Row) => r.guilty.contains y.ctx || r.todo.contains y.ctx).foldl (fun t y => t.returnRow e y) t
  let t := t.verdict e r 2 0
  (t.logRec { kind := 0x0013, part := r.batch.part, place := e, a := e, b := 3, c := (t.engAt e).badTags }).swapCheck r.batch.group

/-- REPLAY_TIMEOUT (R525): the suspect that runs reaches `replay_frames`, and the engine is reset again; one that does not answer the snoops of that
reset costs its domain (R415). -/
def replayTimeout (e : Nat) (s : State) : State :=
  let x := s.engAt e
  match x.replay with
  | none => s
  | some r => match r.now with
    | none => s
    | some c =>
      if x.running.isNone ∨ x.wd < (s.partAt r.batch.part).replayFrames ∨ s.coreStopped (1 + e / 32) = true then s
      else
        let r := { r with now := none, guilty := r.guilty ++ [c] }
        let (n, u) := s.draw
        if Config.engineAnswers n = false then u.loseDomain r.batch.part e 3
        else
          let t := ((u.probeEngine e).dropTiles e).modEng e fun y => { y with
            running := none, wd := 0, replay := some r, st := .resetting, nextId := 0, ran := x.ranNow }
          if 2 ≤ r.guilty.length then t.failEngine e r else t

/-- REPLAY_TIMEOUT. -/
def execReplayTimeout (e : Nat) (s : State) : Host.Outcome State Fault Refusal := .next (s.live (replayTimeout e))

/-! ### Errors that reset the chip (R530, R545) -/

/-- CORE_WATCHDOG_EXPIRY (R545): one of the nine control cores has missed sixteen boundaries, unless a breakpoint stops it (R564). -/
def execCoreWatchdogExpiry (core : Nat) (s : State) : Host.Outcome State Fault Refusal :=
  .next (s.live fun s => if core < 9 ∧ s.coreStopped core = false ∧ 16 ≤ (s.coreAt core).missed then s.needReset 3 core else s)

/-- HEARTBEAT_TIMEOUT (R545): 64 frame boundaries found MB_HEARTBEAT where it stood; the watch is suspended while a breakpoint stops a core (R564). -/
def execHeartbeatTimeout (s : State) : Host.Outcome State Fault Refusal :=
  .next (s.live fun s => if ((List.range 9).any fun c => s.coreStopped c) = true ∨ s.beat.hbMissed < 64 then s else s.needReset 2 0)

/-- CONTROL_DOMAIN_ERROR (R37, R540). -/
def execControlDomainError (unit syndrome : Nat) (s : State) : Host.Outcome State Fault Refusal :=
  .next (s.live fun s => (s.logRec { kind := 0x0018, part := 0xFF, a := unit, b := syndrome }).needReset 1 unit)

end Sys2Proof.Machine
end

