-- ==== Sys2Proof/Machine/Coherence.lean ====
section
/-! DEFINITION. The coherence homes and agents (13_coherence): requests (R398), probes and responses (R399, R400), home ordering
(R402–R404), atomics (R406, R407), the crossing write-back (R408), field caches (R409), and what loses a domain (R412). -/

namespace Sys2Proof.Machine

/-! ### Agents, domains and messages (R391–R397) -/

/-- The ways that a partition holds in a field. -/
def PartRec.waysIn (r : PartRec) (f : Nat) : List Nat := (bitsOf r.ways).filter fun w => w / 32 == f

/-- An agent belongs to a domain (R391, R393). -/
def State.inDomain (s : State) (a d : Nat) : Bool :=
  if a < 128 then s.engPart a == some d
  else if a < 132 then decide (d < 64) && !((s.partAt d).record.waysIn (a - 128)).isEmpty
  else if a < 136 then false
  else if a < 149 then d == 64
  else a == 149 && decide (d ≤ 64)

/-- The request opcodes (R398). -/
def reqOps : List Nat := [0x04, 0x05, 0x06, 0x07, 0x08, 0x0C, 0x0D, 0x10]

/-- The opcodes of a class (R398, R399). -/
def classOps : Nat → List Nat
  | 0 => reqOps
  | 1 => [0x04, 0x05, 0x06, 0x07]
  | 2 => [0x01, 0x02, 0x03, 0x04, 0x08, 0x09]
  | _ => [0x01, 0x02, 0x03, 0x04]

/-- A message that a home refuses loses its domain (R412). -/
def State.badMsg (s : State) (m : Msg) (cause : Nat) : State := if m.domain ≤ 64 then s.loseDomain m.domain m.src cause else s

/-- Puts a message of a class in flight. -/
def State.send (s : State) (cls : Nat) (m : Msg) : State := { s with coh := { s.coh with net := s.coh.net ++ [(cls, m)] } }

/-- The code of a cache state (R397). -/
def cacheCode : CacheSt → Nat
  | .i => 0
  | .s => 1
  | .e => 2
  | .m => 3

/-- The cache state of a code. -/
def cacheOf : Nat → CacheSt
  | 1 => .s
  | 2 => .e
  | 3 => .m
  | _ => .i

/-! ### Who asks (R6, R235, R239) -/

/-- The requester that a request's tag names; none: no entry of the engine's bank. -/
def State.cohWho (s : State) (m : Msg) : Option Requester :=
  if m.src < 128 ∧ m.op ≠ 0x0C ∧ m.op ≠ 0x0D then
    match (s.engAt m.src).running with
    | some (.work _) => some (.work m.src)
    | some (.batch b) =>
      if m.tag.testBit 44 then some (.batch m.src (tagParity m.tag))
      else (b.rows.findIdx? fun (r : Row) => r.tag == m.tag % 2 ^ 44).map fun i => .row m.src i (tagParity m.tag)
    | none => none
  else some (if m.domain = 64 then .control m.src else .lendor m.domain m.cls m.src)

/-- For whom a request counts. -/
def State.cohCharged (s : State) (m : Msg) : Charged :=
  match s.cohWho m with
  | some (.lendor p _ _) => ⟨p, m.cls, if tweakKind m.tweak = 0 then tweakId m.tweak else 0⟩
  | some who => (s.charged who (m.line * 128) m.tweak).getD ⟨m.domain, m.cls, 0⟩
  | none => ⟨m.domain, m.cls, 0⟩

/-- A request as its lane sees it. -/
def State.cohGate (s : State) (m : Msg) (acc : Access) : GateReq :=
  ⟨(s.cohWho m).getD (.control m.src), m.line * 128, ⟨m.range, m.tweak⟩, acc, m.ecc, .clean, none, false, false, 0⟩

/-- A slow-tier line that a home reads or writes through the gate lane counts for its page (R350): the page of the segment that maps it under the request's
tweak. -/
def State.homeHot (s : State) (p tweak a : Nat) : State :=
  if localTier a ≠ some 1 then s
  else match (s.xl.seg.filter fun e => e.2.valid && s.keyOf p e.1 && segTweak p e.1 == tweak).findSome? fun e => (s.segPage p e.1 e.2 a).map fun i => (e.1, i) with
    | some (k, page) => s.hotCount (lineField a) p k page 1 1
    | none => s

/-- Charges the home's access to memory (R214, R547); that to the control region counts where it is made (R211). -/
def State.cohCount (s : State) (m : Msg) (bytes : Nat) : State :=
  let a := m.line * 128
  if m.domain = 64 then s
  else
    let c := s.cohCharged m
    (((s.tagFetch a .clean).charge c.part a c.cls bytes false).countBoth c.part c.ctx (tierIndex a) bytes).homeHot c.part m.tweak a

/-- The home reads memory through the gate lane for a request: what caches hold of the line has been probed (R398), and stays as it is. -/
def State.cohRead (s : State) (m : Msg) : State × Status × LineData :=
  let copies := s.copies m.line
  let t := (s.cohCount m (if m.narrow then 32 else 128)).putCopies m.line []
  let (u, st, d) := if m.domain = 64 then t.regionAccess (m.line * 128) (.read false) m.ecc
    else t.gateLine (t.cohGate m (.read m.narrow)) (t.cohCharged m) (m.line * 128)
  (u.putCopies m.line copies, st, d)

/-- The home writes a cache's dirty data through the lane (R400). -/
def State.cohPut (s : State) (m : Msg) (tweak : Nat) (d : LineData) : State :=
  let t := s.cohCount m 128
  if m.domain = 64 then (t.regionAccess (m.line * 128) (.write d (BitVec.allOnes 128) false) .clean).1
  else match t.rangeOf (m.line * 128) with
    | some r => t.writeLine r m.line d tweak
    | none => t

/-! ### Home entries (R402, R404) -/

/-- Changes the transaction of a request. -/
def State.modTxn (s : State) (m : Msg) (f : Txn → Txn) : State :=
  { s with coh := { s.coh with txns := s.coh.txns.map fun (t : Txn) =>
    if t.req.src = m.src ∧ t.req.dst = m.dst ∧ t.req.txn = m.txn then f t else t } }

/-- A transaction ends: its entry frees and the oldest waiting agent gets a TICKET (R404). -/
def State.endTxn (s : State) (m : Msg) : State :=
  let t := { s with coh := { s.coh with txns := s.coh.txns.filter fun (t : Txn) =>
    !(t.req.src == m.src && t.req.dst == m.dst && t.req.txn == m.txn) } }
  t.ticketNext m.dst

/-! ### Transactions at a home (R398, R400, R403) -/

/-- The transaction ends on DONE_ACK: a native requester of FETCH_SHARE, FETCH_OWN, UPGRADE or a near ATOMIC (R403). -/
def State.waitsAck (s : State) (t : Txn) : Bool :=
  !s.compatAgent t.req.src && (t.req.op == 0x04 || t.req.op == 0x05 || t.req.op == 0x07 || t.near)

/-- The last message to the requester has gone: the line stays blocked until DONE_ACK, or the transaction ends. -/
def State.closeTxn (s : State) (t : Txn) : State :=
  if s.waitsAck t then s.modTxn t.req fun x => { x with phase := .acking, need := [] } else s.endTxn t.req

/-- The bytes that a DAT message carries of a line: on the narrow path the 32 of its granule (R397). -/
def carried (m : Msg) (d : LineData) : LineData :=
  if m.narrow ∧ m.op ≠ 0x10 then (d >>> (256 * m.granule)).setWidth 256 |>.setWidth 1024 else d

/-- The line bytes and byte enables of a write's DAT message: those of a narrow one lie in its granule (R397). -/
def placed (m : Msg) (d : LineData) (k : LineMask) : LineData × LineMask :=
  if m.narrow then ((d.setWidth 256).setWidth 1024 <<< (256 * m.granule), k &&& (0xFFFFFFFF#128 <<< (32 * m.granule))) else (d, k)

/-- Sends FILL to the requester (R401); with status OK and a state other than I the filter records its copy.
No home tracks a line of the dump region (R392). -/
def State.fillTo (s : State) (m : Msg) (st : Status) (state : CacheSt) (dirty : Bool) (d : LineData) : State :=
  let ok := decide (st = .ok)
  let state : CacheSt := if inDump (m.line * 128) then .i else state
  let t := s.send 3 { (msgBack m 0x01) with status := st, state := if ok then cacheCode state else 0, dirty := dirty, data := if ok then carried m d else 0 }
  if ok ∧ state ≠ .i then t.addCopy m.line ⟨m.src, decide (state ≠ .s), .i, m.tweak, d, false, m.cls, none⟩ else t

/-- Sends a FILL whose status is not OK: the requester ends in I (R401). -/
def State.fillFails (s : State) (m : Msg) (st : Status) : State := (s.fillTo m st .i false 0).dropCopy m.line m.src

/-- Sends DONE to the requester. -/
def State.doneTo (s : State) (m : Msg) (st : Status) (noop : Bool) : State := s.send 2 { (msgBack m 0x01) with status := st, noop := noop }

/-- An UPGRADE is granted: the filter records an owner. A compatibility agent, whose port delivers DONE before any later probe (R404), is in
E with it. -/
def State.upgraded (s : State) (m : Msg) : State :=
  s.modCopy m.line m.src fun c => { c with own := true, st := if s.compatAgent m.src then .e else c.st }

/-- The home reads memory and fills the requester. -/
def State.fillFromMemory (s : State) (m : Msg) (state : CacheSt) : State :=
  let (t, st, d) := s.cohRead m
  if st = .ok then t.fillTo m st state false d else t.fillFails m st

/-- Sends the probes of a transaction to other agents: `own` to owners and `hold` to holders (0: none). -/
def State.probeAll (s : State) (m : Msg) (own hold : Nat) (direct self : Bool) : State :=
  let cs := (s.copies m.line).filter fun c => (self || c.agent != m.src) && (c.own || hold != 0)
  let t := cs.foldl (fun t (c : Copy) =>
    let direct := direct && c.own && !s.compatAgent c.agent
    t.send 1 { (msgBack m (if c.own then own else hold)) with dst := c.agent, direct := direct, tag := if direct then m.src + 256 * m.txn else 0 }) s
  t.modTxn m fun x => { x with
    phase := .probing, need := cs.map Copy.agent, direct := direct && cs.any fun c => c.own && !s.compatAgent c.agent }

/-- Copies other than the requester's. -/
def State.others (s : State) (m : Msg) : List Copy := (s.copies m.line).filter fun c => c.agent != m.src

/-- A read's tweak does not fit a cached copy (R395): FAULT_RANGE and a TAG_MISMATCH record; no copy changes state. -/
def State.cohMismatch (s : State) (m : Msg) : State :=
  let a := m.line * 128
  let t := (s.modRange m.range fun x => { x with mismatch := inc32 x.mismatch }).logRec
    { kind := 0x0008, part := m.domain, a := m.range, b := a, c := m.tweak }
  let t := match t.cohWho m with
    | some who => t.gateFail who ⟨.faultRange, 3, 0⟩
    | none => t
  t.fillTo m .faultRange .i false 0

/-- The ways of an operand cache's field in which a line of a class may be placed (R219, R409). -/
def State.fieldWays (s : State) (p f cls : Nat) : List Nat :=
  ((s.partAt p).record.waysIn f).filter fun w => match (s.regClassAt p f cls).allow with
    | none => true
    | some a => a.getLsbD (w % 32)

/-- A way of a field cache takes a line (R409): one that it held may give way, and must when the 2 MiB of the way are full. What is displaced is
spilled to its home; a line whose transaction is open stays (DESIGN CHOICE, notes/assumptions/85.md). -/
def State.displace (s : State) (agent way : Nat) : State :=
  let held := (s.coh.copy.filter fun (e : Nat × List Copy) => !s.lineBusy e.1 && e.2.any fun c => c.agent == agent && c.way == some way).map Prod.fst
  let (n, t) := s.draw
  match held[Config.fieldOut n % (held.length + if held.length < 16384 then 1 else 0)]? with
  | none => t
  | some l => match (t.copies l).find? fun c => c.agent == agent with
    | some c => (t.writeBack l c).dropCopy l agent
    | none => t

/-- The line of an operand cache's eviction is placed in the field cache of its field, in one of the ways that its class allows
(R219, R409). Which of them the spec leaves to the cache: a free value (DESIGN CHOICE, notes/assumptions/85.md). -/
def State.victim (s : State) (m : Msg) (c : Copy) : Option State :=
  let f := engField m.src
  let ways := s.fieldWays m.domain f m.cls
  if m.src < 128 ∧ m.domain < 64 ∧ ways ≠ [] then
    let (n, t) := s.draw
    let way := ways[Config.fieldWay n % ways.length]?
    some ((t.displace (128 + f) (way.getD 0)).addCopy m.line { c with agent := 128 + f, buf := false, cls := m.cls, way := way })
  else none

/-- Starts a transaction whose line is free (R398, R407, R408). -/
def State.startTxn (s : State) (t : Txn) : State :=
  let m := t.req
  let others := s.others m
  let owned := others.any fun c => c.own
  let clash := (s.copies m.line).any fun c => c.tweak != m.tweak
  let read := m.op == 0x04 || m.op == 0x05 || m.op == 0x06 || m.op == 0x07 || t.near
  let held := (s.copies m.line).any fun c => c.agent == m.src
  if read && clash then (s.cohMismatch m).closeTxn t
  else match m.op with
    | 0x04 => if owned then s.probeAll m 0x04 0 true false
        else (s.fillFromMemory m (if others.isEmpty then .e else .s)).closeTxn t
    | 0x05 => if others.isEmpty then (s.fillFromMemory m .e).closeTxn t else s.probeAll m 0x05 0x07 true false
    | 0x06 => if owned then s.probeAll m 0x06 0 false false else (s.fillFromMemory m .i).closeTxn t
    | 0x07 =>
      if held then
        if others.isEmpty then ((s.upgraded m).doneTo m .ok false).closeTxn t
        else s.probeAll m 0x07 0x07 false false
      else if others.isEmpty then (s.fillFromMemory m .e).closeTxn t else s.probeAll m 0x05 0x07 true false
    | 0x08 => if others.isEmpty then (s.modTxn m fun x => { x with phase := .writing }).send 2 (msgBack m 0x04)
        else s.probeAll m 0x05 0x07 false false
    | 0x0C => if (s.copies m.line).any fun c => c.agent == m.src && c.own then
          (s.modTxn m fun x => { x with phase := .writing }).send 2 (msgBack m 0x04)
        else (s.doneTo m .ok true).endTxn m
    | 0x0D =>
      let u := s.dropCopy m.line m.src
      ((match (s.copies m.line).find? fun (c : Copy) => c.agent == m.src with
        | some c => (u.victim m c).getD u
        | none => u).doneTo m .ok (!held)).endTxn m
    | _ =>
      if t.near then if others.isEmpty then (s.fillFromMemory m .e).closeTxn t else s.probeAll m 0x05 0x07 true false
      else if (s.copies m.line).isEmpty then (s.modTxn m fun x => { x with phase := .writing }).send 2 (msgBack m 0x04)
      else s.probeAll m 0x05 0x07 false true

/-- The next waiting transactions of a line start while it is free (R403). -/
def State.pump (s : State) (line : Nat) : Nat → State
  | 0 => s
  | n + 1 =>
    match s.coh.txns.find? fun (t : Txn) => t.req.line == line with
    | some t => if t.phase = .queued then (s.startTxn t).pump line n else s
    | none => s

/-- Starts what may start on a line: the requests at its home in their order, then what waits for it at a lane. -/
def State.pumpLine (s : State) (line : Nat) : State := (s.pump line (s.coh.txns.length + 1)).serveLanes

/-- Every probe of a transaction is answered (R398, R400). -/
def State.proceed (s : State) (t : Txn) : State :=
  let m := t.req
  let d := t.got.getD 0
  let fromOwner := fun (state : CacheSt) =>
    if t.direct then
      let own := decide (state ≠ .s)
      let u := if (s.copies m.line).any fun c => c.agent == m.src then s.modCopy m.line m.src fun c => { c with own := own }
        else s.addCopy m.line ⟨m.src, own, .i, m.tweak, 0, false, m.cls, none⟩
      if t.acked then u.endTxn m else u.closeTxn t
    else match t.got with
      | some _ => (s.fillTo m .ok (if t.dirty && decide (state = .e) then .m else state) (t.dirty && decide (state = .e)) d).closeTxn t
      | none => (s.fillFromMemory m state).closeTxn t
  match m.op with
  | 0x04 => fromOwner .s
  | 0x05 => fromOwner .e
  | 0x06 => match t.got with
    | some _ => (s.fillTo m .ok .i false d).closeTxn t
    | none => (s.fillFromMemory m .i).closeTxn t
  | 0x07 => if (s.copies m.line).any fun c => c.agent == m.src then
        ((s.upgraded m).doneTo m .ok false).closeTxn t
      else fromOwner .e
  | 0x08 => (s.modTxn m fun x => { x with phase := .writing }).send 2 (msgBack m 0x04)
  | _ => if t.near then fromOwner .e else (s.modTxn m fun x => { x with phase := .writing }).send 2 (msgBack m 0x04)

/-! ### Requests (R395, R397, R398, R402, R404) -/

/-- A request has the layout of R397, comes from an agent of its domain, and its `txn` is not outstanding. -/
def State.goodReq (s : State) (m : Msg) : Bool :=
  reqOps.contains m.op && m.reserved == 0 && decide (132 ≤ m.dst ∧ m.dst ≤ 135 ∧ m.txn < 4096 ∧ m.line < 2 ^ 41 ∧ m.range < 128 ∧ m.tweak < 2 ^ 18 ∧ m.cls < 8) &&
  132 + lineField (m.line * 128) == m.dst && s.inDomain m.src m.domain &&
  (m.src != 149 || m.op == 0x06 || m.op == 0x08 || m.op == 0x10) && (m.op != 0x10 || m.atomic % 8 != 7) &&
  (!m.ticket || (s.coh.granted.get [] m.dst).contains (m.src, m.domain)) &&
  s.coh.txns.all fun (t : Txn) => !(t.req.src == m.src && t.req.dst == m.dst && t.req.txn == m.txn)

/-- The home accepts requests of a domain: one that is not lost (R413), of a partition that holds engines. -/
def State.domainOpen (s : State) (d : Nat) : Bool :=
  d == 64 || (!s.coh.lost.contains d && ((s.partAt d).st == .live || (s.partAt d).st == .destroying || (s.partAt d).st == .resetting))

/-- `atomic_place` decides where an ATOMIC runs, with the predictor (R407): the state and whether it is near. -/
def State.placeAtomic (s : State) (m : Msg) : State × Bool :=
  let mode := s.coh.place.get 0 m.domain
  if m.op ≠ 0x10 ∨ s.compatAgent m.src = true ∨ m.src = 149 ∨ mode = 1 then (s, false)
  else if mode = 2 then (s, true)
  else
    let k := m.dst * 4096 + (Config.atomicHash m.line m.domain).toNat
    let n := s.coh.pred.get 0 k
    let n := if s.lineBusy m.line || !(s.others m).isEmpty then min 3 (n + 1) else n - 1
    ({ s with coh := { s.coh with pred := s.coh.pred.put 0 k n } }, decide (n < 2))

/-- Orders a request that the home accepts: checks 1 to 6 of R361 first (R395). -/
def State.orderReq (s : State) (m : Msg) : State :=
  let write := m.op == 0x08 || m.op == 0x0C || m.op == 0x10
  let a := m.line * 128
  let refuse := fun (t : State) => if m.op = 0x04 ∨ m.op = 0x05 ∨ m.op = 0x06 ∨ m.op = 0x10 then t.fillFails m .faultRange
    else t.doneTo m .faultRange false
  match s.cohWho m with
  | none => refuse (s.badTag m.src 1)
  | some who =>
    match s.gateStep who a ⟨m.range, m.tweak⟩ write with
    | some n => refuse (s.gateRefuse who a n)
    | none =>
      let (t, near) := s.placeAtomic m
      let t := { t with coh := { t.coh with txns := t.coh.txns ++ [(⟨m, .queued, [], none, false, false, near, false⟩ : Txn)] } }
      let t := if m.op = 0x0C then t.modCopy m.line m.src fun c => { c with buf := true } else t
      t.pumpLine m.line

/-- A request reaches its home. Without an entry, or while its bucket is empty, a native request stays on its channel (R396,
R402); a compatibility agent's is bounced when it finds no entry or a blocked line (R404). -/
def request (op : Nat) (m : Msg) (s : State) : State :=
  if m.op ≠ op ∧ reqOps.contains m.op = true then s
  else if s.goodReq m = false then s.badMsg m 4
  else if s.domainOpen m.domain = false ∨ (m.src < 128 ∧ (s.engAt m.src).st = .resetting) then s
  else if m.ticket then
    { s with coh := { s.coh with granted := s.coh.granted.upd [] m.dst fun l => l.filter fun x => x != (m.src, m.domain) } }.orderReq m
  else if m.domain ≠ 64 ∧ s.bucketEmpty (s.cohCharged m) (m.line * 128) = true then s
  else if s.compatAgent m.src then
    if s.lineBusy m.line || !s.hasEntry m.dst m.domain m.src then
      { s with coh := { s.coh with wait := s.coh.wait.upd [] m.dst fun l => if l.contains (m.src, m.domain) then l else l ++ [(m.src, m.domain)] } }.send
        2 (msgBack m 0x08)
    else s.orderReq m
  else if s.hasEntry m.dst m.domain m.src = false then s
  else s.orderReq m

/-- FETCH_SHARE. -/
def execFetchShare (m : Msg) (s : State) : Host.Outcome State Fault Refusal := .next (s.live (request 0x04 m))

/-- FETCH_OWN. -/
def execFetchOwn (m : Msg) (s : State) : Host.Outcome State Fault Refusal := .next (s.live (request 0x05 m))

/-- FETCH_TRANSIENT. -/
def execFetchTransient (m : Msg) (s : State) : Host.Outcome State Fault Refusal := .next (s.live (request 0x06 m))

/-- UPGRADE. -/
def execUpgrade (m : Msg) (s : State) : Host.Outcome State Fault Refusal := .next (s.live (request 0x07 m))

/-- STORE_THROUGH. -/
def execStoreThrough (m : Msg) (s : State) : Host.Outcome State Fault Refusal := .next (s.live (request 0x08 m))

/-- SPILL. -/
def execSpill (m : Msg) (s : State) : Host.Outcome State Fault Refusal := .next (s.live (request 0x0C m))

/-- RELEASE. -/
def execRelease (m : Msg) (s : State) : Host.Outcome State Fault Refusal := .next (s.live (request 0x0D m))

/-- ATOMIC. -/
def execAtomic (m : Msg) (s : State) : Host.Outcome State Fault Refusal := .next (s.live (request 0x10 m))

/-! ### Messages in flight -/

/-- A message in flight is the one that a row brings. -/
def sameMsg (cls : Nat) (m : Msg) (x : Nat × Msg) : Bool :=
  x.1 == cls && x.2.op == m.op && x.2.src == m.src && x.2.dst == m.dst && x.2.txn == m.txn && x.2.line == m.line

/-- Takes the first message out that meets a condition. -/
def dropMsg (f : Nat × Msg → Bool) : List (Nat × Msg) → List (Nat × Msg)
  | [] => []
  | x :: t => if f x then t else x :: dropMsg f t

/-- A message in flight that a snoop may not overtake: an earlier snoop of the line to the agent (R403), and any message of it to a compatibility
agent, whose port keeps them in order (R404). -/
def State.overtakes (s : State) (m : Msg) : Bool :=
  (s.coh.net.takeWhile fun x => !sameMsg 1 m x).any fun x => x.2.dst == m.dst && x.2.line == m.line && (x.1 == 1 || s.compatAgent m.dst)

/-- The home has a transaction under the `txn` that a message names: its sender's own or, for a probe's answer, that of the probe (R397). -/
def State.outstanding (s : State) (m : Msg) : Bool :=
  s.coh.txns.any fun (t : Txn) => t.req.dst == m.dst && t.req.txn == m.txn && (t.req.src == m.src || m.op == 0x02 || m.op == 0x03)

/-- A message arrives: what Lendor has in flight is delivered. A response or data message that reaches a home and is not in flight
names no outstanding `txn` or fits no transaction (R412: the fourth and the fifth cause); one with an opcode that its class does not list, with reserved bits or with a domain that its sender is not in breaks R397. -/
def arrive (cls op : Nat) (m : Msg) (f : Msg → State → State) (s : State) : State :=
  let home := decide (132 ≤ m.dst ∧ m.dst ≤ 135)
  if m.op ≠ op then if (classOps cls).contains m.op ∨ home = false then s else s.badMsg m 4
  else if home ∧ (m.reserved ≠ 0 ∨ s.inDomain m.src m.domain = false) then s.badMsg m 4
  else if cls = 1 ∧ s.overtakes m = true then s
  else match s.coh.net.find? (sameMsg cls m) with
    | some x => f x.2 { s with coh := { s.coh with net := dropMsg (sameMsg cls m) s.coh.net } }
    | none => if home ∧ cls ≠ 1 then s.badMsg m (if s.outstanding m then 5 else 4) else s

/-- The transaction of a message between a requester and a home. -/
def State.txnOf (s : State) (src dst txn : Nat) : Option Txn :=
  s.coh.txns.find? fun (t : Txn) => t.req.src == src && t.req.dst == dst && t.req.txn == txn

/-- The transaction that probes an agent's copy of a line. -/
def State.probing (s : State) (home line agent : Nat) : Option Txn :=
  s.coh.txns.find? fun (t : Txn) => t.req.dst == home && t.req.line == line && t.phase == .probing && t.need.contains agent

/-! ### Probes at an agent (R399, R400, R408) -/

/-- What an agent holds when a probe reaches it: its data, whether they are dirty, and whether they sit in its spill buffer. An
operand cache or a cache of the control domain tells it with the probe, since it writes silently (R394); a field cache holds what it was given. -/
def probedCopy (m : Msg) (c : Copy) : LineData × Bool × Bool :=
  let silent := writesSilently m.dst
  let buf := c.buf || (silent && m.state == 0 && m.dirty)
  let dirty := buf || c.st == .m || (silent && m.dirty)
  (if silent && dirty then m.data else c.data, dirty, buf)

/-- The copy with which an agent answers a probe; none: it has sent a RELEASE of the line that crosses the probe (R408), or holds no copy. -/
def State.heldCopy (s : State) (m : Msg) : Option Copy :=
  let released := s.coh.txns.any fun (t : Txn) => t.req.op == 0x0D && t.req.src == m.dst && t.req.line == m.line
  match (s.copies m.line).find? fun c => c.agent == m.dst with
  | some c => if released || (writesSilently m.dst && m.state == 0 && !m.dirty && !c.buf) then none else some c
  | none => none

/-- The transactions for which a probe was sent. -/
def State.modProbing (s : State) (p m : Msg) (f : Txn → Txn) : State :=
  { s with coh := { s.coh with txns := s.coh.txns.map fun (x : Txn) =>
    if x.req.dst = p.src ∧ x.req.line = p.line ∧ x.need.contains m.dst = true then f x else x } }

/-- An agent's answer to a probe. -/
def State.answerProbe (s : State) (p m : Msg) (state : CacheSt) (d : LineData) (dirty withData : Bool) : State :=
  s.send (if withData then 3 else 2) { (msgBack p (if withData then 0x02 else 0x03)) with
    state := cacheCode state, dirty := dirty, data := d, tweak := m.tweak }

/-- An agent that holds no copy answers a probe with PROBE_ACK in state I (R408): its home takes no data from it, and reads memory (DESIGN CHOICE for
a probe with `direct`, DESIGN CHOICE, notes/assumptions/95.md). -/
def State.missProbe (s : State) (p m : Msg) : State :=
  ((s.modProbing p m fun x => { x with direct := false }).modCopy m.line m.dst fun c => { c with st := .i }).answerProbe p p .i 0 false false

/-- Counts a line that a field cache serves to an operand cache (R547, R548). -/
def State.countServe (s : State) (p m : Msg) : State :=
  if m.dst < 128 ∨ 132 ≤ m.dst then s
  else match s.coh.txns.find? fun (x : Txn) => x.req.dst == p.src && x.req.line == p.line && x.need.contains m.dst with
    | some x => if x.req.src < 128 ∧ x.req.op ≠ 0x08 then
        let c := s.cohCharged x.req
        s.countBoth c.part c.ctx 1 128
      else s
    | none => s

/-- PROBE_SHARE and PROBE_TAKE reach an owner (R400): it supplies the line and stays in S or I. -/
def supply (take : Bool) (m p : Msg) (s : State) : State :=
  match s.heldCopy m with
  | none => s.missProbe p m
  | some c =>
    let (d, dirty, buf) := probedCopy m c
    let keep : CacheSt := if take || buf then .i else .s
    let p := { p with tweak := c.tweak }
    let t := (s.countServe p m).modCopy m.line m.dst fun c => { c with st := keep, data := d }
    if p.direct then
      let state : CacheSt := if take then (if dirty then .m else .e) else .s
      let t := t.send 3 { (msgBack p 0x01) with
        dst := p.tag % 256, txn := p.tag / 256, state := cacheCode state, dirty := take && dirty, data := d }
      let t := t.answerProbe p p keep 0 false false
      if take = false ∧ dirty = true then
        (t.modProbing p m fun x => { x with need := x.need ++ [1000 + m.dst] }).answerProbe p p keep d true true
      else t
    else t.answerProbe p p keep d dirty true

/-- PROBE_SHARE. -/
def execProbeShare (m : Msg) (s : State) : Host.Outcome State Fault Refusal := .next (s.live (arrive 1 0x04 m (fun p => supply false m p)))

/-- PROBE_TAKE. -/
def execProbeTake (m : Msg) (s : State) : Host.Outcome State Fault Refusal := .next (s.live (arrive 1 0x05 m (fun p => supply true m p)))

/-- PROBE_FLUSH reaches an owner: dirty data goes to the home and the owner keeps the line clean in E. -/
def flush (m p : Msg) (s : State) : State :=
  match s.heldCopy m with
  | none => s.missProbe p m
  | some c =>
    let (d, dirty, buf) := probedCopy m c
    let keep : CacheSt := if buf then .i else .e
    let t := s.modCopy m.line m.dst fun c => { c with st := keep, data := d }
    t.answerProbe p { p with tweak := c.tweak } keep d dirty dirty

/-- PROBE_FLUSH. -/
def execProbeFlush (m : Msg) (s : State) : Host.Outcome State Fault Refusal := .next (s.live (arrive 1 0x06 m (fun p => flush m p)))

/-- PROBE_KILL. -/
def execProbeKill (m : Msg) (s : State) : Host.Outcome State Fault Refusal :=
  .next (s.live (arrive 1 0x07 m (fun p s => (s.modCopy m.line m.dst fun c => { c with st := .i }).answerProbe p p .i 0 false false)))

/-! ### Responses and data at a home -/

/-- A probe's answer reaches the home: the filter follows, dirty data is written or kept for the requester (R398, R400), and the
transaction goes on when the last answer is in. -/
def probeAnswer (withData : Bool) (m : Msg) (s : State) : State :=
  let late := 1000 + m.src
  match if withData then (s.probing m.dst m.line late).orElse (fun _ => s.probing m.dst m.line m.src) else s.probing m.dst m.line m.src with
  | none => s
  | some t =>
    let key := if withData ∧ t.need.contains late = true then late else m.src
    let put := m.dirty && withData && (t.req.op == 0x04 || t.req.op == 0x06 || t.req.op == 0x08 || (t.req.op == 0x10 && !t.near))
    let u := if put then s.cohPut t.req m.tweak m.data else s
    let u := if m.state = 0 then u.dropCopy m.line m.src
      else u.modCopy m.line m.src fun c => { c with own := decide (m.state ≠ 1) }
    let need := t.need.filter fun a => a != key
    let t := { t with need := need, got := if withData then some m.data else t.got, dirty := t.dirty || (withData && m.dirty) }
    let u := u.modTxn t.req fun _ => t
    if need.isEmpty then (u.proceed t).pumpLine m.line else u

/-- PROBE_ACK. -/
def execProbeAck (m : Msg) (s : State) : Host.Outcome State Fault Refusal := .next (s.live (arrive 2 0x03 m (probeAnswer false)))

/-- PROBE_DATA. -/
def execProbeData (m : Msg) (s : State) : Host.Outcome State Fault Refusal := .next (s.live (arrive 3 0x02 m (probeAnswer true)))

/-- DONE_ACK: the line unblocks (R403). One that overtakes the last probe answer is kept. -/
def doneAck (m : Msg) (s : State) : State :=
  match s.txnOf m.src m.dst m.txn with
  | none => s
  | some t => if t.phase = .acking then (s.endTxn t.req).pumpLine t.req.line else s.modTxn t.req fun x => { x with acked := true }

/-- DONE_ACK. -/
def execDoneAck (m : Msg) (s : State) : Host.Outcome State Fault Refusal := .next (s.live (arrive 2 0x02 m doneAck))

/-- SPILL_DATA: the line goes to the field cache of the agent's field, or through the lane to memory (R398, R409). -/
def spillData (m : Msg) (s : State) : State :=
  match s.txnOf m.src m.dst m.txn with
  | none => s
  | some t =>
    let c : Copy := ⟨m.src, true, .m, m.tweak, m.data, false, m.cls, none⟩
    let u := s.dropCopy m.line m.src
    let u := (u.victim t.req c).getD (u.cohPut t.req m.tweak m.data)
    ((u.doneTo t.req .ok false).endTxn t.req).pumpLine t.req.line

/-- SPILL_DATA. -/
def execSpillData (m : Msg) (s : State) : Host.Outcome State Fault Refusal := .next (s.live (arrive 3 0x03 m spillData))

/-- The new value of an atomic operation's word of `w` bits (R406). -/
def atomicResult (op w old val cmp : Nat) : Nat :=
  match op with
  | 0 => (old + val) % 2 ^ w
  | 1 => min old val
  | 2 => max old val
  | 3 => if signed w old ≤ signed w val then old else val
  | 4 => if signed w val ≤ signed w old then old else val
  | 5 => val
  | _ => if old = cmp then val else old

/-- An ATOMIC at the home (R406, R407): a read-merge-write at the lane, and the old value to the requester. -/
def State.atomicAt (s : State) (q m : Msg) : State :=
  let w := if q.atomic.testBit 3 then 64 else 32
  let byte := q.atomic / 16 % 16 * 8
  let d := (s.lineAt q.line).data
  let old := if (s.lineAt q.line).st = .valid then (d >>> (8 * byte)).toNat % 2 ^ w else 0
  let new := atomicResult (q.atomic % 8) w old (m.data.toNat % 2 ^ w) (m.data.toNat / 2 ^ 64 % 2 ^ w)
  let acc := Access.write (BitVec.ofNat 1024 (new * 2 ^ (8 * byte))) (BitVec.ofNat 128 ((2 ^ (w / 8) - 1) * 2 ^ byte)) true
  let t := s.cohCount q 32
  let (u, st, _) := if q.domain = 64 then t.regionAccess (q.line * 128) acc q.ecc else t.gateLine (t.cohGate q acc) (t.cohCharged q) (q.line * 128)
  u.fillTo q st .i false (BitVec.ofNat 1024 old)

/-- STORE_DATA: the write data of a STORE_THROUGH or the operand of an ATOMIC. -/
def storeData (m : Msg) (s : State) : State :=
  match s.txnOf m.src m.dst m.txn with
  | none => s
  | some t =>
    let q := t.req
    let u := if q.op = 0x10 then s.atomicAt q m
      else
        let v := (s.dropCopy q.line q.src).cohCount q (if q.narrow then 32 else 128)
        let (d, k) := placed q m.data m.mask
        let (v, st, _) := if q.domain = 64 then v.regionAccess (q.line * 128) (.write d k q.narrow) q.ecc
          else v.gateLine (v.cohGate q (.write d k q.narrow)) (v.cohCharged q) (q.line * 128)
        v.doneTo q st false
    (u.endTxn q).pumpLine q.line

/-- STORE_DATA. -/
def execStoreData (m : Msg) (s : State) : Host.Outcome State Fault Refusal := .next (s.live (arrive 3 0x04 m storeData))

/-! ### Responses and data at an agent -/

/-- A native requester acknowledges what ends its transaction (R403). -/
def State.ackHome (s : State) (agent txn line : Nat) : State :=
  match s.coh.txns.find? fun (t : Txn) => t.req.src == agent && t.req.txn == txn && t.req.line == line with
  | some t => if s.waitsAck t then s.send 2 { (msgBack t.req 0x02) with src := agent, dst := t.req.dst } else s
  | none => s

/-- FILL (R401): the agent's copy takes the granted state. One that comes straight from an owner, ahead of its PROBE_ACK, makes the copy (R400). -/
def fillArrives (m : Msg) (s : State) : State :=
  let direct := s.coh.txns.any fun (t : Txn) => t.req.src == m.dst && t.req.txn == m.txn && t.req.line == m.line && t.direct
  let t := if m.status ≠ .ok ∨ m.state = 0 then s
    else if direct ∧ (s.copies m.line).all fun c => c.agent != m.dst then
      s.addCopy m.line ⟨m.dst, decide (m.state ≠ 1), cacheOf m.state, m.tweak, m.data, false, m.cls, none⟩
    else s.modCopy m.line m.dst fun c => { c with st := cacheOf m.state, data := if m.narrow then c.data else m.data }
  t.ackHome m.dst m.txn m.line

/-- FILL. -/
def execFill (m : Msg) (s : State) : Host.Outcome State Fault Refusal := .next (s.live (arrive 3 0x01 m fillArrives))

/-- DONE: an UPGRADE's requester holds the line in E, and a spill buffer frees. -/
def doneArrives (m : Msg) (s : State) : State :=
  let up := match s.coh.txns.find? fun (t : Txn) => t.req.src == m.dst && t.req.txn == m.txn && t.req.line == m.line with
    | some t => t.req.op == 0x07
    | none => false
  let t := s.modCopy m.line m.dst fun c => { c with st := if up then .e else c.st, buf := false }
  t.ackHome m.dst m.txn m.line

/-- DONE. -/
def execDone (m : Msg) (s : State) : Host.Outcome State Fault Refusal := .next (s.live (arrive 2 0x01 m doneArrives))

/-- DATA_GO: the agent sends its write data; a field cache spills what it holds. -/
def dataGo (m p : Msg) (s : State) : State :=
  match s.txnOf m.dst m.src m.txn with
  | none => s
  | some t =>
    let c := (s.copies m.line).find? fun c => c.agent == m.dst
    if t.req.op = 0x0C then
      let d := match c with
        | some c => if writesSilently m.dst then m.data else c.data
        | none => m.data
      s.send 3 { (msgBack p 0x03) with state := 0, dirty := true, data := d, mask := BitVec.allOnes 128, tweak := (c.map Copy.tweak).getD t.req.tweak }
    else s.send 3 { (msgBack p 0x04) with data := m.data, mask := m.mask }

/-- DATA_GO. -/
def execDataGo (m : Msg) (s : State) : Host.Outcome State Fault Refusal := .next (s.live (arrive 2 0x04 m (fun p => dataGo m p)))

/-- BOUNCE: the agent learns that it must wait for a TICKET; the home holds its place (R404). -/
def execBounce (m : Msg) (s : State) : Host.Outcome State Fault Refusal := .next (s.live (arrive 2 0x08 m (fun _ s => s)))

/-- TICKET: the agent may resend with `ticket` 1; the home holds its entry (R404). -/
def execTicket (m : Msg) (s : State) : Host.Outcome State Fault Refusal := .next (s.live (arrive 2 0x09 m (fun _ s => s)))

/-! ### Errors (R412–R414) -/

/-- SNOOP_TIMEOUT: an agent that has not answered a snoop of a home is dead. -/
def snoopTimeout (home agent domain : Nat) (s : State) : State :=
  if s.coh.txns.any fun (t : Txn) => t.req.dst == 132 + home && t.phase == .probing && t.req.domain == domain &&
      (t.need.contains agent || t.need.contains (1000 + agent)) then s.loseDomain domain agent 3 else s

/-- SNOOP_TIMEOUT. -/
def execSnoopTimeout (home agent domain : Nat) (s : State) : Host.Outcome State Fault Refusal :=
  .next (s.live (snoopTimeout home agent domain))

/-- AGENT_CACHE_ERROR. -/
def execAgentCacheError (agent domain : Nat) (s : State) : Host.Outcome State Fault Refusal :=
  .next (s.live fun s => if s.inDomain agent domain then s.loseDomain domain agent 1 else s)

/-- SNOOP_FILTER_ERROR: a filter entry of a line; one whose domain cannot be read is a control-domain error. -/
def snoopFilterError (home line : Nat) (readable : Bool) (s : State) : State :=
  let a := line * 128
  if (s.copies line).isEmpty ∨ lineField a ≠ home then s
  else if readable = false then s.needReset 1 (132 + home)
  else if inControl a then s.loseDomain 64 (132 + home) 2
  else match s.rangeOf a with
    | some r => s.loseDomain (s.rangeAt r).owner (132 + home) 2
    | none => s

/-- SNOOP_FILTER_ERROR. -/
def execSnoopFilterError (home line : Nat) (readable : Bool) (s : State) : Host.Outcome State Fault Refusal :=
  .next (s.live (snoopFilterError home line readable))

/-! ### COH_MODE_SET (R418, R419) -/

/-- The checks of COH_MODE_SET, in order. -/
def cohModeSetChecks (c : Cmd) : List (Bool × Status × Nat) :=
  let kind := c.f 0 0 8
  let zeros := if kind = 0 then c.zeros [(1, 1, 7), (2, 0, 48), (24, 0, 64)] else if kind = 1 then c.zeros [(1, 2, 6), (2, 0, 240)] else true
  [
    (zeros, .rejectedInconsistent, 0x0005),
    (decide (kind ≤ 1), .rejectedInconsistent, 0x0B00),
    (if kind = 0 then c.part == 0xFF else c.part != 0xFF, .notPermitted, 0x0B01),
    (kind != 0 || c.f 8 0 128 != 0, .rejectedInconsistent, 0x0B02),
    (kind != 1 || c.f 1 0 2 != 3, .rejectedInconsistent, 0x0B03)]

/-- COH_MODE_SET at staging. -/
def runCohModeSet (c : Cmd) (s : State) : State :=
  let kind := c.f 0 0 8
  s.checked c (cohModeSetChecks c) fun s =>
    s.stage c [(if kind = 0 then c.f 1 0 1 else 2, c.pay)]

/-- COH_MODE_SET. -/
def execCohModeSet (k : Take) (s : State) : Host.Outcome State Fault Refusal := .next (s.live (hawk 0x0B01 anyCmd k runCohModeSet))

/-- Applies a COH_MODE_SET entry (R419): an engine whose mode changes leaves service, with its open batch (R205). -/
def State.applyCoh (s : State) (p d : Nat) : State :=
  if fld d 0 0 8 = 1 then { s with coh := { s.coh with place := s.coh.place.put 0 p (fld d 1 0 2) } }
  else
    let mode := fld d 1 0 1 == 1
    (bitsOf (BitVec.ofNat 128 (fld d 8 0 128))).foldl (fun s e =>
      let rest := s.coh.switch.filter fun x => x.1 != e
      if (s.engAt e).compat = mode then { s with coh := { s.coh with switch := rest } }
      else
        let t := { s with coh := { s.coh with switch := rest ++ [(e, mode, false)] } }
        match s.engPart e with
        | some q => t.leaveService q e
        | none => t) s

/-- A frame boundary for the engines that change mode (R419): one that has switched returns to service; one that is idle has its
operand cache snooped out and switches. -/
def State.switchModes (s : State) : State :=
  s.coh.switch.foldl (fun s (x : Nat × Bool × Bool) =>
    let rest := s.coh.switch.filter fun (y : Nat × Bool × Bool) => y.1 != x.1
    let e := s.engAt x.1
    if x.2.2 then { s with coh := { s.coh with switch := rest } }
    else if e.idle && s.engQuiet x.1 then
      let t := (s.probeEngine x.1).modEng x.1 fun y => { y with compat := x.2.1, lastCtx := none }
      { t with coh := { t.coh with switch := rest ++ [(x.1, x.2.1, true)] } }
    else s) s

end Sys2Proof.Machine
end

