-- ==== Sys2Proof/Machine/Rings.lean ====
section
/-! DEFINITION. The ring family: doorbells, pushes, fills, fetches and the descriptors NOP, WORK, PREFILL, WAIT and SIGNAL
(05_contexts_rings_doorbells, with the type checks of 09 and 10). -/

namespace Sys2Proof.Machine

/-- A doorbell or push is dropped without effect (R139–R143, R157, R159): it counts at its ring and on the global page. -/
def State.badBell (s : State) (r : Nat) : State := (s.modRing r fun x => { x with bad := inc32 x.bad }).countGlob 69 1

/-- The page of a ring takes doorbells and pushes: a partition that is LIVE or RESETTING holds it (R98). -/
def State.pageTakes (s : State) (r : Nat) : Bool :=
  match s.ringPart r with
  | some p => (s.partAt p).st == .live || (s.partAt p).st == .resetting
  | none => false

/-- A value passes R143. -/
def Ring.takes (x : Ring) (v : W32) : Bool := decide (ahead v x.done ≤ x.slots) && decide (ahead v x.prod ≤ x.slots)

/-- The home field has to look at a ring: one that is not cached is filled (R164). -/
def State.ringTouch (s : State) (r : Nat) : State := if s.cached r then s else s.modRing r fun x => { x with fill := true }

/-- Counts a doorbell or a push chip-wide and in the ring's home field (R554). -/
def State.countBell (s : State) (r : Nat) : State := (s.countGlob 68 1).countGlob (8 * (s.ringAt r).home + 6) 1

/-- One doorbell write to a ring (R98, R139, R143, R157); `whole`: bytes 0–3 are all written. -/
def State.bell (s : State) (r : Nat) (whole : Bool) (v : W32) : State :=
  if s.pageTakes r = false then s
  else
    let x := s.ringAt r
    if whole = false ∨ (x.st ≠ .active ∧ x.st ≠ .halted) ∨ x.takes v = false then s.badBell r
    else
      let t := (s.modRing r fun x => { x with
        prod := v, doorbells := inc32 x.doorbells, belled := s.ten.order + 1
        frames := if v = x.prod then x.frames else x.frames ++ [(v, s.frame)] }).tickOrder.countBell r
      if v = x.prod then t else t.ringTouch r

/-- BAR 2 answers: the window is open (R589) and the function is in D0 (R430). -/
def State.barOpen (s : State) : Bool := s.chip.opened && !s.out.low

/-- What a host read of the doorbell or push window returns, whatever its width (R138). -/
def readBells (_offset _bytes : Nat) : Nat := 0

/-- DOORBELL: a write that covers several slots is a series in ascending order (R137, R139). -/
def doorbell (w : WindowWrite) (s : State) : State :=
  if s.barOpen = false ∨ w.bytes = 0 ∨ 0x800000 < w.offset + w.bytes then s
  else
    let first := w.offset / 8
    (List.range ((w.offset + w.bytes - 1) / 8 - first + 1)).foldl (fun s i =>
      let slot := first + i
      let at_ := fun j => 8 * slot + j - w.offset
      let whole := decide (w.offset ≤ 8 * slot ∧ 8 * slot + 4 ≤ w.offset + w.bytes) &&
        (List.range 4).all fun j => w.enables.testBit (at_ j)
      s.bell slot whole (BitVec.ofNat 32 (w.data / 2 ^ (8 * at_ 0)))) s

/-- DOORBELL. -/
def execDoorbell (w : WindowWrite) (s : State) : Host.Outcome State Fault Refusal := .next (s.live (doorbell w))

/-- PUSH (R140, R159). A push into ring memory of a peer chip is published, and its descriptor is fetched when the peer has accepted the write. -/
def push (offset bytes : Nat) (data : BitVec 512) (s : State) : State :=
  let r := offset / 64
  if s.barOpen = false ∨ bytes = 0 ∨ 0x4000000 < offset + bytes ∨ s.pageTakes r = false then s
  else
    let x := s.ringAt r
    let i := x.prod
    if offset % 64 ≠ 0 ∨ bytes ≠ 64 ∨ x.st ≠ .active ∨ x.fmt ≠ 3 ∨ x.takes (i + 1) = false then s.badBell r
    else match s.objWriteAs (.push r i) ((s.ringPart r).getD 0xFF) x.ctx (x.descAddr + 64 * (i.toNat % x.slots)) 64 x.cls data.toNat with
      | (t, .failed) => t.haltRing r 0x0323 i
      | (t, _) =>
        ((t.modRing r fun x => { x with
          prod := i + 1, doorbells := inc32 x.doorbells, frames := x.frames ++ [(i + 1, s.frame)], belled := t.ten.order + 1
          pushed := x.pushed ++ [(i, data)] }).tickOrder.countBell r).ringTouch r

/-- PUSH. -/
def execPush (offset bytes : Nat) (data : BitVec 512) (s : State) : Host.Outcome State Fault Refusal :=
  .next (s.live (push offset bytes data))

/-- RING_STATE_FILL (R164): the fill waits while every evictable entry is pinned. -/
def ringStateFill (r : Nat) (s : State) : State :=
  let x := s.ringAt r
  if x.fill = false ∨ x.st = .unbound ∨ s.coreStopped (1 + x.home) = true then s
  else match s.cacheRing r with
    | some t => t.modRing r fun x => { x with fill := false }
    | none => s

/-- RING_STATE_FILL. -/
def execRingStateFill (r : Nat) (s : State) : Host.Outcome State Fault Refusal := .next (s.live (ringStateFill r))

/-- The ring fetches (R142, R154, R157, R158, R161): it is cached, has descriptors published, and its next entry is free. -/
def State.fetches (s : State) (r : Nat) : Bool :=
  let x := s.ringAt r
  s.cached r && x.fetch != x.prod && (s.net.writes.all fun w => w.what != .push r x.fetch) && decide (ahead x.fetch x.done < x.slots) &&
  match x.st, x.unbind with
  | .active, _ => true
  | .unbinding, some u => !u.discard && x.haltCode == 0 && x.fetch != u.upto
  | _, _ => false

/-- An index lies below another within a ring. -/
def below (i upto : W32) : Bool := decide (1 ≤ ahead upto i ∧ ahead upto i ≤ 2 ^ 31)

/-- The status that a fetched descriptor takes at once (R86, R150, checks 2 to 4, and the flushes of R305, R519 and R528);
none: it is queued. -/
def State.fetchStatus (s : State) (p : Nat) (x : Ring) (d : Desc) : Option Status :=
  match (x.flushes.find? fun e => below d.index e.1) with
  | some e => some e.2
  | none =>
    if d.partGen ≠ (s.partAt p).gen.toNat then some .staleGeneration
    else if (s.ctxAt x.ctx).st ≠ .live then some .contextLost
    else if d.ctxGen ≠ (s.ctxAt x.ctx).gen.toNat then some .staleGeneration
    else if d.deadline x.fmt ≠ 0 ∧ s.driftBars p = true then some .notPermitted
    else none

/-- DESCRIPTOR_FETCH (R150, R154, R158, R159). A descriptor of unknown type has been fetched and never starts, so it stays queued (R161). A pushed copy runs in place of ring memory; a fetch waits while its bucket is empty (R216). -/
def descriptorFetch (r : Nat) (host : Option (BitVec 512)) (s : State) : State :=
  if s.fetches r = false then s
  else
    let x := s.ringAt r
    let p := (s.ringPart r).getD 0xFF
    let i := x.fetch
    let n := if x.fmt = 3 then 64 else 32
    let copy := (x.pushed.find? fun e => e.1 == i).map Prod.snd
    let (t, got) := match copy with
      | some b => (s, some b.toNat)
      | none => s.objRead p x.ctx (x.descAddr + n * (i.toNat % x.slots)) n x.cls (host.map BitVec.toNat)
    if copy.isNone ∧ s.objWaits p x.ctx (x.descAddr + n * (i.toNat % x.slots)) x.cls false = true then s
    else match got with
    | none => ((t.haltRing r 0x0320 i).unbindCheck r).floorSettle
    | some v =>
      let ref := ((x.frames.find? fun e => below i e.1).map Prod.snd).getD s.frame
      let d : Desc := ⟨i, BitVec.ofNat 512 (v % 2 ^ (8 * n)), ref⟩
      let t := t.modRing r fun x => { x with
        fetch := i + 1, pushed := x.pushed.filter fun e => e.1 != i
        frames := x.frames.filter fun e => e.1 != i + 1, flushes := x.flushes.filter fun e => e.1 != i + 1 }
      let flushed := x.flushes.any fun e => below i e.1
      if flushed = false ∧ 4 < d.type then (((t.modRing r fun x => { x with queue := x.queue ++ [d] }).haltRing r 0x0321 i).unbindCheck r).floorSettle
      else match t.fetchStatus p x d with
        | some st => t.complete r d st
        | none => t.modRing r fun x => { x with queue := x.queue ++ [d] }

/-- DESCRIPTOR_FETCH. -/
def execDescriptorFetch (r : Nat) (host : Option (BitVec 512)) (s : State) : Host.Outcome State Fault Refusal :=
  .next (s.live (descriptorFetch r host))

/-- The next descriptor of a ring when it has a type and R151 lets it start. -/
def State.head (s : State) (r type : Nat) : Option Desc :=
  match s.nextDesc r with
  | some d => if d.type = type then some d else none
  | none => none

/-- A descriptor starts: on a context that is no longer LIVE it completes with CONTEXT_LOST (R133, R298). -/
def State.starting (s : State) (r type : Nat) (f : Desc → State) : State :=
  match s.head r type with
  | none => s
  | some d => if (s.ctxAt (s.ringAt r).ctx).st = .live then f d else s.complete r d .contextLost

/-- NOP completes OK at once. -/
def execNop (r : Nat) (s : State) : Host.Outcome State Fault Refusal :=
  .next (s.live fun s => s.starting r 0 fun d => (s.startDesc r d).complete r d .ok)

/-- PREFILL (R277, R278): the chunk enters its sequence. While the sequence holds two chunks it waits. -/
def prefill (r : Nat) (s : State) : State :=
  s.starting r 2 fun d =>
    let x := s.ringAt r
    let p := (s.ringPart r).getD 0xFF
    let n := d.seq x.fmt
    let q := s.seqAt n
    let pos := d.pos x.fmt
    let tokens := d.tokens x.fmt
    if (s.partAt p).record.hasSeq n = false ∨ q.st = .free ∨ q.ctx ≠ x.ctx then s.complete r d .notPermitted
    else if q.st = .failed then s.complete r d q.last
    else if q.st ≠ .filling then s.complete r d .notPermitted
    else if 2 ≤ q.chunks.length then s
    else if pos ≠ q.queuedEnd ∨ tokens = 0 ∨ q.prompt < pos + tokens then s.complete r d .notPermitted
    else (s.startDesc r d).modSeq n fun q => { q with
      queuedEnd := pos + tokens
      chunks := q.chunks ++ [⟨d.tokAddr x.fmt, pos, tokens, deadlineAt d.frame (d.deadline x.fmt), r, d⟩] }

/-- PREFILL. -/
def execPrefill (r : Nat) (s : State) : Host.Outcome State Fault Refusal := .next (s.live (prefill r))

/-- Checks 1 and 3 of R300: the fence is allocated and the partition's, and the value fits a COMPAT fence. -/
def State.fenceFits (s : State) (p n v : Nat) : Bool :=
  (s.partAt p).record.hasFence n && (s.fenceAt n).st != .free && (!(s.fenceAt n).compat || decide (v < 2 ^ 32))

/-- WAIT (R300, R303–R306). -/
def wait (r : Nat) (s : State) : State :=
  s.starting r 3 fun d =>
    let x := s.ringAt r
    let n := d.fence x.fmt
    let v := d.value x.fmt
    let f := s.fenceAt n
    if s.fenceFits ((s.ringPart r).getD 0xFF) n v = false then s.complete r d .notPermitted
    else if f.st = .abandoned then ((s.startDesc r d).complete r d .abandoned).flushRing r .abandoned
    else if f.satisfies (BitVec.ofNat 64 v) then (s.startDesc r d).complete r d .ok
    else (s.startDesc r d).modFence n fun f => { f with waiters := addWaiter ⟨BitVec.ofNat 64 v, r, d.index⟩ f.waiters }

/-- WAIT. -/
def execWait (r : Nat) (s : State) : Host.Outcome State Fault Refusal := .next (s.live (wait r))

/-- SIGNAL (R300–R304): its completion follows what the bank did. -/
def signalDesc (r : Nat) (s : State) : State :=
  s.starting r 4 fun d =>
    let x := s.ringAt r
    let n := d.fence x.fmt
    let v := d.value x.fmt
    let f := s.fenceAt n
    if s.fenceFits ((s.ringPart r).getD 0xFF) n v = false ∨ f.kind ≠ .plain ∨ f.owner ≠ x.ctx then s.complete r d .notPermitted
    else if f.st = .abandoned then s.complete r d .abandoned
    else match (s.startDesc r d).signal n (BitVec.ofNat 64 v) with
      | (t, .rejected) => t.complete r d .notPermitted
      | (t, _) => t.complete r d .ok

/-- SIGNAL. -/
def execSignal (r : Nat) (s : State) : Host.Outcome State Fault Refusal := .next (s.live (signalDesc r))

end Sys2Proof.Machine
end

