-- ==== Sys2Proof/Machine/Sched.lean ====
section
/-! DEFINITION. The scheduling family: SCHED_SET, SCHED_QUERY, ADMISSION_CYCLE, WORK and the floor window (06). -/

namespace Sys2Proof.Machine

/-! ### SCHED_SET (R206, R207) -/

/-- The reserved fields of a SCHED_SET entry by kind. -/
def schedReserved : Nat → List (Nat × Nat × Nat)
  | 0 => [(7, 0, 8), (12, 0, 160)]
  | 1 => [(6, 0, 208)]
  | 2 => [(2, 0, 240)]
  | _ => []

/-- The checks of SCHED_SET, in order. -/
def schedSetChecks (c : Cmd) : List (Bool × Status × Nat) :=
  let kind := c.f 0 0 8
  [
    (c.zeros (schedReserved kind), .rejectedInconsistent, 0x0005),
    (decide (kind ≤ 2), .rejectedInconsistent, 0x0400),
    (kind != 0 || (List.range 8).all fun k => c.f 2 (2 * k) 2 != 3, .rejectedInconsistent, 0x0401),
    (kind != 0 || decide (1 ≤ c.f 5 0 8 ∧ c.f 5 0 8 ≤ 8 ∧ 1 ≤ c.f 6 0 8 ∧ c.f 6 0 8 ≤ 64), .rejectedInconsistent, 0x0402),
    (kind != 0 || decide (c.f 8 0 16 ≤ c.f 10 0 16 ∧ c.f 10 0 16 ≤ 4096), .rejectedInconsistent, 0x0403),
    (kind != 1 || decide (1 ≤ c.f 2 0 16 ∧ 1 ≤ c.f 4 0 16 ∧ c.f 2 0 16 + c.f 4 0 16 ≤ 65536), .rejectedInconsistent, 0x0404),
    (kind != 2 || c.ref.mb == .manager, .notPermitted, 0x0405)]

/-- SCHED_SET at staging. -/
def runSchedSet (c : Cmd) (s : State) : State :=
  let kind := c.f 0 0 8
  s.checked c (schedSetChecks c) fun s =>
    s.stage c [(kind + (if kind = 1 then 4 * c.f 2 0 16 else 0), c.pay)]

/-- SCHED_SET. -/
def execSchedSet (k : Take) (s : State) : Host.Outcome State Fault Refusal := .next (s.live (hawk 0x0401 anyCmd k runSchedSet))

/-- Changes a partition's scheduling policy. -/
def State.modSched (s : State) (p : Nat) (f : SchedPol → SchedPol) : State :=
  { s with org := { s.org with sched := s.org.sched.upd SchedPol.init p f } }

/-- Applies a SCHED_SET entry (R207). -/
def State.applySched (s : State) (p d : Nat) : State :=
  match fld d 0 0 8 with
  | 0 => s.modSched p fun x => { x with
      defWeight := fld d 1 0 8, classMode := BitVec.ofNat 16 (fld d 2 0 16), edfShare := fld d 4 0 8, edfHorizon := fld d 5 0 8
      burst := fld d 6 0 8, prefillMin := fld d 8 0 16, prefillMax := fld d 10 0 16 }
  | 1 => (List.range (fld d 4 0 16)).foldl (fun s i =>
      let c := fld d 2 0 16 + i
      if (s.ctxAt c).st = .free then s else s.modCtx c fun x => { x with weight := fld d 1 0 8 }) s
  | _ => s.modSched p fun x => { x with spare := fld d 1 0 8 }

/-! ### Backlog and grants (R170, R176) -/

/-- The contexts backlogged in the weighted tier with weight 1 or more. -/
def State.weighted (s : State) (p f : Nat) : List Nat :=
  (((s.work p f).filter fun w => s.tier p f w == .weighted && (s.ctxAt w.ctx).weight != 0).map Work.ctx).eraseDups

/-- W_f: the sum of their weights. -/
def State.weightSum (s : State) (p f : Nat) : Nat := ((s.weighted p f).map fun c => (s.ctxAt c).weight).sum

/-- The grants of a frame boundary (R176): D of a context backlogged in the weighted tier rises by its grant, up to `burst_frames`
grants; a positive D of a context that is not backlogged becomes 0. W_f and the grant of weight 1 are kept (R208). -/
def State.grants (s : State) (p f : Nat) : State :=
  let on := s.weighted p f
  let busy := s.backlog p f
  let w := s.weightSum p f
  let e := s.engTime p f
  let t := (s.ctxsOf p).foldl (fun t x =>
    if on.contains x.1 then
      let g := e * x.2.weight / w
      t.modCtxf x.1 f fun y => { y with deficit := clampInt 32 (min (y.deficit + g) ((s.schedAt p).burst * g : Nat)) }
    else if busy.contains x.1 = false ∧ 0 < t.deficit x.1 f then t.modCtxf x.1 f fun y => { y with deficit := 0 } else t) s
  t.modPfield p f fun x => { x with weightSum := w, grantUnit := if w = 0 then 0 else e / w }

/-! ### SCHED_QUERY (R208, R209) -/

/-- SCHED_QUERY view 0. -/
def schedView (s : State) (p : Nat) : List (Nat × Nat) :=
  [(8, p), (8, (s.partAt p).gen.toNat), (16, 0), (32, s.frame), (32, s.org.window.toNat), (32, 0)] ++
  [0, 1, 2, 3].flatMap fun f =>
    let x := s.pfieldAt p f
    let owed := (s.ctxsOf p).filter fun e => (s.ctxfAt e.1 f).owed
    let due := (s.ctxsOf p).filter fun e => (s.ctxfAt e.1 f).due
    [(8, (s.serving p f).length), (8, x.guarLast), (16, (s.backlog p f).length), (32, x.weightSum), (16, x.admitsLast), (16, x.spareLast),
      (16, x.edfLast), (16, 0), (16, owed.length), (16, due.length), (32, x.floorMisses), (32, x.grantUnit), (32, 0)]

/-- SCHED_QUERY view 1. -/
def ctxSchedView (s : State) (p c : Nat) : List (Nat × Nat) :=
  let x := s.ctxAt c
  let all := [0, 1, 2, 3]
  [(16, c), (8, x.gen.toNat), (8, x.weight), (1, bit (all.any fun f => (s.ctxfAt c f).owed)),
    (1, bit (all.any fun f => (s.ctxfAt c f).due)), (6, 0), (24, 0), (32, (s.ten.lastAdmit.get ⟨0, 0⟩ c).frame.toNat), (32, 0)] ++
  all.flatMap fun f =>
    let w := (s.work p f).filter fun w => w.ctx == c
    let rows := ((w.filter fun w => w.kind != 2).map fun w =>
      if w.kind = 0 then 1 else (s.seqAt w.id).queuedEnd - (s.seqAt w.id).next).sum
    let rings := (s.ringsOf p).filter fun e => e.2.home == f && e.2.ctx == c && e.2.st != .unbound && e.2.queue.head?.any fun d => d.type == 1
    [(32, unsigned 32 (s.deficit c f)), (32, rows), (16, rings.length), (16, 0), (32, (s.ctxfAt c f).admits)]

/-- The checks of SCHED_QUERY, in order. -/
def schedQueryChecks (c : Cmd) (s : State) : List (Bool × Status × Nat) :=
  let view := c.f 0 0 8
  let x := c.f 4 0 16
  [
    (c.zeros [(1, 0, 24), (6, 0, 16)], .rejectedInconsistent, 0x0005),
    (decide (view ≤ 1), .rejectedInconsistent, 0x0408),
    (view == 0 || (s.recOf c).hasCtx x, .notPermitted, 0x0407)]

/-! ### The floor (R187–R190) -/

/-- SCHED_QUERY. -/
def runSchedQuery (c : Cmd) (s : State) : State :=
  let view := c.f 0 0 8
  let x := c.f 4 0 16
  s.checked c (schedQueryChecks c s) fun s =>
    s.answer s c (if view = 0 then schedView s c.part else ctxSchedView s c.part x)

/-- SCHED_QUERY. -/
def execSchedQuery (k : Take) (s : State) : Host.Outcome State Fault Refusal := .next (s.live (hawk 0x0402 anyCmd k runSchedQuery))

/-- The partitions that are LIVE. -/
def State.liveParts (s : State) : List Nat := parts.filter fun p => (s.partAt p).st == .live

/-- Carries an action of a boundary out once (R89). -/
def State.once (s : State) (n : Nat) (f : State → State) : State :=
  if s.beat.due.contains n then (f { s with beat := { s.beat with due := s.beat.due.filter fun x => x != n } }).servicePass else s

/-- FLOOR_WINDOW_OPEN (R188): the contexts eligible at the opening boundary become owed. -/
def floorOpen (s : State) : State :=
  let t := { s with
    org := { s.org with window := BitVec.ofNat 64 s.frame, skewed := false, winStep := 0, fewEng := [], credits := [], needed := [], dueBig := [] }
    ten := { s.ten with ctxf := s.ten.ctxf.mapAll CtxField.init fun _ x => { x with owed := false, due := false, admits := 0 } } }
  t.liveParts.foldl (fun t p => [0, 1, 2, 3].foldl (fun t f =>
    (t.backlog p f).foldl (fun t c => if t.floorFit p f c then t.modCtxf c f fun x => { x with owed := true } else t) t) t) t

/-- FLOOR_WINDOW_OPEN: once at its boundary, after the window before has closed. -/
def execFloorWindowOpen (s : State) : Host.Outcome State Fault Refusal :=
  .next (s.live fun s => if s.beat.due.contains 50 then s else s.once 5 floorOpen)

/-- A partition has no engine in service in a field (R187, condition 2). -/
def State.noEngine (s : State) (p f : Nat) : Bool := (s.partAt p).st != .live || (s.serving p f).isEmpty

/-- The dispatch credits that condition 4 of R187 asks for. -/
def State.creditsNeeded (s : State) (p f : Nat) : Nat :=
  let w := (s.work p f).filter fun w => (s.ctxfAt w.ctx f).due
  let groups := ((w.filter fun w => w.kind != 2).map Work.group).eraseDups
  let per := fun g => ceilDiv (((w.filter fun w => w.kind != 2 && w.group == g).map Work.ctx).eraseDups.length) (min 1024 (s.groupAt g).limit)
  let only := (((w.filter fun w => w.kind == 2).map Work.ctx).eraseDups.filter fun c => !(w.any fun x => x.ctx == c && x.kind != 2)).length
  let open_ := (s.eng.filter fun e => s.engPart e.1 == some p && engField e.1 == f && e.2.open_.any fun b => groups.contains b.group).length
  (groups.map per).sum + only - open_

/-- FLOOR_DUE (R189): contexts still owed become due, and the window's conditions are judged at frame 32. -/
def floorDue (s : State) : State :=
  let s := s.floorSettle.tickOrder
  let t := { s with
    org := { s.org with winStep := 1 }
    ten := { s.ten with ctxf := s.ten.ctxf.mapAll CtxField.init fun _ x => if x.owed then { x with due := true, dueAt := s.ten.order } else x } }
  s.liveParts.foldl (fun t p => [0, 1, 2, 3].foldl (fun t f =>
    let n := ((t.ctxsOf p).filter fun e => (t.ctxfAt e.1 f).due).length
    { t with org := { t.org with
      fewEng := t.org.fewEng.put false (p * 4 + f) (t.noEngine p f)
      dueBig := t.org.dueBig.put false (p * 4 + f) (decide (128 * (t.serving p f).length < n))
      needed := t.org.needed.put 0 (p * 4 + f) (t.creditsNeeded p f) } }) t) t

/-- FLOOR_DUE: once, at window frame 32. -/
def execFloorDue (s : State) : Host.Outcome State Fault Refusal := .next (s.live fun s => s.once 51 floorDue)

/-- The first condition of R187 that failed for a partition in a field; 0: none. -/
def State.floorFailed (s : State) (p f : Nat) : Nat :=
  let k := p * 4 + f
  if s.org.fewEng.get false k then 2 else if s.org.dueBig.get false k then 3
  else if s.org.credits.get 0 k < s.org.needed.get 0 k then 4 else 0

/-- FLOOR_WINDOW_CLOSE (R190): a miss for each context still owed; none after a step or a hold, and none in L2 or L3 (R205). -/
def floorClose (s : State) : State :=
  let s := s.floorSettle
  let missed := (s.ten.ctxf.filter fun e => e.2.owed).filterMap fun e => (s.ctxPart (e.1 / 4)).map fun p => (p, e.1 % 4, e.1 / 4)
  let missed := missed.filter fun m => (s.powAt m.1).serve && !s.org.skewed
  let t := missed.foldl (fun t m =>
    (t.modPfield m.1 m.2.1 fun x => { x with floorMisses := satAdd 32 x.floorMisses 1 }).logRec
      { kind := 0x000B, part := m.1, ctx := m.2.2, place := m.2.1, a := t.floorFailed m.1 m.2.1, b := t.org.window.toNat }) s
  let t := (missed.map Prod.fst).eraseDups.foldl (fun t p => t.partEvent p) t
  { t with
    org := { t.org with winStep := 0 }
    ten := { t.ten with ctxf := t.ten.ctxf.mapAll CtxField.init fun _ x => { x with owed := false, due := false } } }

/-- FLOOR_WINDOW_CLOSE: once at its boundary. -/
def execFloorWindowClose (s : State) : Host.Outcome State Fault Refusal := .next (s.live fun s => s.once 50 floorClose)

/-! ### ADMISSION_CYCLE (R172–R174, R184) -/

/-- What a partition may admit: a row of an engine's open batch, or the WORK chosen for its credit (`desc`), with the tier it is
admitted in and the order in which the batch opened or the WORK was chosen. -/
structure Offer where
  eng   : Nat
  order : Nat
  work  : Work
  tier  : Tier
  desc  : Option Desc
deriving DecidableEq, Repr

/-- The place of an offer: DUE work first, then EDF by deadline with ties to the lower number, then WEIGHTED and at last
BACKGROUND, each by the order of opening (R184, R187, R192, R195). -/
def Offer.key (o : Offer) : Int :=
  match o.tier with
  | .due => o.order
  | .edf => 2 ^ 220 + (o.work.dl : Int) * 2 ^ 120 + (o.work.id : Int) * 2 ^ 96 + o.order
  | .weighted => 2 ^ 221 + o.order
  | .background => 2 ^ 222 + o.order

/-- What a partition may admit in a field, best first. -/
def State.offers (s : State) (p f : Nat) : List Offer :=
  sortOn Offer.key <| (s.serving p f).flatMap fun e =>
    let x := s.engAt e
    (match x.open_ with
      | some b => (s.rowsFor p f e b).map fun r => ⟨e, b.opened, r.1, r.2, none⟩
      | none => []) ++
    (match x.chosen, s.chosenWork e with
      | some c, some (r, d) =>
        let w := (s.ringAt r).asWork r d
        ((s.admitTier p f w).map fun tier => ⟨e, c.order, w, tier, some d⟩).toList
      | _, _ => [])

/-- Admits one row or WORK of a partition: whether it did. A row whose sequence has just stalled is passed over (R281). -/
def State.admitOne (s : State) (p f : Nat) : List Offer → State × Bool
  | [] => (s, false)
  | o :: rest =>
    match o.desc, (s.engAt o.eng).open_ with
    | some d, _ => (s.deliverWork p f o.eng o.work.id d o.tier, true)
    | none, none => s.admitOne p f rest
    | none, some b =>
      if (s.seqAt o.work.id).stall then s.admitOne p f rest
      else match s.admitRow p f o.eng b o.work o.tier with
        | (t, true) => (t.closeIf o.eng (t.moreRows p f o.eng), true)
        | (t, false) => t.admitOne p f rest

/-- A partition's guarantee of cycles in a field (R173). -/
def State.cycleGuar (s : State) (p f : Nat) : Nat := 4 * (s.serving p f).length

/-- The partition that takes a cycle (R174), and whether the cycle is spare. -/
def State.cycleFor (s : State) (f : Nat) (cand : List Nat) : Option (Nat × Bool) :=
  let used := fun p => (s.pfieldAt p f).used
  let below := cand.filter fun p => decide (used p < s.cycleGuar p f)
  match bestBy (fun a b => decide (used a * s.cycleGuar b f < used b * s.cycleGuar a f) ||
      (decide (used a * s.cycleGuar b f = used b * s.cycleGuar a f) && decide (a < b))) below with
  | some p => some (p, false)
  | none =>
    let heavy := cand.filter fun p => (s.schedAt p).spare != 0
    match heavy.find? fun p => (s.pfieldAt p f).rr != 0, heavy, cand with
    | some p, _, _ => some (p, true)
    | none, p :: _, _ => some (p, true)
    | none, [], p :: _ => some (p, true)
    | none, [], [] => none

/-- Takes a turn of the weighted round robin of spare cycles: when no candidate has turns left, each gets `spare_weight` anew. -/
def State.spareTurn (s : State) (f p : Nat) (cand : List Nat) : State :=
  let heavy := cand.filter fun p => (s.schedAt p).spare != 0
  let t := if heavy.any fun p => (s.pfieldAt p f).rr != 0 then s
    else heavy.foldl (fun t q => t.modPfield q f fun x => { x with rr := (s.schedAt q).spare }) s
  t.modPfield p f fun x => { x with rr := x.rr - 1 }

/-- The partitions with an admissible candidate in a field (R174). -/
def State.candidates (s : State) (f : Nat) : List Nat := parts.filter fun p => !(s.serving p f).isEmpty && !(s.offers p f).isEmpty

/-- A partition takes a cycle (R174): its turn where the cycle is spare, the cycles denied to others below their guarantee, and
one row or WORK. -/
def State.takeCycle (s : State) (f p : Nat) (spare : Bool) : State :=
  let cand := s.candidates f
  let t := if spare then s.spareTurn f p cand else s
  let t := (cand.filter fun q => q != p && decide ((s.pfieldAt q f).used < s.cycleGuar q f)).foldl (fun t q =>
    t.modPfield q f fun x => { x with denied := x.denied + 1 }) t
  match t.admitOne p f (t.offers p f) with
  | (t, false) => t.floorSettle
  | (t, true) =>
    let t := t.modPfield p f fun x => { x with used := satAdd 16 x.used 1, spare := x.spare + bit spare }
    (if spare then t.countGlob (8 * f + 5) 1 else t).settlePart p f

/-- ADMISSION_CYCLE: one row or one WORK of one partition. -/
def admissionCycle (f : Nat) (s : State) : State :=
  if 4 ≤ f then s
  else
    let s := s.floorSettle.settle f
    match s.cycleFor f (s.candidates f) with
    | none => s
    | some (p, spare) => s.takeCycle f p spare

/-- ADMISSION_CYCLE. -/
def execAdmissionCycle (f : Nat) (s : State) : Host.Outcome State Fault Refusal := .next (s.live (admissionCycle f))

/-- WORK (R182): the delivery of the WORK chosen for an engine's credit. It is an admission cycle of the engine's field (R169,
R172), in which the ring's partition has the cycle and its next admission is that WORK. -/
def work (r e : Nat) (s : State) : State :=
  match s.head r 1 with
  | none => s
  | some d =>
    if (s.ctxAt (s.ringAt r).ctx).st ≠ .live then s.complete r d .contextLost
    else
      let f := engField e
      let t := s.floorSettle.settle f
      match t.cycleFor f (t.candidates f) with
      | none => t
      | some (p, spare) => match t.offers p f with
        | o :: _ => if o.eng = e ∧ o.work.id = r ∧ o.desc.isSome = true then t.takeCycle f p spare else t
        | [] => t

/-- WORK. -/
def execWork (r e : Nat) (s : State) : Host.Outcome State Fault Refusal := .next (s.live (work r e))

end Sys2Proof.Machine
end

