-- ==== Sys2Proof/Machine/Regulate.lean ====
section
/-! DEFINITION. The regulation family: REG_SET, REG_QUERY, and what a frame boundary does for regulation (R213–R225). -/

namespace Sys2Proof.Machine

/-! ### REG_SET (R227, R228) -/

/-- The reserved fields of a REG_SET entry by kind. -/
def regReserved : Nat → List (Nat × Nat × Nat)
  | 0 => [(1, 1, 7), (2, 4, 4), (9, 0, 184)]
  | 1 => [(1, 4, 4), (10, 0, 176)]
  | 2 => [(1, 2, 6), (3, 0, 8), (8, 0, 192)]
  | 3 => [(1, 4, 4), (8, 0, 192)]
  | _ => []

/-- The capacity of a tier per field and frame, and what may be guaranteed, in units of 4,096 B (R217). -/
def tierUnits (tier : Nat) : Nat × Nat := if tier = 0 then (8000, 6400) else (550, 440)

/-- The group of a REG_SET entry for R103: its kind with its selector fields. -/
def regGroup (d : Nat) : Nat :=
  match fld d 0 0 8 with
  | 0 => 4 * (fld d 1 0 1 + 2 * fld d 2 0 4 + 32 * fld d 3 0 8)
  | 1 => 1 + 4 * fld d 1 0 4
  | 2 => 2 + 4 * (fld d 1 0 2 + 4 * fld d 2 0 8)
  | _ => 3 + 4 * fld d 1 0 4

/-- The checks of REG_SET, in order. -/
def regSetChecks (c : Cmd) : List (Bool × Status × Nat) :=
  let kind := c.f 0 0 8
  let masks := match kind with
    | 0 => c.f 2 0 4 != 0 && c.f 3 0 8 != 0
    | 1 | 3 => c.f 1 0 4 != 0
    | _ => c.f 2 0 8 != 0
  [
    (c.zeros (regReserved kind), .rejectedInconsistent, 0x0005),
    (decide (kind ≤ 3), .rejectedInconsistent, 0x0500),
    (masks, .rejectedInconsistent, 0x0502),
    (kind != 0 || (decide (c.f 4 0 16 ≤ c.f 6 0 16) && (c.f 6 0 16 == 0xFFFF || decide (c.f 6 0 16 ≤ (tierUnits (c.f 1 0 1)).1))),
      .rejectedInconsistent, 0x0503),
    ((kind != 0 || decide (1 ≤ c.f 8 0 8 ∧ c.f 8 0 8 ≤ 16)) && (kind != 3 || decide (c.f 2 0 16 ≤ 64)), .rejectedInconsistent, 0x0504)]

/-- REG_SET at staging. -/
def runRegSet (c : Cmd) (s : State) : State :=
  s.checked c (regSetChecks c) fun s => s.stage c [(regGroup c.pay, c.pay)]

/-- REG_SET. -/
def execRegSet (k : Take) (s : State) : Host.Outcome State Fault Refusal := .next (s.live (hawk 0x0501 anyCmd k runRegSet))

/-- The numbers of the bits of a mask below a width. -/
def maskBits (w n : Nat) : List Nat := (List.range w).filter fun i => n.testBit i

/-- Changes a memory bucket. -/
def State.modBucket (s : State) (k : Nat) (f : Bucket → Bucket) : State :=
  { s with reg := { s.reg with bucket := s.reg.bucket.upd Bucket.init k f } }

/-- Applies a REG_SET entry (R227). T above the new carry limit is cut (R226). -/
def State.applyReg (s : State) (p d : Nat) : State :=
  match fld d 0 0 8 with
  | 0 => (maskBits 4 (fld d 2 0 4)).foldl (fun s f => (maskBits 8 (fld d 3 0 8)).foldl (fun s k =>
      s.modBucket (bucketKey p f (fld d 1 0 1) k) fun b => { b with
        guar := fld d 4 0 16, ceil := fld d 6 0 16, carry := fld d 8 0 8, t := min b.t (fld d 8 0 8 * fld d 6 0 16 * 4096) }) s) s
  | 1 => (maskBits 4 (fld d 1 0 4)).foldl (fun s f => (List.range 8).foldl (fun s k =>
      s.modRegClass p f k fun x => { x with cap := fld d (2 + k) 0 8 }) s) s
  | 2 => (maskBits 8 (fld d 2 0 8)).foldl (fun s k =>
      s.modRegClass p (fld d 1 0 2) k fun x => { x with allow := some (BitVec.ofNat 32 (fld d 4 0 32)) }) s
  | _ => (maskBits 4 (fld d 1 0 4)).foldl (fun s f =>
      s.modRegField p f fun x => { x with laneResv := fld d 2 0 16, maintFast := fld d 4 0 16, maintSlow := fld d 6 0 16 }) s

/-! ### REG_QUERY (R230) -/

/-- Lane and maintenance values of a partition in a field. -/
def State.regFieldAt (s : State) (p f : Nat) : RegField := s.reg.field.get RegField.init (p * 4 + f)

/-- The entries of a REG_QUERY view. -/
def regView (s : State) (p view f tier : Nat) : List (Nat × Nat) :=
  let x := s.regFieldAt p f
  match view with
  | 0 => [(16, x.laneResv), (16, if tier = 0 then x.maintFast else x.maintSlow), (32, if tier = 0 then x.fastLast else x.slowLast)] ++
    (List.range 8).flatMap fun k =>
      let b := s.reg.bucket.get Bucket.init (bucketKey p f tier k)
      [(16, b.guar), (16, b.ceil), (32, b.last), (16, b.misses), (8, b.carry), (8, 0), (32, b.shortfall)]
  | 1 => [(11, (s.partAt p).record.linkShare), (53, 0)] ++ (List.range 18).flatMap fun n =>
      let b := s.linkAt p n
      [(16, min (b.txLast / 1024) 65535), (16, min (b.rxLast / 1024) 65535), (16, b.misses), (16, 0)]
  | _ => [(32, s.reg.cycles.get 0 p), (32, 0)] ++ [0, 1, 2, 3].flatMap fun f => (List.range 8).map fun k => (32, (s.regClassAt p f k).engLast)

/-- The checks of REG_QUERY, in order. -/
def regQueryChecks (c : Cmd) : List (Bool × Status × Nat) :=
  let view := c.f 0 0 8
  [
    (c.zeros [(3, 0, 40)], .rejectedInconsistent, 0x0005),
    (decide (view ≤ 2), .rejectedInconsistent, 0x0509),
    (view != 0 || decide (c.f 1 0 8 ≤ 3 ∧ c.f 2 0 8 ≤ 1), .rejectedInconsistent, 0x050A)]

/-- REG_QUERY. -/
def runRegQuery (c : Cmd) (s : State) : State :=
  let view := c.f 0 0 8
  s.checked c (regQueryChecks c) fun s =>
    s.answer s c ([(8, c.part), (8, (s.partAt c.part).gen.toNat), (16, 0), (32, s.frame)] ++ regView s c.part view (c.f 1 0 8) (c.f 2 0 8))

/-- REG_QUERY. -/
def execRegQuery (k : Take) (s : State) : Host.Outcome State Fault Refusal := .next (s.live (hawk 0x0502 anyCmd k runRegQuery))

/-! ### At a frame boundary (R173, R213, R215, R221, R224, R225): what closes the frame that ends, and the refill -/

/-- Records a guarantee miss (R225): kind FAST 0, SLOW 1, LINK 2, ENGINE 3; the causes QUEUE_FULL 1, STRETCH 2, LANE_ERROR 4 and, with none
of them, OTHER 8 (DEDUCED, notes/assumptions/31.md). -/
def State.missRec (s : State) (p kind cls place short causes : Nat) : State :=
  let t := s.logRec { kind := 0x000C, part := p, place := place, a := kind + 4 * cls + 256 * (if causes = 0 then 8 else causes), b := short, c := s.frame - 1 }
  t.modPart p fun x => { x with tally := { x.tally with
    misses := satAdd 16 x.tally.misses 1, short := if kind = 3 then x.tally.short else short } }

/-- The partition's regulation misses count: it is not in L2 or L3 (R226). -/
def State.missOn (s : State) (p : Nat) : Bool :=
  match (s.powAt p).st with
  | .l2 | .l3 => false
  | _ => true

/-- The memory bucket that a waiting request draws on; none: control traffic, maintenance, or an engine's job that has ended. -/
def State.heldBucket (s : State) (h : Held) : Option Nat :=
  let a := localAddr h.req.addr
  if isMaint h.req then none
  else match s.heldPart h.req, s.charged h.req.who a h.req.sel.tweak with
    | some p, some c => some (bucketKey p (lineField a) (bucketTier a) c.cls)
    | _, _ => none

/-- A request of a bucket waits at a lane for more than 512 cc now. -/
def State.heldLong (s : State) (k : Nat) : Bool :=
  s.mem.lanes.any fun e => e.2.any fun h => decide (h.tick + 256 < s.beat.tick.toNat) && s.heldBucket h == some k

/-- Closes a memory bucket's frame: its miss, then its figures (R224, R225). -/
def State.closeBucket (s : State) (k : Nat) (b : Bucket) (causes : Nat) : State :=
  let p := k / 64
  let guar := b.guar * 4096
  let miss := (b.waited || (decide (0 < b.g) && s.heldLong k)) && decide (b.passed < guar) && s.missOn p
  let t := s.modBucket k fun b => { b with last := min b.passed (2 ^ 32 - 1), passed := 0, waited := false }
  if miss then
    (t.missRec p (k / 8 % 2) (k % 8) (k / 16 % 4) (guar - b.passed) causes).modBucket k fun b => { b with
      misses := satAdd 16 b.misses 1, shortfall := guar - b.passed }
  else t

/-- Refills a memory bucket (R213). -/
def Bucket.refill (b : Bucket) : Bucket :=
  { b with g := b.guar * 4096, t := min (b.t + b.ceil * 4096) (b.carry * b.ceil * 4096) }

/-- Every memory bucket that exists: those of partitions that hold a range are listed once they differ from their reset. -/
def State.refillBuckets (s : State) : State :=
  { s with reg := { s.reg with bucket := s.reg.bucket.mapAll Bucket.init fun _ b => b.refill } }

/-- Changes a link bucket. -/
def State.modLink (s : State) (k : Nat) (f : LinkBucket → LinkBucket) : State :=
  { s with reg := { s.reg with link := s.reg.link.upd LinkBucket.init k f } }

/-- The miss of one direction of a link bucket (R224): a request waited while the bucket held bytes, and fewer bytes than the share passed. -/
def State.linkMiss (s : State) (k share passed : Nat) (waited : Bool) (causes : Nat) : State :=
  if waited && decide (passed < share) && s.missOn (k / 18) then
    (s.modLink k fun b => { b with misses := satAdd 16 b.misses 1, shortfall := share - passed }).missRec (k / 18) 2 0 (k % 18) (share - passed) causes
  else s

/-- The bytes of a partition's share of a port per frame and direction (R221). -/
def State.shareBytes (s : State) (p : Nat) : Nat := (s.partAt p).record.linkShare * 1776

/-- A request of a partition waits at a port while the partition's bucket holds bytes there (R224). -/
def State.portWaits (s : State) (p n : Nat) : Bool :=
  decide (0 < (s.linkAt p n).txLeft) && (s.out.ports.get PortOut.init n).wait.any fun w => w.part == p

/-- Closes a link bucket's frame (R221, R224), with the directions in which a request waited. -/
def State.closeLink (s : State) (k : Nat) (tx rx : Bool) (causes : Nat) : State :=
  let b := s.linkAt (k / 18) (k % 18)
  let share := s.shareBytes (k / 18)
  let t := s.modLink k fun b => { b with txLast := b.tx, rxLast := b.rx, tx := 0, rx := 0 }
  (t.linkMiss k share b.tx tx causes).linkMiss k share b.rx rx causes

/-- Refills the link buckets of a partition (R221). -/
def State.refillLinks (s : State) (p : Nat) : State :=
  (List.range 18).foldl (fun t n => t.modLink (p * 18 + n) fun b => { b with
    txLeft := t.shareBytes p, rxLeft := t.shareBytes p, spare := 0 }) s

/-- Closes the cycles of a partition in a field (R173, R224): `cycles` started in the frame. -/
def State.closeCycles (s : State) (p f cycles : Nat) (denied : Nat) (causes : Nat) : State :=
  let x := s.pfieldAt p f
  let full := s.cycleGuar p f
  let guar := if cycles < 131 then full * cycles / 131 else full
  let miss := decide (0 < x.denied + denied ∧ x.used < guar) && s.missOn p
  let t := s.modPfield p f fun x => { x with
    guarLast := guar, admitsLast := x.admits, spareLast := x.spare, edfLast := x.edf, used := 0, admits := 0, spare := 0, edf := 0, denied := 0 }
  if miss then
    (({ t with reg := { t.reg with cycles := t.reg.cycles.upd 0 p fun n => satAdd 32 n 1 } }).missRec p 3 0 f (guar - x.used) causes)
  else t

/-- The lane and maintenance figures, and the class figures, of the frame that ends (R215, R220, R230). -/
def State.closeFields (s : State) : State :=
  { s with reg := { s.reg with
    field := s.reg.field.mapAll RegField.init fun _ x => { x with fastLast := x.fastNow, slowLast := x.slowNow, fastNow := 0, slowNow := 0 }
    cls := s.reg.cls.mapAll RegClass.init fun _ x => { x with engLast := x.eng, eng := 0 } } }

/-- Refills the maintenance buckets (R215). -/
def State.refillFields (s : State) : State :=
  { s with reg := { s.reg with
    field := s.reg.field.mapAll RegField.init fun _ x => { x with fastLeft := x.maintFast * 4096, slowLeft := x.maintSlow * 4096 } } }

end Sys2Proof.Machine
end

