-- ==== Sys2Proof/Machine/Sets.lean ====
section
/-! DEFINITION. Sets: what each entry of a set changes, the projected state (R106), and the checks of a commit (R106, R110, R111 and the
owning chapters), of 04_partitions. -/

namespace Sys2Proof.Machine

/-! ### The groups of the partition record (R101) -/

/-- The fields of a group of the record: byte, bit and width. -/
def groupFields : Nat → List (Nat × Nat × Nat)
  | 0 => [(8, 0, 128)]
  | 1 => [(24, 0, 128)]
  | 2 => [(40, 0, 128)]
  | 3 => [(56, 0, 256)]
  | 4 => [(88, 0, 256)]
  | 5 => [(120, 0, 256)]
  | 6 => [(152, 0, 11), (154, 0, 12)]
  | 7 => [(156, 0, 12), (158, 0, 11)]
  | 8 => [(160, 0, 11)]
  | 9 => [(164, 0, 20)]
  | 10 => [(168, 0, 20)]
  | 11 => [(172, 0, 10)]
  | _ => [(176, 0, 128)]

/-- A record with one group replaced from a payload (R102). -/
def PartRec.withGroup (r : PartRec) (d : Nat) : Nat → PartRec
  | 0 => { r with engines := BitVec.ofNat 128 (fld d 8 0 128) }
  | 1 => { r with ways := BitVec.ofNat 128 (fld d 24 0 128) }
  | 2 => { r with ranges := BitVec.ofNat 128 (fld d 40 0 128) }
  | 3 => { r with ctxBlocks := BitVec.ofNat 256 (fld d 56 0 256) }
  | 4 => { r with seqBlocks := BitVec.ofNat 256 (fld d 88 0 256) }
  | 5 => { r with fenBlocks := BitVec.ofNat 256 (fld d 120 0 256) }
  | 6 => { r with ringBase := fld d 152 0 11, ringPages := fld d 154 0 12 }
  | 7 => { r with vecBase := fld d 156 0 12, vecCount := fld d 158 0 11 }
  | 8 => { r with linkShare := fld d 160 0 11 }
  | 9 => { r with mbPasid := fld d 164 0 20 }
  | 10 => { r with hostPasid := fld d 168 0 20 }
  | 11 => { r with eventVec := fld d 172 0 10 }
  | _ => { r with label := BitVec.ofNat 128 (fld d 176 0 128) }

/-- The groups that a payload's `stage_mask` names. -/
def stageGroups (d : Nat) : List Nat := maskBits 13 (fld d 0 0 13)

/-- The record that a payload carries, over a given one. -/
def PartRec.withAll (r : PartRec) (d : Nat) : PartRec := (stageGroups d).foldl (fun r g => r.withGroup d g) r

/-! ### What an entry changes (R109) -/

/-- Ranges that leave and join a partition (R359, R111). -/
def State.moveRanges (s : State) (p : Nat) (old new : BitVec 128) : State :=
  let t := (bitsOf (old &&& ~~~new)).foldl (fun t r => t.modRange r fun x => { x with st := .clearing, owner := 0xFF, released := some p }) s
  (bitsOf (new &&& ~~~old)).foldl (fun t r => t.modRange r fun x => { x with st := .owned, owner := p, released := none }) t

/-- Applies a group of a PART_STAGE: engines and ways that leave drain (R111). -/
def State.applyStage (s : State) (p g d : Nat) : State :=
  let old := (s.partAt p).record
  let new := old.withGroup d g
  let out := old.engines &&& ~~~new.engines
  let ways := bitsOf (old.ways &&& ~~~new.ways)
  (s.modPart p fun x => { x with
    record := new, drainEng := x.drainEng ||| out, drainWay := x.drainWay ++ ways.map fun w => (w, s.frame + 4) }).moveRanges p old.ranges new.ranges

/-- Applies a SPAN_SET entry (R123). -/
def State.applySpan (s : State) (p d : Nat) : State :=
  s.modPart p fun x => { x with span := BitVec.ofNat 32 (fld d 0 0 32), nodes := BitVec.ofNat 512 (fld d 8 0 512) }

/-- Applies a MIGRATE_MODE entry (R354): a change of mode starts `fault_id` and n again. -/
def State.applyMigrate (s : State) (p d : Nat) : State :=
  s.modMigrate p fun m =>
    let mode := fld d 0 0 2 == 1
    let m := if mode = m.fault then m else { m with faultId := 0, hotN := 0 }
    { m with fault := mode, hotLog := fld d 1 0 5, faultWait := fld d 2 0 16, slotCount := fld d 4 0 16, hotWindow := fld d 6 0 16
             queueAddr := fld d 8 0 64, logAddr := fld d 16 0 64, threshold := fld d 24 0 32 }

/-- Applies an entry of a set. -/
def State.applyEntry (s : State) (e : Entry) : State :=
  match e.op with
  | 0x0202 => s.applyStage e.part e.group e.data
  | 0x0206 => s.applySpan e.part e.data
  | 0x0401 => s.applySched e.part e.data
  | 0x0501 => s.applyReg e.part e.data
  | 0x0601 => s.applyCbg e.part e.data
  | 0x0904 => s.applyMigrate e.part e.data
  | 0x0A01 => s.applyRange e.data
  | 0x0B01 => s.applyCoh e.part e.data
  | 0x0C01 => s.applyPower e.part e.data
  | 0x1001 => s.applyDigest e.part e.data
  | 0x1002 => s.applyTrace e.data
  | _ => s

/-- A partition that has been reserved as it stands from its boundary on: its ranges are its own and its power values in place. -/
def State.standing (s : State) (p : Nat) : State := (s.moveRanges p 0 (s.partAt p).record.ranges).powCreate p

/-- A pending set applied. -/
def State.applyPend (s : State) (x : PendSet) : State :=
  match x.create with
  | some p => s.standing p
  | none => x.entries.foldl State.applyEntry s

/-- The projected state (R106): every pending set applied in take order. -/
def State.projected (s : State) : State := s.box.sets.foldl State.applyPend s

/-! ### The checks of this chapter (R110, R111, R127, R597) -/

/-- What a partition holds of one kind, by number: engines 0, ways 1, ranges 2, context, sequence and fence blocks 3 to 5, ring pages 6 and
units of 16 vectors 7. -/
def PartRec.held (r : PartRec) : Nat → List Nat
  | 0 => bitsOf r.engines
  | 1 => bitsOf r.ways
  | 2 => bitsOf r.ranges
  | 3 => bitsOf r.ctxBlocks
  | 4 => bitsOf r.seqBlocks
  | 5 => bitsOf r.fenBlocks
  | 6 => (List.range r.ringPages).map (r.ringBase + ·)
  | _ => (List.range (r.vecCount / 16)).map (r.vecBase / 16 + ·)

/-- What a partition holds of a kind; a FREE one nothing. -/
def State.heldBy (s : State) (p kind : Nat) : List Nat := if (s.partAt p).st = .free then [] else (s.partAt p).record.held kind

/-- What a state change gives a partition. -/
def given (base proj : State) (p kind : Nat) : List Nat :=
  let had := base.heldBy p kind
  (proj.heldBy p kind).filter fun x => !had.contains x

/-- What a state change removes from a partition. -/
def removed (base proj : State) (p kind : Nat) : List Nat := given proj base p kind

/-- A resource drains (R111). -/
def State.draining (s : State) (kind x : Nat) : Bool :=
  parts.any fun q => (kind == 0 && (s.partAt q).drainEng.getLsbD x) || (kind == 1 && (s.partAt q).drainWay.any fun w => w.1 == x)

/-- Every resource of a kind that is newly given is FREE (R110): held by none in effect or projected, given to no other partition, and
not draining. R110 judges the projected state and R111 asks for FREE at B: what a pending set or the same set takes from a partition is not yet free for
another at the commit (DESIGN CHOICE, notes/assumptions/99.md). -/
def allFree (s base proj : State) (p kind : Nat) : Bool :=
  let others := parts.flatMap fun q => s.heldBy q kind ++ base.heldBy q kind ++ (if q = p then [] else proj.heldBy q kind)
  (given base proj p kind).all fun x => !others.contains x && !base.draining kind x

/-- Ways meet the field rule of R96. -/
def PartRec.waysFit (r : PartRec) : Bool := [0, 1, 2, 3].all fun f => (r.engIn f == []) == (r.waysIn f == [])

/-- A vector run meets R96. -/
def PartRec.vectorsFit (r : PartRec) : Bool :=
  r.vecBase % 16 == 0 && r.vecCount % 16 == 0 && decide (16 ≤ r.vecBase ∧ 16 ≤ r.vecCount ∧ r.vecCount ≤ 1024 ∧ r.vecBase + r.vecCount ≤ 4096)

/-- Ring pages lie in the window. -/
def PartRec.pagesFit (r : PartRec) : Bool := decide (1 ≤ r.ringPages ∧ r.ringBase + r.ringPages ≤ 2048)

/-- The tiers of a partition's ranges. -/
def State.rangeTiers (s : State) (r : PartRec) : Bool :=
  [1, 2].all fun t => (bitsOf r.ranges).any fun n => (s.rangeAt n).st != .undefined && localTier (s.rangeAt n).base == some t

/-- A newly given range is FREE, and its key slots have binding 0xFF or the receiver (check 6). -/
def rangeGiven (base proj : State) (p r : Nat) : Bool :=
  let x := base.rangeAt r
  let y := proj.rangeAt r
  x.st == .free && proj.pairBinds p y.keySlot && (y.skimSlot == 0xFFFF || proj.pairBinds p y.skimSlot)

/-- Nothing that is removed is in use (R111, R597), judged as the state stands. -/
def unused (s base proj : State) (p : Nat) : Bool :=
  let old := (base.partAt p).record
  let new := (proj.partAt p).record
  let rings := (s.ringsOf p).filter fun e => e.2.st != .unbound
  let seqs := (s.seqsOf p).filter fun e => e.2.st != .free
  ([0, 1, 2, 3].all fun f => old.engIn f == [] || new.engIn f != [] || (rings.all (fun e => e.2.home != f) && seqs.all fun e => e.2.home != f)) &&
  ((removed base proj p 2).all fun r => s.mem.acts.all fun a => !a.ranges.contains r) &&
  (let b := removed base proj p 3
   s.ten.ctx.all fun e => e.1 == 0 || e.2.st == .free || !b.contains (e.1 / 256)) &&
  (let b := removed base proj p 4
   s.ten.seq.all fun e => e.2.st == .free || !b.contains (e.1 / 512)) &&
  (let b := removed base proj p 5
   s.fen.fence.all fun e => (e.2.st == .free && !e.2.reserved) || !b.contains (e.1 / 64)) &&
  (let b := removed base proj p 6
   s.ten.ring.all fun e => e.2.st == .unbound || !b.contains (e.1 / 512)) &&
  (removed base proj p 7 == [] ||
    (new.hasVector (s.mbAt (.part p)).vector.toNat && rings.all (fun e => e.2.vector == 0xFFFF || decide (e.2.vector < new.vecCount)) &&
      seqs.all fun e => e.2.vector == 0xFFFF || decide (e.2.vector < new.vecCount)))

/-- The nodes with which a partition has a fence exported or imported (R317). -/
def State.fenceNodes (s : State) (p : Nat) : List Nat :=
  (s.fencesOf p).flatMap fun e => (e.2.exports_.map Export.node) ++ match e.2.kind, e.2.src with
    | .proxy, some x => [x.node]
    | _, _ => []

/-- The span node list meets R127. -/
def State.spanFits (s : State) (p : Nat) : Bool :=
  let x := s.partAt p
  if x.nodes = 0 then x.span == 0 && (s.fenceNodes p).all (· == s.ownNode)
  else x.nodes.getLsbD s.ownNode && x.span != 0 && (s.fenceNodes p).all fun n => n == s.ownNode || x.nodes.getLsbD n

/-- The checks of R110 over the partitions that a set touches: `s` in effect, `base` projected without the set, `proj` with it. -/
def chapterChecks (s base proj : State) (touched : List Nat) : List (Bool × Status × Nat) :=
  let all := fun (f : Nat → PartRec → Bool) => touched.all fun p => f p (proj.partAt p).record
  [(all fun _ r => r.engines != 0, .rejectedInconsistent, 0x0100),
   (all fun p _ => allFree s base proj p 0, .rejectedInconsistent, 0x0101),
   (all fun _ r => r.waysFit, .rejectedInconsistent, 0x0102),
   (all fun p _ => allFree s base proj p 1, .rejectedInconsistent, 0x0103),
   (all fun _ r => proj.rangeTiers r, .rejectedInconsistent, 0x0104),
   (all fun p _ => allFree s base proj p 2 && (given base proj p 2).all (rangeGiven base proj p), .rejectedInconsistent, 0x0105),
   (all fun p r => r.ctxBlocks != 0 && allFree s base proj p 3 && allFree s base proj p 4 && allFree s base proj p 5, .rejectedInconsistent, 0x0106),
   (all fun p r => r.pagesFit && allFree s base proj p 6, .rejectedInconsistent, 0x0107),
   (all fun p r => r.vectorsFit && allFree s base proj p 7 && decide (r.eventVec < r.vecCount), .rejectedInconsistent, 0x0108),
   (decide (((parts.filter fun p => (proj.partAt p).st != .free).map fun p => (proj.partAt p).record.linkShare).sum ≤ 1024),
     .rejectedInconsistent, 0x0109),
   (all fun p _ => unused s base proj p, .rejectedInconsistent, 0x010C),
   (all fun p _ => proj.spanFits p, .rejectedInconsistent, 0x010E)]

/-! ### The checks of the owning chapters (R106, step 2) -/

/-- The guarantees of a field and tier (R217). -/
def State.guarSum (s : State) (f tier : Nat) : Nat :=
  ((s.reg.bucket.filter fun e => e.1 / 16 % 4 == f && e.1 / 8 % 2 == tier).map fun e => e.2.guar).sum

/-- The way allowances of a partition meet R219. -/
def State.allowFits (s : State) (p : Nat) : Bool :=
  (List.range 4).all fun f => (List.range 8).all fun k => match (s.regClassAt p f k).allow with
    | none => true
    | some m =>
      let ways := (((s.partAt p).record.ways >>> (32 * f)).setWidth 32 : BitVec 32)
      (m &&& ~~~ways) == 0 && (m != 0 || ways == 0)

/-- The lane reserves of a field (R218). -/
def State.reserveSum (s : State) (f : Nat) : Nat :=
  let own := parts.filter fun p => (s.partAt p).st != .free && (s.rangesOf p).any fun e => lineField e.2.base == f
  (own.map fun p => (s.regFieldAt p f).laneResv).sum

/-- The checks of R229. -/
def regChecks (proj : State) (p : Nat) : List (Bool × Status × Nat) :=
  [([0, 1, 2, 3].all fun f => [0, 1].all fun t => decide (proj.guarSum f t ≤ (tierUnits t).2), .rejectedInconsistent, 0x0506),
   (proj.allowFits p, .rejectedInconsistent, 0x0507),
   ([0, 1, 2, 3].all fun f => decide (proj.reserveSum f ≤ 384), .rejectedInconsistent, 0x0508)]

/-- The open sequences of a group that a condition names. -/
def State.groupSeqs (s : State) (g : Nat) (f : Nat → Bool) : Bool := s.ten.seq.any fun e => e.2.st != .free && e.2.group == g && f e.2.ctx

/-- The checks of R263 for an entry of a set (DEDUCED, notes/assumptions/37.md): `kept` is the projected state without the set's removals of groups. -/
def cbgChecks (s base proj kept : State) (p d : Nat) : List (Bool × Status × Nat) :=
  let kind := fld d 0 0 8
  let g := fld d 2 0 10
  let first := fld d 4 0 16
  let run := fun c => decide (first ≤ c ∧ c < first + fld d 6 0 16)
  let owner := (base.groupAt g).owner
  let x := proj.groupAt g
  let slotBusy := fun (b : BaseSlot) => b.st == .loading || b.st == .retiring
  [(if kind = 0 then owner.isNone || owner == some p else owner == some p || x.owner == some p, .rejectedInconsistent, 0x0604),
   (decide ((proj.groupsOf p).length ≤ 256), .rejectedInconsistent, 0x0605),
   (kind != 1 || (List.range (fld d 6 0 16)).all (fun i => (proj.partAt p).record.hasCtx (first + i)), .rejectedInconsistent, 0x0606),
   (kind != 1 || x.members.all fun m => !run m.1 || decide ((proj.ten.group.filter fun e => (e.2.member m.1).isSome).length ≤ 4),
     .rejectedInconsistent, 0x0607),
   (decide (2 ≤ kind) || x.members.all fun m => match m.2 with
      | some y => decide (y.rank ≤ x.maxRank)
      | none => true, .rejectedInconsistent, 0x0608),
   (kind != 2 || ((kept.groupAt g).members == [] && !s.groupSeqs g (fun _ => true) && !slotBusy (s.groupAt g).slot0 && !slotBusy (s.groupAt g).slot1),
     .rejectedInconsistent, 0x0609),
   (kind != 3 || !s.groupSeqs g (fun c => run c && ((base.groupAt g).member c).isSome), .rejectedInconsistent, 0x060A)]

/-- Two ranges overlap in their data or tag extents (R360). -/
def Range.meets (a b : Range) : Bool :=
  a.st != .undefined && b.st != .undefined && overlap a.base (a.len + a.len / 16) b.base (b.len + b.len / 16)

/-- The checks of R387 for an entry. -/
def rangeChecks (s base proj : State) (d : Nat) : List (Bool × Status × Nat) :=
  let r := fld d 0 0 7
  let op := rangeOp d
  let y := proj.rangeAt r
  let named := fun (x : Range) (f : Nat → Bool) => x.st == .undefined || (f x.keySlot && (x.skimSlot == 0xFFFF || f x.skimSlot))
  [(op != 0 || (base.rangeAt r).st == .undefined, .rejectedInconsistent, 0x0A03),
   (op != 1 || ((base.rangeAt r).st == .free && parts.all fun p => !(proj.heldBy p 2).contains r), .rejectedInconsistent, 0x0A04),
   (op != 2 || (y.st != .undefined && s.mem.acts.all (fun a => a.code != 2 || !a.ranges.contains r) && (y.skimSlot == 0xFFFF || y.skimSlot != y.keySlot)),
     .rejectedInconsistent, 0x0A05),
   (proj.mem.range.all fun e => e.1 == r || !e.2.meets y, .rejectedInconsistent, 0x0A06),
   (op == 1 || named y proj.pairFits, .rejectedInconsistent, 0x0A07),
   (y.st != .owned || named y (proj.pairBinds y.owner), .rejectedInconsistent, 0x0A08)]

/-- An engine's mode in a state with the change that it still has to make: compatibility (R418, R419). -/
def State.setCompat (s : State) (e : Nat) : Bool :=
  match s.coh.switch.find? fun x => x.1 == e with
  | some x => x.2.1
  | none => (s.engAt e).compat

/-- The checks of an entry's owning chapter over the projected state. -/
def entryChecks (s base proj kept : State) (e : Entry) : List (Bool × Status × Nat) :=
  match e.op with
  | 0x0202 => [(e.group != 2 || !(s.dirtyAt e.part).active || (proj.partAt e.part).record.ranges == (base.partAt e.part).record.ranges,
      .rejectedInconsistent, 0x0E07),
      (e.group != 2 || [0, 1, 2, 3].all (fun f => decide (proj.reserveSum f ≤ 384)), .rejectedInconsistent, 0x0508),
      (e.group != 1 || proj.allowFits e.part, .rejectedInconsistent, 0x0507)]
  | 0x0401 => [(fld e.data 0 0 8 != 1 || (List.range (fld e.data 4 0 16)).all fun i => (proj.partAt e.part).record.hasCtx (fld e.data 2 0 16 + i),
      .rejectedInconsistent, 0x0406)]
  | 0x0501 => regChecks proj e.part
  | 0x0601 => cbgChecks s base proj kept e.part e.data
  | 0x0A01 => rangeChecks s base proj e.data
  | 0x0B01 => [(fld e.data 0 0 8 != 0 || (bitsOf (BitVec.ofNat 128 (fld e.data 8 0 128) &&& ~~~s.coh.cap)).all proj.setCompat,
      .rejectedInconsistent, 0x0B04)]
  | 0x0C01 => [(proj.budgetsFit, .rejectedInconsistent, 0x0C04)]
  | 0x1001 => proj.digestChecks e.part e.data
  | _ => []

/-- The first entry whose check fails: its position, status and `detail`. -/
def firstEntry (f : Entry → Option (Status × Nat)) : Nat → List Entry → Option (Nat × Status × Nat)
  | _, [] => none
  | i, e :: t => match f e with
    | some (st, d) => some (i, st, d)
    | none => firstEntry f (i + 1) t

/-- The checks of a commit in the order of R106: the position, status and `detail` of the first failure. -/
def State.commitChecks (s : State) (set : List Entry) : Option (Nat × Status × Nat) :=
  let stale := fun (e : Entry) => if e.part < 64 ∧ (s.partAt e.part).gen ≠ e.gen then some (Status.staleGeneration, 0) else none
  match firstEntry stale 0 set with
  | some x => some x
  | none =>
    let base := s.projected
    let proj := set.foldl State.applyEntry base
    let kept := (set.filter fun e => !(e.op == 0x0601 && fld e.data 0 0 8 == 2)).foldl State.applyEntry base
    match firstEntry (fun e => firstFail (entryChecks s base proj kept e)) 0 set with
    | some x => some x
    | none =>
      let touched := ((set.map Entry.part).filter (· < 64)).eraseDups
      (firstFail (chapterChecks s base proj touched)).map fun x => (0xFF, x)

end Sys2Proof.Machine
end

