-- ==== Sys2Proof/Machine/DirtyLogs.lean ====
section
/-! DEFINITION. The passes of dirty-page logging: DIRTY_LOG_BEGIN, DIRTY_LOG_FLIP and DIRTY_LOG_STOP (R505–R512), of
17_virtual_instances. -/

namespace Sys2Proof.Machine

/-- A length rounded up to a multiple of 4 KiB. -/
def page4k (n : Nat) : Nat := ceilDiv n 4096 * 4096

/-- The bitmaps of the ranges that a partition owns, from a byte offset (R507): range, base, length and offset of each, and the offset
behind the last. -/
def State.bitmaps (s : State) (off : Nat) : List Nat → List (Nat × Nat × Nat × Nat) × Nat
  | [] => ([], off)
  | r :: t =>
    let x := s.rangeAt r
    let rest := s.bitmaps (off + page4k (ceilDiv (x.len / 65536) 8)) t
    ((r, x.base, x.len, off) :: rest.1, rest.2)

/-- The layout of an area for the ranges that a partition owns now (R507). -/
def State.areaLayout (s : State) (p : Nat) : List (Nat × Nat × Nat × Nat) × Nat :=
  s.bitmaps 4096 ((s.rangesOf p).map Prod.fst)

/-- The header of the current area (R508). -/
def DirtyLog.header (d : DirtyLog) (closed ended : Bool) (endFrame : Nat) : List (Nat × Nat) :=
  [(16, 1), (8, d.ranges.length), (1, bit closed), (1, bit ended), (6, 0), (32, d.pass), (32, d.start.toNat), (32, endFrame), (64, d.hostBase),
   (64, d.hostLen), (32, d.outside.toNat), (32, d.hostOff), (192, 0)] ++
  d.ranges.flatMap fun e => [(7, e.1), (25, 0), (32, e.2.2.2), (32, e.2.2.1 / 65536), (32, 0)]

/-- Lendor writes the header of the current area, in 8-byte writes under `host_pasid` (R505, R508). -/
def State.dirtyHeader (s : State) (p : Nat) (closed ended : Bool) (endFrame : Nat) : State :=
  let d := s.dirtyAt p
  let image := pack (d.header closed ended endFrame)
  (List.range (8 + 2 * d.ranges.length)).foldl (fun t i =>
    t.hostWrite (d.area + 8 * i) (some (s.partAt p).record.hostPasid) 8 (image / 2 ^ (64 * i) % 2 ^ 64)) s

/-- The bits set in the current pass. -/
def DirtyLog.pages (d : DirtyLog) : Nat :=
  (d.words.map fun e => ((List.range 64).filter fun i => e.2.testBit i).length).sum

/-- The response of the three commands (R509). -/
def dirtyPay (pass endFrame area pages : Nat) : Nat := pack [(32, pass), (32, endFrame), (8, area), (24, 0), (32, pages)]

/-- The current pass closes (R508, R509). -/
def State.closePass (s : State) (p : Nat) (ended : Bool) : State := s.dirtyHeader p true ended s.nowFrame.toNat

/-- A pass opens in the area that is current now, at the boundary in effect (R507, R508). -/
def State.openPass (s : State) (p : Nat) : State :=
  let t := s.modDirty p fun d => { d with active := true, pass := d.pass + 1, start := s.nowFrame, outside := 0, words := [], wait := none }
  t.dirtyHeader p false false 0

/-- Ends logging at the take of a PART_DESTROY (R512); the waiting command itself is completed by the destroy (R116). -/
def State.closeLog (s : State) (p : Nat) : State :=
  let t := if (s.dirtyAt p).active then s.closePass p true else s
  { t with watch := { t.watch with dirty := t.watch.dirty.drop p } }

/-- The boundary action that a partition's logging waits for (R509). -/
def State.dirtyAct (s : State) (p : Nat) : State :=
  let d := s.dirtyAt p
  match d.wait with
  | none => s
  | some w =>
    if s.frame < w.frame then s
    else
      let done := dirtyPay d.pass s.nowFrame.toNat d.cur d.pages
      if w.op = 0 then (s.openPass p).finish w.ref .ok 0 16 (dirtyPay 1 0 0 0)
      else if w.op = 1 then
        (((s.closePass p false).modDirty p fun d => { d with cur := 1 - d.cur }).openPass p).finish w.ref .ok 0 16 done
      else
        let t := s.closePass p true
        ({ t with watch := { t.watch with dirty := t.watch.dirty.drop p } } : State).finish w.ref .ok 0 16 done

/-- A write to the current area has faulted (R512): logging ends, and a FLIP or STOP that waits finds none active (R510,
DESIGN CHOICE, notes/assumptions/57.md). -/
def State.areaFault (s : State) (p : Nat) : State :=
  let d := s.dirtyAt p
  if d.active = false then s
  else
    let t := (s.logRec { kind := 0x0012, part := p, a := d.pass, b := d.area }).chipEvent
    let t := { t with watch := { t.watch with dirty := t.watch.dirty.drop p } }
    t.finishOpt (d.wait.map DirtyWait.ref) .rejectedInconsistent 0x0E02 0 0

/-- Every boundary action of dirty logging that is due. -/
def State.dirtyActs (s : State) : State := parts.foldl State.dirtyAct s

/-- Checks 1 and 2 of R510. -/
def dirtyChecks (s : State) (p : Nat) (zeros begin_ : Bool) : List (Bool × Status × Nat) :=
  let d := s.dirtyAt p
  [(zeros, .rejectedInconsistent, 0x0005), ((s.partAt p).st == .live, .rejectedInconsistent, 0x0E00),
   (d.wait.isNone && d.active != begin_, .rejectedInconsistent, 0x0E02)]

/-- Two areas of a length do not overlap. -/
def apart (a b n : Nat) : Bool := decide (a + n ≤ b ∨ b + n ≤ a)

/-- The checks of DIRTY_LOG_BEGIN, in order. -/
def dirtyLogBeginChecks (c : Cmd) (s : State) : List (Bool × Status × Nat) :=
  let p := c.part
  let areaA := c.f 8 0 64
  let areaB := c.f 16 0 64
  let len := c.f 24 0 32
  let hostBase := c.f 32 0 64
  let hostLen := c.f 40 0 64
  let lay := s.areaLayout p
  let need := lay.2 + page4k (ceilDiv (hostLen / 65536) 8)
  dirtyChecks s p (c.zeros [(0, 1, 31), (4, 0, 32), (28, 0, 32), (48, 0, 128)]) true ++ [
    (areaA % 4096 == 0 && areaB % 4096 == 0 && apart areaA areaB len && decide (need ≤ len), .rejectedInconsistent, 0x0E03),
    (hostBase % 65536 == 0 && hostLen % 65536 == 0 && decide (hostLen ≤ 2 ^ 42), .rejectedInconsistent, 0x0E04)]

/-- DIRTY_LOG_START with BEGIN. -/
def runDirtyLogBegin (c : Cmd) (s : State) : State :=
  let p := c.part
  let areaA := c.f 8 0 64
  let areaB := c.f 16 0 64
  let len := c.f 24 0 32
  let hostBase := c.f 32 0 64
  let hostLen := c.f 40 0 64
  let lay := s.areaLayout p
  s.checked c (dirtyLogBeginChecks c s) fun s =>
    s.background (s.modDirty p fun _ => { DirtyLog.init with
      areaA := areaA, areaB := areaB, len := len, hostBase := hostBase, hostLen := hostLen, ranges := lay.1, hostOff := lay.2
      wait := some ⟨0, s.earliest, c.ref⟩ }) c 16

/-- DIRTY_LOG_BEGIN. -/
def execDirtyLogBegin (k : Take) (s : State) : Host.Outcome State Fault Refusal :=
  .next (s.live (hawk 0x0E01 (fun c => c.f 0 0 1 == 0) k runDirtyLogBegin))

/-- The checks of DIRTY_LOG_FLIP, in order. -/
def dirtyLogFlipChecks (c : Cmd) (s : State) : List (Bool × Status × Nat) :=
  dirtyChecks s c.part (c.zeros [(0, 1, 511)]) false

/-- DIRTY_LOG_START with FLIP. -/
def runDirtyLogFlip (c : Cmd) (s : State) : State :=
  s.checked c (dirtyLogFlipChecks c s) fun s =>
    s.background (s.modDirty c.part fun d => { d with wait := some ⟨1, s.earliest, c.ref⟩ }) c 16

/-- DIRTY_LOG_FLIP. -/
def execDirtyLogFlip (k : Take) (s : State) : Host.Outcome State Fault Refusal :=
  .next (s.live (hawk 0x0E01 (fun c => c.f 0 0 1 == 1) k runDirtyLogFlip))

/-- The checks of DIRTY_LOG_STOP, in order. -/
def dirtyLogStopChecks (c : Cmd) (s : State) : List (Bool × Status × Nat) :=
  dirtyChecks s c.part (c.zeros [(0, 0, 64)]) false

/-- DIRTY_LOG_STOP. -/
def runDirtyLogStop (c : Cmd) (s : State) : State :=
  s.checked c (dirtyLogStopChecks c s) fun s =>
    s.background (s.modDirty c.part fun d => { d with wait := some ⟨2, s.earliest, c.ref⟩ }) c 16

/-- DIRTY_LOG_STOP. -/
def execDirtyLogStop (k : Take) (s : State) : Host.Outcome State Fault Refusal := .next (s.live (hawk 0x0E02 anyCmd k runDirtyLogStop))

end Sys2Proof.Machine
end

