-- ==== Sys2Proof/Machine/Partition.lean ====
section
/-! DEFINITION. The partition family: PART_STAGE, PART_COMMIT, SPAN_SET, PART_CREATE, PART_QUERY, PART_DESTROY with its end, and what a
set does at its boundary (04_partitions). -/

namespace Sys2Proof.Machine

/-! ### PART_STAGE, SPAN_SET, PART_COMMIT (R102–R108) -/

/-- The fields of the record that must be 0: those that no group has, and those of absent groups (R101, R102). -/
def stageReserved (groups : List Nat) : List (Nat × Nat × Nat) :=
  [(0, 13, 19), (5, 0, 24), (152, 11, 5), (154, 12, 4), (156, 12, 4), (158, 11, 5), (160, 11, 5), (162, 0, 16), (164, 20, 12), (168, 20, 12),
   (172, 10, 6), (174, 0, 16), (192, 0, 256)] ++ ((List.range 13).filter fun g => !groups.contains g).flatMap groupFields

/-- A byte of a label is printable. -/
def labelByte (b : Nat) : Bool := decide (0x20 ≤ b ∧ b ≤ 0x7E)

/-- A label has one of the two forms of R102. -/
def labelFits (label : Nat) : Bool :=
  let bytes := (List.range 16).map fun i => fld label i 0 8
  (bytes.dropWhile labelByte).all (· == 0)

/-- The payload checks that PART_STAGE and PART_CREATE share (R102, R104). -/
def recordChecks (d : Nat) (groups : List Nat) : List (Bool × Status × Nat) :=
  let r := PartRec.zero.withAll d
  [(!groups.contains 6 || r.pagesFit, .rejectedInconsistent, 0x0107),
   (!groups.contains 7 || r.vectorsFit, .rejectedInconsistent, 0x0108),
   (!groups.contains 8 || decide (r.linkShare ≤ 1024), .rejectedInconsistent, 0x0109),
   (labelFits (fld d 176 0 128), .rejectedInconsistent, 0x0115)]

/-- The checks of PART_STAGE, in order. -/
def partStageChecks (c : Cmd) : List (Bool × Status × Nat) :=
  let groups := stageGroups c.pay
  let own := match c.ref.mb with
    | .part _ => groups.all (11 ≤ ·)
    | _ => true
  [(c.zeros ((4, 0, 8) :: stageReserved groups), .rejectedInconsistent, 0x0005), (own, .notPermitted, 0x010A)] ++
    recordChecks c.pay groups

/-- PART_STAGE. -/
def runPartStage (c : Cmd) (s : State) : State :=
  let groups := stageGroups c.pay
  s.checked c (partStageChecks c) fun s => s.stage c (groups.map fun g => (g, c.pay))

/-- PART_STAGE. -/
def execPartStage (k : Take) (s : State) : Host.Outcome State Fault Refusal := .next (s.live (hawk 0x0202 anyCmd k runPartStage))

/-- The checks of SPAN_SET, in order (R123). -/
def spanSetChecks (c : Cmd) : List (Bool × Status × Nat) :=
  [(c.zeros [(4, 0, 32)], .rejectedInconsistent, 0x0005)]

/-- SPAN_SET (R123). -/
def runSpanSet (c : Cmd) (s : State) : State :=
  s.checked c (spanSetChecks c) fun s => s.stage c [(0, c.pay)]

/-- SPAN_SET. -/
def execSpanSet (k : Take) (s : State) : Host.Outcome State Fault Refusal := .next (s.live (hawk 0x0206 anyCmd k runSpanSet))

/-- `config_seq` of a command's partition; 0 at chip level. -/
def State.cmdSeq (s : State) (c : Cmd) : W32 := if c.part < 64 then (s.partAt c.part).configSeq else 0

/-- The checks of PART_COMMIT, in order (R106–R108). -/
def partCommitChecks (c : Cmd) : List (Bool × Status × Nat) :=
  [(c.zeros [(4, 0, 32)], .rejectedInconsistent, 0x0005)]

/-- PART_COMMIT: the staged set is emptied, checked and made pending (R106–R108). -/
def runPartCommit (c : Cmd) (s : State) : State :=
  s.checked c (partCommitChecks c) fun s =>
    let set := (s.mbAt c.ref.mb).staged
    let t := s.modMb c.ref.mb fun b => { b with staged := [] }
    let fail := fun (i : Nat) (st : Status) (d : Nat) => t.respond c.ref st d 16 (commitPay 0 (t.cmdSeq c) i set.length d) none
    match s.commitChecks set with
    | some (i, st, d) => fail i st d
    | none => match s.effectFrame (c.f 0 0 32) with
      | none => fail 0xFF .rejectedInconsistent 0x010D
      | some b =>
        if set = [] then t.respond c.ref .ok 0 16 (commitPay 0 (t.cmdSeq c) 0xFF 0 0) none
        else t.background { t with box := { t.box with sets := t.box.sets ++ [⟨set, b, c.ref, c.part, none⟩] } } c 16

/-- PART_COMMIT. -/
def execPartCommit (k : Take) (s : State) : Host.Outcome State Fault Refusal := .next (s.live (hawk 0x0203 anyCmd k runPartCommit))

/-! ### PART_CREATE (R102, R114) -/

/-- Drops a table's entries of one partition, where a key holds the partition above `size` lower numbers. -/
def dropKeys {α : Type} (t : Tab α) (p size : Nat) : Tab α := t.filter fun e => e.1 / size != p

/-- Every setting and figure of a partition number goes: policy, regulation, migration, coherence, power, probes and counters. The context windows
of its telemetry page keep their pairs (R122; DESIGN CHOICE, notes/assumptions/76.md). -/
def State.clearSettings (s : State) (p : Nat) : State :=
  { s with
    org := { s.org with sched := s.org.sched.drop p, field := dropKeys s.org.field p 4, fewEng := dropKeys s.org.fewEng p 4 }
    reg := { s.reg with
      bucket := dropKeys s.reg.bucket p 64, field := dropKeys s.reg.field p 4, cls := dropKeys s.reg.cls p 32, link := dropKeys s.reg.link p 18
      cycles := s.reg.cycles.drop p }
    xl := { s.xl with migrate := s.xl.migrate.drop p, hot := s.xl.hot.filter fun h => h.part != p }
    coh := { s.coh with place := s.coh.place.drop p, lost := s.coh.lost.filter (· != p) }
    pwr := { s.pwr with part := s.pwr.part.drop p }
    watch := { s.watch with probe := dropKeys s.watch.probe p 8, dirty := s.watch.dirty.drop p }
    obs := { s.obs with
      pbytes := dropKeys s.obs.pbytes p 24, ops := dropKeys s.obs.ops p 45, cbytes := dropKeys s.obs.cbytes (65536 + p) 24
      wdPart := s.obs.wdPart.drop p } }

/-- Counter block `p` is zeroed (R100). -/
def State.zeroCounters (s : State) (p : Nat) : State :=
  { s with obs := { s.obs with
      pbytes := dropKeys s.obs.pbytes p 24, ops := dropKeys s.obs.ops p 45, cbytes := dropKeys s.obs.cbytes (65536 + p) 24 } }

/-- The record of a PART_CREATE meets the minimums of R96: a missing group fails too (R114). -/
def State.createFits (s : State) (d : Nat) (groups : List Nat) : Bool :=
  let r := PartRec.zero.withAll d
  (List.range 11).all (fun g => groups.contains g) && r.engines != 0 && r.ctxBlocks != 0 && s.rangeTiers r &&
    [0, 1, 2, 3].all fun f => (r.engIn f).isEmpty || (bitsOf r.ways).any fun w => w / 32 == f

/-- A partition number is reserved with a record, in CREATING (R100). -/
def State.reserve (s : State) (p : Nat) (r : PartRec) : State :=
  (s.clearSettings p).modPart p fun x => { Part.init with
    st := .creating, gen := nextGen x.gen, record := r, card := x.card, cardSeq := x.cardSeq, life := s.log.next }

/-- The state as it would stand with a partition created. -/
def State.created (s : State) (p : Nat) (r : PartRec) : State := (s.reserve p r).standing p

/-- The checks of PART_CREATE, in order: the number comes before the record (DESIGN CHOICE, notes/assumptions/75.md). -/
def partCreateChecks (c : Cmd) (s : State) : List (Bool × Status × Nat) :=
  let groups := stageGroups c.pay
  let want := c.f 4 0 8
  let free := fun n => decide (n < 64) && (s.partAt n).st == .free
  let p := if want = 0xFF then parts.find? free else if free want then some want else none
  let n := p.getD 0
  let r := PartRec.zero.withAll c.pay
  let base := s.projected
  let proj := base.created n r
  [(c.zeros (stageReserved groups), .rejectedInconsistent, 0x0005),
      (p.isSome, .rejectedInconsistent, 0x010F)] ++ recordChecks c.pay groups ++
    [(s.createFits c.pay groups, .rejectedInconsistent, 0x0110)] ++ chapterChecks s base proj [n] ++
    [([0, 1, 2, 3].all fun f => decide (proj.reserveSum f ≤ 384), .rejectedInconsistent, 0x0508), (proj.budgetsFit, .rejectedInconsistent, 0x0C04)]

/-- PART_CREATE. -/
def runPartCreate (c : Cmd) (s : State) : State :=
  let want := c.f 4 0 8
  let free := fun n => decide (n < 64) && (s.partAt n).st == .free
  let p := if want = 0xFF then parts.find? free else if free want then some want else none
  let n := p.getD 0
  let r := PartRec.zero.withAll c.pay
  s.checked c (partCreateChecks c s) fun s =>
    let t := s.reserve n r
    s.background { t with box := { t.box with sets := t.box.sets ++ [⟨[], s.earliest, c.ref, 0xFF, some n⟩] } } c 8

/-- PART_CREATE. -/
def execPartCreate (k : Take) (s : State) : Host.Outcome State Fault Refusal := .next (s.live (hawk 0x0201 anyCmd k runPartCreate))

/-- The boundary of a create (R100): the partition is LIVE with its ranges and default values, its mailbox's vector is `vector_base` (R52), and its
card is written with nothing counted (R130). -/
def State.goLive (s : State) (p : Nat) (ref : SlotRef) : State :=
  let r := (s.partAt p).record
  let t := (s.zeroCounters p).standing p
  let t := t.modPart p fun x => { x with
    st := .live, configFrame := s.nowFrame, epoch := 0, tally := t.newTally p, last := Tally.zero, admitTotal := 0, energyTotal := 0 }
  let t := (bitsOf r.ranges).foldl (fun t n => t.useSlots (t.rangeAt n).keySlot) t
  let t := t.modMb (.part p) fun b => { b with vector := BitVec.ofNat 12 r.vecBase }
  (t.writeCard p).finish ref .ok 0 8 (pack [(8, p), (8, (t.partAt p).gen.toNat), (16, 0), (32, s.nowFrame.toNat)])

/-! ### A set at its boundary (R109) -/

/-- What a set ends before it applies: swaps and STEP fences of groups that it removes. -/
def State.beforeSet (s : State) (set : List Entry) : State :=
  (set.filter fun e => e.op == 0x0601 && fld e.data 0 0 8 == 2).foldl (fun t e =>
    let g := fld e.data 2 0 10
    (t.stepFences g).foldl State.abandonFence (((t.failSwap g .notPermitted 0x0610).dropEmptyBatches g 0).dropEmptyBatches g 1)) s

/-- What a set starts once it has applied: engines that left take no dispatch, ranges that left lose their cached copies, ranges that joined
load their keys, the slots of engines that joined join a save or restore, engines that join a partition in DRAINING join gated, and a change of migration mode ends fault waits (R111, R354, R359,
R449). -/
def State.afterSet (s old : State) (set : List Entry) : State :=
  let touched := ((set.map Entry.part).filter (· < 64)).eraseDups
  touched.foldl (fun t p =>
    let t := (given s old p 0).foldl (fun t e => t.leaveService p e) t
    let t := (given s old p 2).foldl (fun t r =>
      let x := t.rangeAt r
      { t with coh := { t.coh with copy := t.coh.copy.filter fun (e : Nat × List Copy) => !x.holds (e.1 * 128) } }) t
    let t := (given old s p 2).foldl (fun t r => t.useSlots (t.rangeAt r).keySlot) t
    let t := if (s.powAt p).st = .saving ∨ (s.powAt p).st = .restoring then t.modPow p fun x => { x with
        left := x.left + 8388608 * (given old s p 0).length } else t
    let t := if (s.powAt p).st = .draining then t.modPow p fun x => { x with gated := x.gated ++ given old s p 0 } else t
    if (old.migrateAt p).fault = (s.migrateAt p).fault then t
    else
      let t := t.endWaits fun y => y.part == p && match y.st with
        | .faultWait _ => true
        | _ => false
      { t with xl := { t.xl with hot := t.xl.hot.filter fun h => h.part != p } }) s

/-- The maintenance activities of a partition stop, and those that Lendor queued are dropped (R390). -/
def State.stopActs (s : State) (p : Nat) : State :=
  { s with mem := { s.mem with acts := s.mem.acts.filter fun a => a.part != p && a.ranges.all fun r => !((s.partAt p).record.ranges.getLsbD r)
                               rewrites := s.mem.rewrites.filter fun w => w.part != p } }

/-- The take of a PART_DESTROY (R116). The session's commands end before anything else, so that none of them completes OK (R72). The engines
finish what they run; ways are written back at the end (DEDUCED, notes/assumptions/38.md). -/
def State.destroyPart (s : State) (p reason : Nat) (ref : Option SlotRef) : State :=
  let revoked := ((s.ctxsOf p).filter fun e => e.2.st != .free).length
  let fences := s.liveFences p
  let t := s.modPart p fun x => { x with st := .destroying, gen := nextGen x.gen, reset := none, destroy := some ⟨ref, reason, revoked, fences⟩ }
  let t := (((t.dropSets p).staleSession p).endSession (.part p) true).revokeAll p 9 .contextLost
  let t := ((t.fencesOf p).filter fun e => e.2.st == .live).foldl (fun t e => t.abandonFence e.1) t
  let t := t.staleAll p ref
  let t := ((t.stopForming p).endReplays p).stopActs p
  let t := (t.fen.imports.filter fun w => w.part == p).foldl State.endImport t
  (t.powReset p).modPart p fun x => { x with
    drainEng := x.drainEng ||| x.record.engines, drainWay := x.drainWay ++ (bitsOf x.record.ways).map fun w => (w, s.frame + 4) }

/-- A life-cycle transition to SCRAP runs: a partition that becomes LIVE is destroyed at once (R470). -/
def State.scrapping (s : State) : Bool :=
  match s.sec.run with
  | some r => !r.ended && decide (5 ≤ r.row)
  | none => false

/-- A set takes effect (R109): `config_seq` counts for each partition it touches (R100), cards are written (R128), and it answers. -/
def State.applySet (s : State) (x : PendSet) : State :=
  match x.create with
  | some p =>
    let t := s.goLive p x.ref
    if t.scrapping then t.destroyPart p 0 none else t
  | none =>
    let s := s.beforeSet x.entries
    let t := (x.entries.foldl State.applyEntry s).afterSet s x.entries
    let touched := ((x.entries.map Entry.part).filter (· < 64)).eraseDups
    let t := touched.foldl (fun t p => (t.modPart p fun y => { y with configSeq := y.configSeq + 1, configFrame := s.nowFrame }).writeCard p) t
    t.finish x.ref .ok 0 16 (commitPay s.nowFrame (t.setSeq x) 0xFF x.entries.length 0)

/-- Every set whose boundary has come takes effect, in take order (R85, R109). -/
def State.applySets (s : State) : State :=
  let due := s.box.sets.filter fun x => decide (x.frame ≤ s.frame)
  due.foldl State.applySet { s with box := { s.box with sets := s.box.sets.filter fun x => decide (s.frame < x.frame) } }

/-! ### PART_QUERY (R115) -/

/-- The ranges that a partition released and that are still being cleared. -/
def State.clearingOf (s : State) (p : Nat) : List Nat :=
  (s.mem.range.filter fun e => e.2.st == .clearing && e.2.released == some p).map Prod.fst

/-- The head of PART_QUERY. -/
def queryHead (s : State) (p : Nat) : List (Nat × Nat) :=
  let x := s.partAt p
  [(8, p), (8, x.gen.toNat), (3, partCode x.st), (5, 0), (8, min 255 (s.box.sets.filter fun y => y.names p).length), (32, x.configSeq.toNat),
   (128, x.drainEng.toNat), (128, (maskOf 128 (x.drainWay.map Prod.fst)).toNat), (128, (maskOf 128 (s.clearingOf p)).toNat), (64, 0)]

/-- The checks of PART_QUERY, in order. -/
def partQueryChecks (c : Cmd) : List (Bool × Status × Nat) :=
  let view := c.f 0 0 8
  [(c.zeros [(1, 0, 56)], .rejectedInconsistent, 0x0005), (decide (view ≤ 1), .rejectedInconsistent, 0x0113)]

/-- PART_QUERY. -/
def runPartQuery (c : Cmd) (s : State) : State :=
  let view := c.f 0 0 8
  s.checked c (partQueryChecks c) fun s =>
    s.answer s c (queryHead s c.part ++ recordFields ((if view = 1 then s.projected else s).partAt c.part).record)

/-- PART_QUERY. -/
def execPartQuery (k : Take) (s : State) : Host.Outcome State Fault Refusal := .next (s.live (hawk 0x0205 anyCmd k runPartQuery))

/-! ### PART_DESTROY (R116–R118) -/

/-- The checks of PART_DESTROY, in order. -/
def partDestroyChecks (c : Cmd) (s : State) : List (Bool × Status × Nat) :=
  [
    (c.zeros [(4, 0, 32)], .rejectedInconsistent, 0x0005),
    ((s.partAt c.part).st != .destroying, .rejectedInconsistent, 0x0112)]

/-- PART_DESTROY. -/
def runPartDestroy (c : Cmd) (s : State) : State :=
  s.checked c (partDestroyChecks c s) fun s =>
    s.background ((s.closeLog c.part).destroyPart c.part (c.f 0 0 32) (some c.ref)) c 8

/-- PART_DESTROY. -/
def execPartDestroy (k : Take) (s : State) : Host.Outcome State Fault Refusal := .next (s.live (hawk 0x0204 anyCmd k runPartDestroy))

/-- The names of a partition go: contexts, rings, sequences, fences, groups, segments and tiles, with their generations kept (R116). -/
def State.freeNames (s : State) (p : Nat) : State :=
  let r := (s.partAt p).record
  let t := ((s.fencesOf p).foldl (fun t e => t.freeFence e.1) s).orphanSteps fun g => (s.groupAt g).owner == some p
  let rings := (t.ringsOf p).map Prod.fst
  let seqs := (t.seqsOf p).map Prod.fst
  let own := fun k => if k < 2 ^ 20 then r.hasCtx (k / 16) else k == 2 ^ 20 + p * 16 + k % 16
  { t with
    ten := { t.ten with
      ctx := t.ten.ctx.mapAll Ctx.init fun c x => if r.hasCtx c then { Ctx.init with gen := x.gen } else x
      ctxf := t.ten.ctxf.filter fun e => !r.hasCtx (e.1 / 4)
      lastAdmit := t.ten.lastAdmit.filter fun e => !r.hasCtx e.1
      waits := t.ten.waits.filter fun e => !r.hasCtx e.1
      reserve := t.ten.reserve.filter fun e => !r.hasCtx e.1
      ring := t.ten.ring.filter fun e => !r.hasRing e.1
      ringCache := t.ten.ringCache.mapAll [] fun _ l => l.filter fun x => !rings.contains x
      seq := t.ten.seq.mapAll Seq.init fun q x => if r.hasSeq q then { Seq.init with gen := x.gen } else x
      seqCache := t.ten.seqCache.mapAll [] fun _ l => l.filter fun x => !seqs.contains x
      group := t.ten.group.mapAll Group.init fun _ g => if g.owner = some p then Group.init else g }
    xl := { t.xl with
      seg := t.xl.seg.filter fun e => !own e.1
      etlb := t.xl.etlb.mapAll [] fun _ l => l.filter fun (x : TlbEntry) => x.part != p
      stlb := t.xl.stlb.mapAll [] fun _ l => l.filter fun (x : TlbEntry) => x.part != p
      kv := t.xl.kv.mapAll [] fun _ l => l.filter fun (x : KvEntry) => !seqs.contains x.seq
      tiles := t.xl.tiles.filter fun e => match e.2 with
        | some y => y.part != p
        | none => true } }

/-- DRAIN_COMPLETE_FREE (R100, R117): every engine of a DESTROYING partition is idle; caches are written back, ranges go CLEARING, and the
partition is FREE. -/
def drainCompleteFree (p : Nat) (s : State) : State :=
  let x := s.partAt p
  match x.destroy with
  | none => s
  | some d =>
    let engines := bitsOf (x.drainEng ||| x.record.engines)
    if x.st ≠ .destroying ∨ (engines.all fun e => (s.engAt e).idle && s.engQuiet e) = false then s
    else
      let t := engines.foldl State.resetEngine ((engines.foldl State.probeEngine s).snoopWays p)
      let t := ((t.freeNames p).moveRanges p x.record.ranges 0).clearSettings p
      let clearing := (t.clearingOf p).length
      let t := t.logRec { kind := 0x0005, part := p, a := d.reason, b := d.revoked, c := clearing }
      let t := (t.modPart p fun y => { Part.init with gen := y.gen, cardSeq := y.cardSeq, card := y.card, life := y.life }).writeCard p
      let t := t.modMb (.part p) fun b => { b with vector := 0 }
      t.finishOpt d.ref .ok 0 8 (pack [(16, d.revoked), (16, d.abandoned), (16, clearing), (16, 0)])

/-- DRAIN_COMPLETE_FREE. -/
def execDrainCompleteFree (p : Nat) (s : State) : Host.Outcome State Fault Refusal := .next (s.live (drainCompleteFree p))

end Sys2Proof.Machine
end

