-- ==== Sys2Proof/Machine/Keys.lean ====
section
/-! DEFINITION. The key store: derivation (R453–R457), KEY_DERIVE and KEY_DESTROY (R462, R463), of 15_keys_lifecycle_debug. -/

namespace Sys2Proof.Machine

/-- The test root applies in the state of the start (R453). -/
def Sec.testRoot (x : Sec) : Bool := x.lc == .blank || x.lc == .fabTest || x.lc == .analysis

/-- Some root derives keys: the test root, or a VALID one outside SCRAP (R451, R462 check 1). -/
def Sec.canDerive (x : Sec) : Bool :=
  x.testRoot || (x.lc != .scrap && match x.root with
    | .valid _ => true
    | _ => false)

/-- The root that derivation is keyed with: 384 zero bits for the test root (R453). -/
def Sec.rootKey (x : Sec) : Nat :=
  if x.testRoot then 0
  else match x.root with
    | .valid root => root.toNat
    | _ => 0

/-- The label of a use (R457): its length and its ASCII bytes. -/
def useLabel : Nat → Nat × Nat
  | 0 => (8, 0x736372616D626C65)
  | 1 => (3, 0x746167)
  | 2 => (8, 0x6D62782D61757468)
  | 3 => (10, 0x6462672D766572696679)
  | _ => (10, 0x696D672D766572696679)

/-- The context of a derivation (R457): 61 bytes, each field little-endian as R9 gives it. -/
def Sec.context (x : Sec) (serial : BitVec 128) (slot use binding id : Nat) (start : Bool) : Nat :=
  messageOf 61 (pack [(128, serial.toNat), (16, slot), (8, use), (8, binding), (64, id), (8, lcCode x.lc), (128, x.burned),
    (128, if start then x.start.toNat else 0)])

/-- The key that a derivation gives (R457; byte orders DEDUCED, notes/assumptions/98.md). -/
def Sec.derive (x : Sec) (serial : BitVec 128) (slot use binding id : Nat) (start : Bool) : BitVec 512 :=
  BitVec.ofNat 512 (kdf384 x.rootKey (useLabel use).1 (useLabel use).2 61 (x.context serial slot use binding id start) (if use = 0 then 512 else 256))

/-- A LOADED slot of Lendor's own (R455), with the uses that the start makes of it (R454). -/
def Sec.ownSlot (x : Sec) (serial : BitVec 128) (slot use : Nat) (start : Bool) (uses : W32) : KeySlot :=
  ⟨true, use, uses, false, 0xFE, x.derive serial slot use 0xFE 0 start⟩

/-- Slots 0 to 7 as a start derives them (R455), loading the pairs of the two regions; no root derives nothing (R451). -/
def Sec.deriveOwn (x : Sec) (serial : BitVec 128) : Sec :=
  let own := [(0, 2, true), (1, 3, true), (2, 4, false), (4, 0, true), (5, 1, true), (6, 0, false), (7, 1, false)]
  let kept := x.slots.filter fun e => 8 ≤ e.1
  { x with slots := if x.canDerive then own.foldl (fun t e => t.put KeySlot.init e.1 (x.ownSlot serial e.1 e.2.1 e.2.2
      (if 4 ≤ e.1 ∨ (e.1 = 2 ∧ x.measured.isSome = true) then 1 else 0))) kept else kept }

/-- A key slot. -/
def State.slotAt (s : State) (n : Nat) : KeySlot := s.sec.slots.get KeySlot.init n

/-- The checks of KEY_DERIVE, in order (R462); during a transition the second refuses whatever the root is (R486). -/
def keyDeriveChecks (c : Cmd) (s : State) : List (Bool × Status × Nat) :=
  let slot := c.f 0 0 16
  let use := c.f 2 0 8
  let binding := c.f 4 0 8
  [
    (c.zeros [(3, 1, 7), (5, 0, 24), (16, 0, 128)], .rejectedInconsistent, 0x0005),
    (s.sec.run.isSome || (s.sec.lc != .scrap && s.sec.canDerive), .notPermitted, 0x0D04),
    (s.sec.run.isNone, .rejectedInconsistent, 0x0D06),
    (decide (8 ≤ slot ∧ slot ≤ 511), .notPermitted, 0x0D00),
    (use == slot % 2, .rejectedInconsistent, 0x0D01),
    (decide (binding < 64) || binding == 0xFF, .rejectedInconsistent, 0x0D03),
    (!(s.slotAt slot).loaded, .rejectedInconsistent, 0x0D02)]

/-- KEY_DERIVE (R462). -/
def runKeyDerive (c : Cmd) (s : State) : State :=
  let slot := c.f 0 0 16
  let use := c.f 2 0 8
  let binding := c.f 4 0 8
  s.checked c (keyDeriveChecks c s) fun s =>
    let key : KeySlot := ⟨true, use, 0, c.f 3 0 1 == 1, binding, s.sec.derive s.chip.serial slot use binding (c.f 8 0 64) true⟩
    let t := { s with sec := { s.sec with slots := s.sec.slots.put KeySlot.init slot key, derived := s.sec.derived + 1 } }
    s.answer t c [(16, slot), (8, use), (8, binding), (32, t.sec.derived.toNat)]

/-- KEY_DERIVE. -/
def execKeyDerive (k : Take) (s : State) : Host.Outcome State Fault Refusal := .next (s.live (hawk 0x0D01 anyCmd k runKeyDerive))

/-- A slot is in use by a range, in effect or pending, or by a SKIM that runs or waits (R463). -/
def State.slotUsed (s : State) (n : Nat) : Bool :=
  let names := fun (k : Nat) => k == n || k + 1 == n
  let inUse := fun (t : State) => t.mem.range.any fun e => e.2.st != .undefined && (names e.2.keySlot || names e.2.skimSlot)
  inUse s || ((List.range s.box.sets.length).any fun i => inUse ((s.box.sets.take (i + 1)).foldl State.applyPend s)) ||
  s.mem.acts.any fun a => a.code == 2 && names a.skimSlot

/-- The checks of KEY_DESTROY, in order (R463). -/
def keyDestroyChecks (c : Cmd) (s : State) : List (Bool × Status × Nat) :=
  let slot := c.f 0 0 16
  [
    (c.zeros [(2, 0, 48)], .rejectedInconsistent, 0x0005),
    (decide (8 ≤ slot ∧ slot ≤ 511), .notPermitted, 0x0D00),
    (!s.slotUsed slot, .rejectedInconsistent, 0x0D05)]

/-- KEY_DESTROY (R463). -/
def runKeyDestroy (c : Cmd) (s : State) : State :=
  let slot := c.f 0 0 16
  s.checked c (keyDestroyChecks c s) fun s =>
    ({ s with sec := { s.sec with slots := s.sec.slots.drop slot } } : State).respond c.ref .ok 0 0 0 none

/-- KEY_DESTROY. -/
def execKeyDestroy (k : Take) (s : State) : Host.Outcome State Fault Refusal := .next (s.live (hawk 0x0D02 anyCmd k runKeyDestroy))

end Sys2Proof.Machine
end

