-- ==== Sys2Proof/Machine/LifeCycle.lean ====
section
/-! DEFINITION. Life-cycle transitions (R464–R471), of 15_keys_lifecycle_debug. -/

namespace Sys2Proof.Machine

/-- The transitions of R465 in the order of their rows. -/
def lcRows : List (Lc × Lc) :=
  [(.blank, .fabTest), (.fabTest, .provision), (.provision, .deploy), (.provision, .analysis), (.deploy, .analysis), (.blank, .scrap),
   (.fabTest, .scrap), (.provision, .scrap), (.deploy, .scrap), (.analysis, .scrap)]

/-- The row of a transition. -/
def lcRow (a b : Lc) : Option Nat := lcRows.findIdx? fun r => r.1 == a && r.2 == b

/-- The number of a row's steps. -/
def lcSteps (row : Nat) : Nat := if row < 3 then 2 else 4

/-- The target of a row. -/
def lcTarget (row : Nat) : Lc := (lcRows.getD row (.blank, .scrap)).2

/-- Every partition is destroyed as PART_DESTROY does (R470); one that is being created is destroyed when it is LIVE (R100, `State.scrapping`). -/
def State.destroyAll (s : State) : State :=
  parts.foldl (fun t p => match (t.partAt p).st with
    | .free | .creating | .destroying => t
    | _ => (t.closeLog p).destroyPart p 0 none) s

/-- The checks of LC_TRANSITION, in order (R469, R470, R494). -/
def lcTransitionChecks (c : Cmd) (s : State) : List (Bool × Status × Nat) :=
  let row := (lcOf (c.f 0 0 8)).bind fun b => lcRow s.sec.lc b
  let n := row.getD 0
  let idle := (parts.all fun p => (s.partAt p).st == .free) && s.mem.range.all fun e => e.2.st == .undefined
  [
    (c.zeros [(1, 0, 24)], .rejectedInconsistent, 0x0005),
    (s.log.run.isNone && (List.range 8).all fun k => !s.coreStopped k, .rejectedInconsistent, 0x0D2C),
    (c.f 4 0 32 == 0x4C435458, .rejectedInconsistent, 0x0D11),
    (row.isSome, .rejectedInconsistent, 0x0D10),
    (s.sec.run.isNone, .rejectedInconsistent, 0x0D14),
    (decide (5 ≤ n) || idle, .rejectedInconsistent, 0x0D12),
    (!(n == 3 || n == 4) || s.hasRight 7, .notPermitted, 0x0D13)]

/-- LC_TRANSITION (R469, R470, R494). -/
def runLcTransition (c : Cmd) (s : State) : State :=
  let row := (lcOf (c.f 0 0 8)).bind fun b => lcRow s.sec.lc b
  let n := row.getD 0
  s.checked c (lcTransitionChecks c s) fun s =>
    let t := { s with sec := { s.sec with run := some ⟨n, 0, some c.ref, false⟩ } }
    s.background (if 5 ≤ n then t.destroyAll else t) c 8

/-- LC_TRANSITION. -/
def execLcTransition (k : Take) (s : State) : Host.Outcome State Fault Refusal := .next (s.live (hawk 0x0D03 anyCmd k runLcTransition))

/-- Burns the mark of step `k` of a row (R467). -/
def Sec.mark (x : Sec) (row k : Nat) : Sec :=
  { x with marks := x.marks.upd 0 row fun m => m ||| 2 ^ (k - 1), run := x.run.map fun r => { r with steps := k } }

/-- WIPE_SLOTS as a step (R466): the slots and key registers are zeroed. -/
def Sec.wipe (x : Sec) : Sec := { x with slots := [] }

/-- A root row and its check row with every bit burned. -/
def rootOnes : RootRow := ⟨BitVec.allOnes 384, BitVec.allOnes 48⟩

/-- A root row and its check row with no bit burned. -/
def rootBlank : RootRow := ⟨0, 0⟩

/-- The check row holds the low 48 bits of SHA-384 over the root (R450). -/
def rootHolds (r : RootRow) : Bool := r.check.toNat == sha384 48 r.root.toNat % 2 ^ 48

/-- DESTROY_ROOT as a step (R466). -/
def Sec.burnRoot (x : Sec) : Sec := { x with rowA := rootOnes, rowB := rootOnes }

/-- BURN_STATE as a step (R466). -/
def Sec.burnLc (x : Sec) (row : Nat) : Sec := { x with fuse := lcTarget row, burned := x.burned + 1 }

/-- The step of a transition that is to be carried out next: its row and the number of the step. -/
def State.lcNext (s : State) : Option (Nat × Nat) :=
  match s.sec.run with
  | some r => if r.ended then none else some (r.row, r.steps + 1)
  | none => none

/-- WIPE_SLOTS (R466, R470): for a target of SCRAP it waits until every partition is destroyed. The dump region cannot be read any more (R471). -/
def wipeSlots (s : State) : State :=
  match s.lcNext with
  | some (row, 1) =>
    if 5 ≤ row ∧ (parts.any fun p => (s.partAt p).st != .free) = true then s
    else { s with sec := (s.sec.wipe).mark row 1, log := { s.log with slot0 := none, slot1 := none } }
  | _ => s

/-- WIPE_SLOTS. -/
def execWipeSlots (s : State) : Host.Outcome State Fault Refusal := .next (s.live wipeSlots)

/-- DESTROY_ROOT (R466). -/
def destroyRoot (s : State) : State :=
  match s.lcNext with
  | some (row, 2) => if row < 3 then s else { s with sec := (s.sec.burnRoot).mark row 2 }
  | _ => s

/-- DESTROY_ROOT. -/
def execDestroyRoot (s : State) : Host.Outcome State Fault Refusal := .next (s.live destroyRoot)

/-- ERASE_USER (R466): without a read-back of all ones the step is not complete, and is repeated. -/
def eraseUser (verified : Bool) (s : State) : State :=
  match s.lcNext with
  | some (row, 3) =>
    if verified then { s with sec := ({ s.sec with saved := none } : Sec).mark row 3, log := { s.log with flash := 0 } } else s
  | _ => s

/-- ERASE_USER. -/
def execEraseUser (verified : Bool) (s : State) : Host.Outcome State Fault Refusal := .next (s.live (eraseUser verified))

/-- BURN_STATE (R466, R470): the last mark, the final response and the end of LC_ANALYSIS; the chip reset follows at the next epoch
boundary. -/
def burnState (s : State) : State :=
  match s.lcNext with
  | some (row, k) =>
    if k ≠ lcSteps row then s
    else
      let ref := s.sec.run.bind LcRun.ref
      let t := s.changeSec fun x => { (x.burnLc row).mark row k with
        grant := x.grant.map fun g => g % 128
        run := x.run.map fun r => { r with steps := k, ended := true } }
      t.finishOpt ref .ok 0 8 (pack [(8, lcCode s.sec.lc), (8, lcCode (lcTarget row)), (8, k), (40, 0)])
  | none => s

/-- BURN_STATE. -/
def execBurnState (s : State) : Host.Outcome State Fault Refusal := .next (s.live burnState)

end Sys2Proof.Machine
end

