-- ==== Sys2Proof/Machine/Debug.lean ====
section
/-! DEFINITION. Debug authorisation: certificates (R475–R478) and challenges (R479–R481), of 15_keys_lifecycle_debug. -/

namespace Sys2Proof.Machine

/-- The identifier of the held certificate, 0 when none is held. -/
def Sec.certId (x : Sec) : W32 :=
  match x.cert with
  | some (c, _) => c.id
  | none => 0

/-- What the maker signed in a payload (R475, R480): `n` bytes from `byte` on, followed by the maker's public key and the signature. The public key is the
maker's by its fused hash, and the signature verifies. -/
def makerSigned (s : State) (c : Cmd) (byte n : Nat) : Bool :=
  let pub := messageOf 96 (c.f (byte + n - 96) 0 768)
  sha384 96 pub == s.sec.makerHash.toNat &&
    ecdsaVerify pub (sha384 n (messageOf n (c.f byte 0 (8 * n)))) (messageOf 96 (c.f (byte + n) 0 768))

/-- The maker's key and signature, `serial` and `lc_mask` of a certificate or a response (R476, R478). -/
def grantTests (s : State) (signed_ : Bool) (serial lcMask : Nat) : List (Bool × Status × Nat) :=
  [(signed_, .notPermitted, 0x0D21), (serial == s.chip.serial.toNat, .notPermitted, 0x0D22),
   (lcMask.testBit (lcCode s.sec.lc), .notPermitted, 0x0D23)]

/-- The response of DBG_CERT_LOAD (R477). -/
def State.certAnswer (s after : State) (c : Cmd) : State :=
  s.answer after c [(8, after.rights.toNat), (8, after.level), (16, 0), (32, after.sec.certId.toNat)]

/-- A DBG_CERT_LOAD whose `op` is LOAD, or no `op` of R477. -/
def certLoad (c : Cmd) : Bool := c.f 0 0 8 != 1 && c.f 0 0 8 != 2

/-- The reserved fields of DBG_CERT_LOAD's head are zero (R477). A field that an `op` does not use is not looked at. -/
def certZeros (c : Cmd) : Bool := c.zeros [(2, 1, 7), (3, 0, 40)]

/-- A transition refuses the debug commands (R494). -/
def lcIdle (s : State) : Bool × Status × Nat := (s.sec.run.isNone, .rejectedInconsistent, 0x0D2B)

/-- The checks of DBG_CERT_LOAD, in order (R476–R478). -/
def dbgCertLoadChecks (c : Cmd) (s : State) : List (Bool × Status × Nat) :=
  let f := fun (byte bit w : Nat) => c.f (8 + byte) bit w
  let rights := f 20 0 8
  let format := f 0 0 16 == 1 && c.zeros [(10, 0, 16), (30, 6, 2), (31, 0, 8), (44, 0, 32), (240, 0, 192)]
  [
    (c.len == (if c.f 0 0 8 = 0 then 264 else 8), .rejectedInconsistent, 0x0004),
    (certZeros c, .rejectedInconsistent, 0x0005),
    lcIdle s,
    (c.f 0 0 8 == 0, .rejectedInconsistent, (Config.unstatedDetail 3).toNat),
    (format, .notPermitted, 0x0D20)] ++ grantTests s (makerSigned s c 8 136) (f 4 0 128) (f 21 0 8) ++ [
    ((BitVec.ofNat 8 rights &&& ~~~(certLimit s.sec.lc)) == 0, .notPermitted, 0x0D26),
    (decide (s.sec.rev ≤ f 22 0 6), .notPermitted, 0x0D24),
    (s.lockedOnce && decide (s.epoch ≤ f 24 0 64), .notPermitted, 0x0D25)]

/-- DBG_CERT_LOAD with LOAD (R476–R478). -/
def runDbgCertLoad (c : Cmd) (s : State) : State :=
  let f := fun (byte bit w : Nat) => c.f (8 + byte) bit w
  let rights := f 20 0 8
  let cert : Cert := ⟨rights, f 21 0 8, f 22 0 6, f 24 0 64, BitVec.ofNat 32 (f 32 0 32)⟩
  s.checked c (dbgCertLoadChecks c s) fun s =>
    s.certAnswer (s.changeSec fun x => { x with cert := some (cert, true), saved := if c.f 2 0 1 = 1 then some cert else x.saved }) c

/-- DBG_CERT_LOAD. -/
def execDbgCertLoad (k : Take) (_ : Unit) (s : State) : Host.Outcome State Fault Refusal :=
  .next (s.live (hawk 0x0D04 certLoad k runDbgCertLoad))

/-- The checks of DBG_CERT_CLEAR, in order (R477). -/
def dbgCertClearChecks (c : Cmd) (s : State) : List (Bool × Status × Nat) :=
  [
    (c.len == 8, .rejectedInconsistent, 0x0004),
    (certZeros c, .rejectedInconsistent, 0x0005),
    lcIdle s]

/-- DBG_CERT_LOAD with CLEAR (R477). -/
def runDbgCertClear (c : Cmd) (s : State) : State :=
  s.checked c (dbgCertClearChecks c s) fun s => s.certAnswer (s.changeSec fun x => { x with cert := none, saved := none }) c

/-- DBG_CERT_CLEAR. -/
def execDbgCertClear (k : Take) (s : State) : Host.Outcome State Fault Refusal :=
  .next (s.live (hawk 0x0D04 (fun c => c.f 0 0 8 == 1) k runDbgCertClear))

/-- The checks of DBG_CERT_REVOKE, in order (R477, R478). -/
def dbgCertRevokeChecks (c : Cmd) (s : State) : List (Bool × Status × Nat) :=
  let level := c.f 1 0 8
  [
    (c.len == 8, .rejectedInconsistent, 0x0004),
    (certZeros c, .rejectedInconsistent, 0x0005),
    lcIdle s,
    (decide (s.sec.rev < level ∧ level ≤ 63), .rejectedInconsistent, 0x0D24)]

/-- DBG_CERT_LOAD with REVOKE (R477, R478). -/
def runDbgCertRevoke (c : Cmd) (s : State) : State :=
  let level := c.f 1 0 8
  s.checked c (dbgCertRevokeChecks c s) fun s =>
    s.certAnswer (s.changeSec fun x => { x with rev := level }) c

/-- DBG_CERT_REVOKE. -/
def execDbgCertRevoke (k : Take) (s : State) : Host.Outcome State Fault Refusal :=
  .next (s.live (hawk 0x0D04 (fun c => c.f 0 0 8 == 2) k runDbgCertRevoke))

/-- The refusals of challenge commands (R494). -/
def challengeCell (s : State) : List (Bool × Status × Nat) := [(!s.out.low, .notPermitted, 0x0D2A), lcIdle s]

/-- The checks of DBG_CHALLENGE, in order (R479). -/
def dbgChallengeChecks (c : Cmd) (s : State) : List (Bool × Status × Nat) :=
  (c.zeros [(1, 0, 56)], .rejectedInconsistent, 0x0005) :: challengeCell s

/-- DBG_CHALLENGE (R479). -/
def runDbgChallenge (nonce : BitVec 256) (c : Cmd) (s : State) : State :=
  s.checked c (dbgChallengeChecks c s) fun s =>
    let id := s.sec.challenges + 1
    let last := s.epoch + 8192
    let t := { s with sec := { s.sec with challenges := id, challenge := some ⟨id, last, nonce, c.f 0 0 8⟩ } }
    s.answer t c [(32, id.toNat), (64, last), (256, nonce.toNat), (128, s.chip.serial.toNat), (32, 0)]

/-- DBG_CHALLENGE. -/
def execDbgChallenge (k : Take) (nonce : BitVec 256) (s : State) : Host.Outcome State Fault Refusal :=
  .next (s.live (hawk 0x0D05 anyCmd k (runDbgChallenge nonce)))

/-- A response names the open challenge in time (R481). -/
def State.challengeNamed (s : State) (c : Cmd) : Bool :=
  match s.sec.challenge with
  | some x => c.f 4 0 32 == x.id.toNat && c.f 8 0 256 == x.nonce.toNat && decide (s.epoch ≤ x.notAfter)
  | none => false

/-- The checks of DBG_RESPONSE, in order (R480, R481). -/
def dbgResponseChecks (s : State) : List (Bool × Status × Nat) :=
  challengeCell s

/-- DBG_RESPONSE (R480, R481): the open challenge closes whether it passes or fails. -/
def runDbgResponse (c : Cmd) (s : State) : State :=
  let rights := c.f 56 0 8
  let wanted := ((s.sec.challenge.map Challenge.wanted).getD 0)
  let format := c.f 0 0 16 == 1 && c.zeros [(2, 0, 16), (58, 6, 2), (59, 0, 40)]
  s.checked c (dbgResponseChecks s) fun s =>
    let t := { s with sec := { s.sec with challenge := none } }
    t.checked c ([(s.challengeNamed c, .notPermitted, 0x0D27), (format, .notPermitted, 0x0D20)] ++
      grantTests s (makerSigned s c 0 160) (c.f 40 0 128) (c.f 57 0 8) ++ [
      (decide (s.sec.rev ≤ c.f 58 0 6), .notPermitted, 0x0D24),
      ((BitVec.ofNat 8 rights &&& ~~~(BitVec.ofNat 8 wanted)) == 0, .notPermitted, 0x0D26)]) fun t =>
      (t.changeSec fun x => { x with grant := some rights }).respond c.ref .ok 0 0 0 none

/-- DBG_RESPONSE. -/
def execDbgResponse (k : Take) (_ : Unit) (s : State) : Host.Outcome State Fault Refusal :=
  .next (s.live (hawk 0x0D06 anyCmd k runDbgResponse))

end Sys2Proof.Machine
end

