-- ==== Sys2Proof/Machine/Logs.lean ====
section
/-! DEFINITION. Dumps (R542, R543) and LOG_READ (R544, R596), of 18_faults_and_recovery. -/

namespace Sys2Proof.Machine

/-- The dump slot that holds the older dump is filled (R542); true: slot 0. -/
def Log.older (l : Log) : Bool :=
  match l.slot0, l.slot1 with
  | none, _ => true
  | some _, none => false
  | some a, some b => decide (a.id < b.id)

/-- A dump that begins now (R542). -/
def State.newDump (s : State) (cause mask : Nat) : Dump :=
  ⟨s.log.dumps + 1, cause, mask, s.log.inc, 0, s.beat.tick, (Config.dumpFirst s.free).toNat,
    if mask % 2 = 1 then s.watch.core.map fun e => (e.1, e.2.mem) else [], []⟩

/-- Enters a dump in the slot that holds the older one. -/
def State.storeDump (s : State) (d : Dump) : State :=
  { s with log := { s.log with
    dumps := d.id
    slot0 := if s.log.older then some d else s.log.slot0
    slot1 := if s.log.older then s.log.slot1 else some d } }

/-- The checks of DUMP_START, in order (R543). -/
def dumpStartChecks (c : Cmd) (s : State) : List (Bool × Status × Nat) :=
  let scope := c.f 0 0 8
  [
    (c.zeros [(1, 0, 24)], .rejectedInconsistent, 0x0005),
    (c.ref.mb != .debug || s.hasRight 4, .notPermitted, 0x0F20),
    (s.log.run.isNone, .rejectedInconsistent, 0x0F21),
    (scope != 0, .rejectedInconsistent, 0x0F22)]

/-- DUMP_START (R543): kinds 9 and 10 are always included. -/
def runDumpStart (c : Cmd) (s : State) : State :=
  let scope := c.f 0 0 8
  s.checked c (dumpStartChecks c s) fun s =>
    let run : DumpRun := ⟨c.ref, s.nowFrame, s.newDump 0 (scope + 0x300)⟩
    s.background { s with log := { s.log with run := some run }, free := s.free + 1 } c 16

/-- DUMP_START. -/
def execDumpStart (k : Take) (s : State) : Host.Outcome State Fault Refusal := .next (s.live (hawk 0x0F03 anyCmd k runDumpStart))

/-- DUMP_END (R543): the dump fills the slot that holds the older one; `bytes` is what the sections took (R542). -/
def dumpEnd (bytes : Nat) (s : State) : State :=
  match s.log.run with
  | none => s
  | some r =>
    let d := { r.dump with bytes := bytes }
    let t := ({ s with log := { s.log with run := none } } : State).storeDump d
    t.finish r.ref .ok 0 16 (pack [(32, d.id), (32, bytes), (32, r.start.toNat), (32, s.nowFrame.toNat)])

/-- DUMP_END. -/
def execDumpEnd (bytes : Nat) (s : State) : Host.Outcome State Fault Refusal := .next (s.live (dumpEnd bytes))

/-- A record's 64 bytes (R539). -/
def Rec.fields (r : Rec) : List (Nat × Nat) :=
  [(64, r.seq), (64, r.tick.toNat), (16, r.kind), (8, r.part), (8, r.gen.toNat), (32, r.inc.toNat), (16, r.ctx), (8, r.place),
   (8, statusCode r.status), (32, r.a), (64, r.b), (64, r.c), (128, r.d)]

/-- The records that a mailbox may read (R541). -/
def State.mayRead (s : State) (m : Mailbox) (r : Rec) : Bool :=
  match m with
  | .part p => r.part == p && decide ((s.partAt p).life ≤ r.seq)
  | _ => true

/-- The number of the oldest kept record; without one, the next number. -/
def Log.first (l : Log) : Nat := (l.recs.head?.map Rec.seq).getD l.next

/-- LOG_READ of records (view 0). -/
def runLogRecords (c : Cmd) (s : State) : State :=
  let start := c.f 8 0 64
  let seen := s.log.recs.filter fun r => decide (start ≤ r.seq) && s.mayRead c.ref.mb r
  let out := seen.take ((c.space - 16) / 64)
  s.answer s c ([(64, s.log.next), (16, out.length), (1, bit (decide (out.length < seen.length))), (1, bit (decide (max start 1 < s.log.first))),
    (46, 0)] ++ out.flatMap Rec.fields)

/-- LOG_READ of counters (view 1, R596). -/
def runLogCounters (c : Cmd) (s : State) : State :=
  let chip := c.part == 0xFF
  let manager := match c.ref.mb with
    | .part _ => false
    | _ => true
  let fires := s.obs.wdPart.get 0 c.part
  s.answer s c [(64, s.log.first), (64, s.log.next), sat 32 s.log.lost, (32, if manager then s.mem.blocked.toNat else 0),
    (32, if chip then s.obs.faultAll.toNat else (s.migrateAt c.part).overflow.toNat), (32, if chip then s.obs.wdAll.toNat else fires)]

/-- The kinds of a dump's sections, in order (R542). -/
def Dump.kinds (d : Dump) : List Nat := ((List.range 10).filter fun i => d.mask.testBit i).map (· + 1)

/-- The first 32 bytes of a dump's header (R542). -/
def Dump.header (d : Dump) : Nat :=
  pack [(16, 1), (8, d.cause), (8, d.kinds.length), (32, d.id), (32, d.inc.toNat), (32, d.bytes), (64, d.tick.toNat), (64, d.first)]

/-- A byte of a dump whose value the spec gives: the fixed header, and in section k's entry its kind and the reserved bytes (R542). -/
def Dump.fixedByte (d : Dump) (o : Nat) : Option Byte :=
  if o < 32 then some (BitVec.ofNat 8 (d.header / 2 ^ (8 * o)))
  else match d.kinds[(o - 32) / 16]? with
    | some k => if o % 16 < 4 then some (BitVec.ofNat 8 (k / 2 ^ (8 * (o % 16)))) else none
    | none => none

/-- A byte of a dump at an offset: one that the spec gives, one that a read has shown, or else what the dump region holds there. -/
def Dump.byteAt (d : Dump) (o : Nat) (stored : Byte) : Byte := ((d.fixedByte o).orElse fun _ => d.shown.get none o).getD stored

/-- The bytes of a dump from an offset; `stored`: what the dump region holds where nothing else gives a byte. -/
def Dump.bytesFrom (d : Dump) (start n stored : Nat) : List Byte :=
  (List.range n).map fun i => d.byteAt (start + i) (BitVec.ofNat 8 (stored / 2 ^ (8 * i)))

/-- A read has shown bytes of a dump from an offset. -/
def Dump.show (d : Dump) (start : Nat) (l : List Byte) : Dump :=
  { d with shown := l.zipIdx.foldl (fun t x => if (d.fixedByte (start + x.2)).isSome then t else t.put none (start + x.2) (some x.1)) d.shown }

/-- A read has shown bytes of the dump with a number. -/
def Log.showDump (l : Log) (id start : Nat) (b : List Byte) : Log :=
  let f := fun (d : Dump) => if d.id = id then d.show start b else d
  { l with slot0 := l.slot0.map f, slot1 := l.slot1.map f }

/-- The dump with a number. -/
def Log.dumpOf (l : Log) (id : Nat) : Option Dump := ([l.slot0, l.slot1].filterMap fun x => x).find? fun d => d.id == id

/-- LOG_READ of a dump (view 2). -/
def runLogDump (stored : Nat) (c : Cmd) (s : State) : State :=
  match s.log.dumpOf (c.f 4 0 32) with
  | none => s.reject c .rejectedInconsistent 0x0F32
  | some d =>
    let start := c.f 8 0 64
    let n := min (c.space - 16) (d.bytes - start)
    let b := d.bytesFrom start n stored
    s.answer { s with log := s.log.showDump d.id start b } c ([(32, d.id), (32, d.bytes), (32, n), (32, 0)] ++ b.map fun x => (8, x.toNat))

/-- The checks of LOG_READ, in order (R544). -/
def logReadChecks (c : Cmd) : List (Bool × Status × Nat) :=
  let view := c.f 0 0 8
  let own := match c.ref.mb with
    | .part _ => true
    | _ => false
  [
    (c.zeros [(1, 0, 24)], .rejectedInconsistent, 0x0005),
    (decide (view ≤ 2), .rejectedInconsistent, 0x0F30),
    (view != 2 || !own, .notPermitted, 0x0F31)]

/-- LOG_READ (R544). `dump` is what the dump region holds from the offset asked for, where no read has shown it before. -/
def runLogRead (dump : Nat) (c : Cmd) (s : State) : State :=
  let view := c.f 0 0 8
  s.checked c (logReadChecks c) fun s =>
    if view = 0 then runLogRecords c s else if view = 1 then runLogCounters c s else runLogDump dump c s

/-- LOG_READ. -/
def execLogRead (k : Take) (dump : Nat) (s : State) : Host.Outcome State Fault Refusal :=
  .next (s.live (hawk 0x0F04 anyCmd k (runLogRead dump)))

end Sys2Proof.Machine
end

