-- ==== Sys2Proof/Machine/Low.lean ====
section
/-! DEFINITION. The end of a restore (R429) and the chip states RUN and LOW (R430, R431), of 14_power_and_capo. -/

namespace Sys2Proof.Machine

/-- RESTORE_DONE: the last line is restored, or a line failed its ECC (`good` is false) or its MAC and the event is an error of the partition's domain (R429). No entry of
R412 gives its cause: the value is open. -/
def restoreDone (p : Nat) (good : Bool) (s : State) : State :=
  if (s.powAt p).st ≠ .restoring ∨ (s.powAt p).step = true then s
  else if good = true ∧ s.slotsGood p = true then (if (s.powAt p).left = 0 then s.restored p else s)
  else s.loseDomain p 149 (Config.unstatedDetail 4).toNat

/-- RESTORE_DONE. -/
def execRestoreDone (p : Nat) (good : Bool) (s : State) : Host.Outcome State Fault Refusal := .next (s.live (restoreDone p good))

/-- D3HOT_ENTRY (R430, R431, R492, R495): LOW; partitions go to L2, the challenge grant and the open challenge end, holds are released. -/
def d3hotEntry (s : State) : State :=
  if s.out.low then s
  else
    let t := { s with out := { s.out with low := true } }
    let t := (t.changeSec fun x => { x with grant := none, challenge := none }).releaseHolds
    parts.foldl State.lowEntry t

/-- D3HOT_ENTRY. -/
def execD3hotEntry (s : State) : Host.Outcome State Fault Refusal := .next (s.live d3hotEntry)

/-- D0_RETURN (R430, R431): RUN; the held MSI-X messages go out, and partitions return at the next frame boundary. -/
def d0Return (s : State) : State :=
  if s.out.low then { s with out := { s.out with low := false, msix := s.out.msix ++ s.out.held, held := [] } } else s

/-- D0_RETURN. -/
def execD0Return (s : State) : Host.Outcome State Fault Refusal := .next (s.live d0Return)

end Sys2Proof.Machine
end

