-- ==== Sys2Proof/Machine/Plumb.lean ====
section
/-! DEFINITION. Plumb: marker words (R80–R82), its states (R83) and the correction of the counter (R84), of 03_beat_and_frames. -/

namespace Sys2Proof.Machine

/-! ### Ports and sources -/

/-- A link port. -/
def State.portAt (s : State) (p : Nat) : Port := s.net.ports.get Port.init p

/-- Changes a link port. -/
def State.modPort (s : State) (p : Nat) (f : Port → Port) : State :=
  { s with net := { s.net with ports := s.net.ports.upd Port.init p f } }

/-- Changes Plumb. -/
def State.modBeat (s : State) (f : Beat → Beat) : State := { s with beat := f s.beat }

/-- A port may serve as a recovered source: it is designated, trained, and its peer is LOCKED on its own pin (R81). A port whose round trip is still to
be measured qualifies, and its beat is corrected by 0 until the pass of R90 (DESIGN CHOICE, notes/assumptions/90.md). -/
def State.portQualifies (s : State) (p : Nat) : Bool :=
  decide (p < 18) && s.beat.ports.getLsbD p && (s.portAt p).up && (s.portAt p).plumb == 1 && (s.portAt p).pin

/-- The port that Plumb chooses among those that qualify (R82). -/
def State.bestPort (s : State) : Option Nat :=
  argMin (fun p => ((s.portAt p).node : Int)) ((List.range 18).filter s.portQualifies)

/-- Plumb listens to a source: the pin always; a port that qualifies when it is the one of R82 or in use, and the pin gives no good markers. -/
def State.listens (s : State) : BeatSource → Bool
  | .pin => true
  | .port p => (s.beat.source == some (.port p) && s.portQualifies p) || (s.beat.source.isNone && s.bestPort == some p && (s.beat.seen.get none 0).isNone)

/-! ### Marker words (R80) -/

/-- One bit of CRC-16/CCITT. -/
def crcBit (c : BitVec 16) (b : Bool) : BitVec 16 := if c.getLsbD 15 != b then (c <<< 1) ^^^ 0x1021#16 else c <<< 1

/-- The CRC of bits [95:16] of a marker word, most significant bit first (PRESUMED, notes/assumptions/39.md). -/
def markerCrc (w : BitVec 96) : BitVec 16 := (List.range 80).foldl (fun c i => crcBit c (w.getLsbD (95 - i))) Config.crcSeed

/-- The tick value of a marker word. -/
def markerTick (w : BitVec 96) : Nat := w.toNat / 65536 % 2 ^ 64

/-- A marker word whose sync pattern and CRC are correct, with a tick value of a block (R80). -/
def markerGood (w : BitVec 96) : Bool :=
  w.toNat / 2 ^ 80 == 0xA5C3 && w.setWidth 16 == markerCrc w && markerTick w % 40960 == 0

/-- The marker word of a block, as the beat carries it. -/
def markerOf (tick : Nat) : BitVec 96 :=
  let w := BitVec.ofNat 96 (0xA5C3 * 2 ^ 80 + tick % 2 ^ 64 * 65536)
  w ||| (markerCrc w).setWidth 96

/-- The beat's value now in quarter ticks, when a block that began at `tick` began `lag` ticks ago: the pin with the board's trim, a port
with half the round trip (R80, R81), where half of an odd round trip is rounded down to a quarter tick (DESIGN CHOICE, notes/assumptions/90.md). -/
def State.beatNow (s : State) (src : BeatSource) (tick lag : Nat) : Int :=
  (4 * (tick + lag) : Nat) + match src with
    | .pin => signed 16 s.beat.trim.toNat
    | .port p => (((s.portAt p).rtt / 2 : Nat) : Int)

/-! ### The states of Plumb (R83) -/

/-- Sets or clears `drift`, and advertises it (R86). -/
def State.setDrift (s : State) (b : Bool) : State :=
  let t := s.modBeat fun x => { x with drift := b }
  if s.beat.drift = b then t else t.linkSend (.drift b)

/-- The mailbox window opens (R589). -/
def State.openWindow (s : State) : State :=
  if s.chip.phase = 4 then { s with chip := { s.chip with opened := true, phase := 5 } } else s

/-- At the first lock of a start, the persisted certificate is verified again (R477, R489). -/
def State.firstLock (s : State) : State :=
  s.changeSec fun x => match x.saved with
    | some c => if x.certFits c ∧ s.epoch ≤ c.notAfter then { x with cert := some (c, true) } else x
    | none => x

/-- An offset pass is to be made on every trained port (R90). -/
def State.passesDue (s : State) : State :=
  { s with net := { s.net with ports := s.net.ports.mapAll Port.init fun _ x => if x.up then { x with due := true } else x } }

/-- Plumb enters LOCKED on a source. -/
def State.enterLocked (s : State) (src : BeatSource) : State :=
  let t := (s.modBeat fun x => { x with
    plumb := .locked, source := some src, lastLock := x.tick, never := false, freerun := 0, err := 0, bad := 0, run := true }).passesDue
  if s.lockedOnce then t else t.firstLock

/-- RESYNC ends: the error has reached ±1 bt (R83). -/
def State.endResync (s : State) (src : BeatSource) : State := ((s.setDrift false).chipEvent).enterLocked src

/-- RESYNC ends when the error is within ±1 bt. -/
def State.checkResync (s : State) : State :=
  match s.beat.source with
  | some src => if s.beat.plumb = .resync ∧ s.beat.err.natAbs ≤ 4 ∧ s.beat.hold = false then s.endResync src else s
  | none => s

/-- Plumb's source is lost (R83). -/
def State.loseSource (s : State) : State :=
  match s.beat.plumb with
  | .locked => s.modBeat fun x => { x with plumb := .freeRun, source := none, freerun := 0, bad := 0, seen := [] }
  | .resync => s.modBeat fun x => { x with
      plumb := if x.drift then .drifting else .freeRun, source := none, freerun := 0, bad := 0, seen := [], err := 0
      fire := x.fire || x.hold, hold := false }
  | _ => s.modBeat fun x => { x with seen := [] }

/-- `resync_error_qt` (R94): the error in quarter ticks in signed 32 bits; one that does not fit has a free value. -/
def resyncError (e : Int) : W32 := if clampInt 32 e = e then BitVec.ofNat 32 (unsigned 32 e) else Config.wideError e

/-- Two markers of a new source match: the error is judged (R83). A refused resync leaves its error in the log, since it is no entry to RESYNC
(R94; DEDUCED, notes/assumptions/72.md); a source that is taken, with or without an entry to RESYNC, is a source change (R83, R94; DEDUCED,
notes/assumptions/73.md). -/
def State.judge (s : State) (src : BeatSource) (e : Int) : State :=
  if 4 * 8388608 < e then
    let t := (s.modBeat fun x => { x with plumb := .drifting, refused := true }).setDrift true
    let t := if s.beat.refused then t else t.logRec { kind := 0x0017, part := 0xFF, a := 2, b := unsigned 64 e, c := (srcNum src) - 1 }
    if s.beat.plumb = .freeRun then t.chipEvent else t
  else if s.beat.plumb = .freeRun ∧ e.natAbs ≤ 4 then
    (s.modBeat fun x => { x with switches := inc32 x.switches }).enterLocked src
  else (s.modBeat fun x => { x with plumb := .resync, switches := inc32 x.switches, source := some src, errQt := resyncError e, err := e, bad := 0, freerun := 0 }).checkResync

/-- Counts markers of the source in use that are missing or not consistent (R94). -/
def State.countFaults (s : State) (n : Nat) : State :=
  s.modBeat fun x => { x with faults := BitVec.ofNat 32 (satAdd 32 x.faults.toNat n), bad := x.bad + n }

/-- A word of the source in use in LOCKED or RESYNC: the blocks before it that brought none count as missing, and the word counts unless it is
consistent. Two in a row lose the source, and the word is then the first of a source to come (R83, R94). -/
def State.usedMarker (s : State) (src : BeatSource) (consistent : Bool) (tick : Nat) (e : Int) (lag : Nat) : State :=
  let at_ : Int := if consistent then (4 * tick : Nat) else s.beatQt - (4 * lag : Nat)
  let between := s.beat.missing src (at_ - if consistent then 4 else 4 * 20480)
  let t := s.countFaults between
  let see := fun (t : State) => t.modBeat fun x => { x with seen := x.seen.put none (srcNum src) (some tick) }
  if 2 ≤ t.beat.bad then (if consistent then see t.loseSource else t.loseSource)
  else if consistent then (see (t.modBeat fun x => { x with bad := 0, err := if x.plumb = .resync then e else 0 })).checkResync
  else
    let t := t.countFaults 1
    if 2 ≤ t.beat.bad then t.loseSource else t

/-- A word is consistent with the counter within ±1 bt (R80). In RESYNC, where the counter has an error, that is with the counter less the error as
slewed so far; while the counter holds, a word that follows the source's last good one (DESIGN CHOICE, notes/assumptions/74.md). -/
def State.consistent (s : State) (src : BeatSource) (good : Bool) (tick : Nat) (e : Int) : Bool :=
  good && match s.beat.plumb with
  | .resync => if s.beat.hold then (match s.beat.seen.get none (srcNum src) with
      | some t => decide (t < tick)
      | none => true) else decide ((e - s.beat.err).natAbs ≤ 4)
  | _ => decide (e.natAbs ≤ 4)

/-- What Plumb does with a word of a source that it listens to. A counter is loaded in whole ticks, a fraction of a tick of the beat rounded down; a
port is left for the pin at one consistent word in LOCKED and at two words in sequence in RESYNC (DESIGN CHOICE, notes/assumptions/90.md). A chip that
has refused to resynchronise rejoins only after a chip reset (R84). -/
def State.takeMarker (s : State) (src : BeatSource) (good : Bool) (tick lag : Nat) : State :=
  let prev := s.beat.seen.get none (srcNum src)
  let t := if good then s.modBeat fun x => { x with seen := x.seen.put none (srcNum src) (some tick) } else s
  let e := s.counterQt - s.beatNow src tick lag
  let chain := good && prev == some (tick - 40960) && decide (40960 ≤ tick)
  let used := s.beat.source == some src
  match s.beat.plumb with
  | .acquire =>
    if chain then ((t.modBeat fun x => { x with tick := BitVec.ofNat 64 (s.beatNow src tick lag / 4).toNat }).enterLocked src).openWindow else t
  | .locked =>
    if used then s.usedMarker src (s.consistent src good tick e) tick e lag
    else if src = .pin ∧ s.consistent src good tick e = true then
      t.modBeat fun x => { x with source := some src, switches := inc32 x.switches, bad := 0 }
    else t
  | .freeRun | .drifting => if chain ∧ s.beat.refused = false then t.judge src e else t
  | .resync =>
    if used then s.usedMarker src (s.consistent src good tick e) tick e lag
    else if chain ∧ src = .pin then
      if 4 * 8388608 < e then t.loseSource.judge src e
      else (t.modBeat fun x => { x with source := some src, switches := inc32 x.switches, err := e, bad := 0 }).checkResync
    else t

/-- The source in use goes: the markers of the blocks that have begun without a word are missing (R83, R94). -/
def State.beatSourceLoss (s : State) : State :=
  match s.beat.source with
  | some src => (s.countFaults (s.beat.missing src s.beatQt)).loseSource
  | none => s.loseSource

/-- One sample of the BEAT pair from a marker word's sync pattern as the pin reads it (R577). -/
def State.sampleBeat (s : State) (raw : BitVec 96) : State :=
  if raw.toNat / 2 ^ 80 = 0xA5C3 then s.samplePair 0 0 else if raw.toNat / 2 ^ 80 = 0x5A3C then s.samplePair 0 5 else s

/-- MARKER_WORD (R80–R83): `w` is the word that the board or the peer sends, whose block began `lag` ticks ago; `inverted` tells that the
BEAT pair reaches the pin reversed. A pair that is classified REVERSED is read inverted (R578). -/
def markerWord (src : BeatSource) (w : BitVec 96) (lag : Nat) (inverted : Bool) (s : State) : State :=
  if s.chip.phase < 4 ∨ s.chip.failed = true ∨ s.listens src = false then s
  else match src with
  | .pin =>
    let raw := if inverted then ~~~w else w
    let t := s.sampleBeat raw
    let word := if (t.pairAt 0).code = 5 then ~~~raw else raw
    t.takeMarker src (markerGood word) (markerTick word) lag
  | .port p => (s.countMsg p 0 false).takeMarker src (markerGood w) (markerTick w) lag

/-- MARKER_WORD. -/
def execMarkerWord (src : BeatSource) (w : BitVec 96) (lag : Nat) (inverted : Bool) (s : State) : Host.Outcome State Fault Refusal :=
  .next (s.live (markerWord src w lag inverted))

/-- BEAT_SOURCE_LOSS (R83): no edge of the source in use for 64 bt, or two bad markers in a row. -/
def execBeatSourceLoss (s : State) : Host.Outcome State Fault Refusal := .next (s.live State.beatSourceLoss)

/-- ACQUIRE_TIMEOUT (R83): 100 ms in ACQUIRE with no source. -/
def acquireTimeout (s : State) : State :=
  if s.beat.plumb ≠ .acquire ∨ s.chip.phase ≠ 4 ∨ s.chip.failed = true then s
  else ((s.modBeat fun x => { x with plumb := .drifting, run := true, tick := 0, never := true }).setDrift true).openWindow

/-- ACQUIRE_TIMEOUT. -/
def execAcquireTimeout (s : State) : Host.Outcome State Fault Refusal := .next (s.live acquireTimeout)

/-- FREE_RUN_EXPIRY (R83): the 1,024th frame boundary since the entry to FREE_RUN. -/
def freeRunExpiry (s : State) : State :=
  if s.beat.plumb ≠ .freeRun ∨ s.beat.freerun < 1024 then s
  else ((s.modBeat fun x => { x with plumb := .drifting }).setDrift true).chipEvent

/-- FREE_RUN_EXPIRY. -/
def execFreeRunExpiry (s : State) : Host.Outcome State Fault Refusal := .next (s.live freeRunExpiry)

/-! ### Slewing (R84) -/

/-- The error is one that slewing closes. -/
def Beat.slews (b : Beat) : Bool := b.plumb == .resync && !b.hold && decide (4 < b.err.natAbs ∧ b.err.natAbs ≤ 4 * 8192)

/-- The counter leaves a value whose bits [9:0] are 0x200 with one tick dropped or doubled (R84). -/
def slewAdjust (s : State) : State :=
  if s.beat.slews = false ∨ s.beat.tick.toNat % 1024 ≠ 0x200 then s
  else (if 0 < s.beat.err then s.modBeat fun x => { x with tick := x.tick + 1, err := x.err - 4 }
    else s.modBeat fun x => { x with tick := x.tick + 2, err := x.err + 4 }).checkResync

/-- SLEW_ADJUST. -/
def execSlewAdjust (s : State) : Host.Outcome State Fault Refusal := .next (s.live slewAdjust)

/-- What a step on an empty queue does (DESIGN CHOICE, notes/assumptions/1.md): a counter that runs moves on by one tick within its frame, with the
adjustment of R84 where one falls due. A frame boundary is crossed by FRAME_BOUNDARY alone. While the counter holds, the beat moves on by one tick
toward the held value (R84). -/
def State.idle (s : State) : State :=
  let b := s.beat
  if s.alive = false ∨ b.run = false ∨ b.fire = true then s
  else if b.hold then (if 4 ≤ b.err then s.modBeat fun b => { b with err := b.err - 4 } else s)
  else if b.slews = true ∧ b.tick.toNat % 1024 = 0x200 then slewAdjust s
  else if (b.tick.toNat + 1) % 8192 = 0 then s
  else s.modBeat fun b => { b with tick := b.tick + 1 }

/-- The values with bits [9:0] equal to 0x200 that the counter leaves on its way from `a` to `b`. -/
def slewPoints (a b : Nat) : Nat := (b + 511) / 1024 - (a + 511) / 1024

/-- The adjustments that bring the error within ±1 bt (R84). -/
def Beat.need (b : Beat) : Nat := (b.err.natAbs - 4 + 3) / 4

/-- The error after the counter has run through `n` such values. -/
def Beat.slewed (b : Beat) (n : Nat) : Int :=
  if b.slews then
    if 0 < b.err then b.err - 4 * (min n b.need : Nat) else b.err + 4 * (min n b.need : Nat)
  else b.err

/-- The counter's value after the last adjustment of a slew: the `need`-th value with bits [9:0] equal to 0x200 is left for the next one, or for the
one after it where a tick is doubled (R84). -/
def Beat.slewEnd (b : Beat) : Nat :=
  ((b.tick.toNat + 511) / 1024 + b.need - 1) * 1024 + 0x200 + if 0 < b.err then 1 else 2

end Sys2Proof.Machine
end

