-- ==== Sys2Proof/Machine/Links.lean ====
section
/-! DEFINITION. Links and peer chips: training (R592), offsets (R90), the answers of remote accesses (R203), reset notices and lost
links (R533–R535), and a peer's drift (R86). -/

namespace Sys2Proof.Machine

/-! ### What a peer answers to a write for an object (R203) -/

/-- A peer fails the write of a fence's mirror (R299). -/
def State.mirrorFails (s : State) (n a : Nat) : State := if (s.fenceAt n).mirror = some a then s.mirrorFault n a else s

/-- A peer fails the write of a pushed descriptor (R159): `prod` stays at its index, the push is not counted, and the ring halts. -/
def State.pushFails (s : State) (r : Nat) (i : W32) : State :=
  let x := s.ringAt r
  if (x.pushed.any fun e => e.1 == i) = false ∨ x.haltCode ≠ 0 then s
  else ((s.modRing r fun x => { x with
      prod := i, doorbells := x.doorbells - 1, pushed := x.pushed.filter fun e => below e.1 i
      frames := x.frames.filter fun e => !below i e.1 }).haltRing r 0x0323 i).unbindCheck r

/-- A peer fails the write of a step record (R295): the sequence, if it still is the one that wrote it, is FAILED. -/
def State.recordFails (s : State) (n pos : Nat) (baseGen : Byte) : State :=
  let q := s.seqAt n
  let t := s.recordFault ((s.ctxPart q.ctx).getD 0xFF) q.ctx
  if q.st = .failed ∨ q.st = .closing then t else t.failSeq n .faultTranslation pos baseGen false false false

/-- A peer answers a write for an object, or its node is gone: what waited for the write goes on. -/
def State.writeAnswered (s : State) (w : RemoteWrite) (ok : Bool) : State :=
  let t := ({ s with net := { s.net with writes := s.net.writes.filter fun x => x.id != w.id } } : State).freeCredit4 w.id
  match w.what with
  | .mirror n a => if ok then t else t.mirrorFails n a
  | .entry r d late started =>
    if (t.ringAt r).writing.contains d = false then t
    else if ok then t.entryWritten r d late else (t.modRing r fun x => { x with writing := x.writing.filter (· != d) }).entryFails r d started
  | .push r i => if ok then t else t.pushFails r i
  | .record n gen pos baseGen irq =>
    let q := t.seqAt n
    if q.st = .free ∨ q.gen ≠ gen then t
    else if ok then (if irq then t.indexVector ((t.ctxPart q.ctx).getD 0xFF) q.vector else t)
    else t.recordFails n pos baseGen
  | .digest p i => if ok ∨ (t.probeAt p i).armed = false then t else t.digestLost p i

/-! ### What a peer's reset ends (R315, R316, R534) -/

/-- The tiles in flight to a node. -/
def State.remoteTiles (s : State) (node : Nat) : List (Nat × TileRun) :=
  s.xl.tiles.filterMap fun e => match e.2 with
    | some x => if x.st = .moving ∧ x.desc.node = node ∧ node ≠ s.ownNode then some (e.1, x) else none
    | none => none

/-- An access that goes to a node. -/
def LinkMsg.goesTo (node : Nat) : LinkMsg → Bool
  | .access _ n _ _ _ _ _ _ _ _ => n == node
  | _ => false

/-- Ends the accesses in flight to a node, and those that wait at a port for it, with PEER_RESET. -/
def State.endAccesses (s : State) (node : Nat) : State :=
  let t := { s with out := { s.out with ports := s.out.ports.mapAll PortOut.init fun _ x => { x with wait := x.wait.filter fun w => !w.msg.goesTo node } } }
  let t := (s.remoteTiles node).foldl (fun t e => t.endTileWith e.1 e.2.req ⟨.peerReset, 0, 0⟩) t
  (s.net.writes.filter fun w => w.node == node).foldl (fun t w => t.writeAnswered w false) t

/-- The PROXY fences whose source is on a node are ABANDONED (R315). -/
def State.abandonProxies (s : State) (node : Nat) : State :=
  ((s.fen.fence.filter fun e => e.2.kind == .proxy && (e.2.src.map Source.node) == some node).map Prod.fst).foldl State.abandonOne s

/-- The subscriptions of a chip are dropped with what is still owed to it, and the exports stay (R316). -/
def State.dropSubs (s : State) (node : Nat) : State :=
  { s with fen := { s.fen with owed := s.fen.owed.filter fun x => x.1 != node, fence := s.fen.fence.mapAll Fence.init fun _ f => { f with
      exports_ := f.exports_.map fun e => { e with subs := e.subs.filter fun x => x.1 != node } } } }

/-- The exporter sends the current values to a chip whose incarnation is unchanged (R315): of a source that is ABANDONED, or that was freed or
withdrawn while the path was down, its abandonment. -/
def State.sendValues (s : State) (node : Nat) : State :=
  let late := s.fen.owed.filter fun x => x.1 == node
  let s := late.foldl (fun t x => t.linkSend (.abandon x.1 x.2))
    { s with fen := { s.fen with owed := s.fen.owed.filter fun x => x.1 != node } }
  s.fen.fence.foldl (fun t e => ((e.2.exports_.flatMap fun x => x.subs).filter fun x => x.1 == node).foldl
    (fun t x => t.linkSend (if e.2.st = .abandoned then .abandon node x.2 else .update node x.2 e.2.value)) t) s

/-- The imports that wait for a node end with PEER_RESET: the path is down, or the chip has reset (R314, R316). -/
def State.endImports (s : State) (node : Nat) : State :=
  (s.fen.imports.filter fun w => w.src.node == node).foldl (fun t w => (t.endImport w).finish w.ref .peerReset 0 0 0) s

/-! ### Ports -/

/-- The incarnation is written, and ports may train (R532, R583). -/
def State.landed (s : State) : Bool := s.log.flash == s.log.inc

/-- A port whose link has gone; a beat recovered from it is lost (R534). -/
def State.dropPort (s : State) (p : Nat) : State :=
  let t := s.modPort p fun x => { x with up := false, valid := false, due := false }
  if s.beat.source = some (.port p) then t.beatSourceLoss else t

/-- LINK_TRAINED (R532, R535, R592): the port runs at the lower level of the two chips, at 2 or above. -/
def linkTrained (p : Nat) (r : TrainReport) (s : State) : State :=
  if 18 ≤ p ∨ s.landed = false ∨ s.coreStopped 6 = true ∨ s.chip.phase < 3 then s
  else if r.level < 2 then (s.modPort p fun x => { x with up := false }).chipEvent
  else
    let same := s.net.ports.any fun e => e.2.node == r.node && e.2.inc == r.incarnation
    let t := s.modPort p fun _ => ⟨true, r.node, r.incarnation, decide (r.level = 2), r.plumb, r.pin, r.drift, false, 0, 0, true⟩
    let t := { t with net := { t.net with reset := t.net.reset.drop r.node, gone := t.net.gone.drop r.node } }
    let t := if same then t.sendValues r.node else ((t.abandonProxies r.node).dropSubs r.node).endImports r.node
    if t.beat.drift then t.linkSend (.drift true) else t

/-- LINK_TRAINED. -/
def execLinkTrained (p : Nat) (r : TrainReport) (s : State) : Host.Outcome State Fault Refusal := .next (s.live (linkTrained p r))

/-- The round trip of an exchange. -/
def roundTrip (x : Exchange) : Int := (x.t4 - x.t1) - (x.t3 - x.t2)

/-- OFFSET_PASS (R90): a pass that is due, of 16 exchanges, of which the one with the least round trip counts. -/
def offsetPass (p : Nat) (l : List Exchange) (s : State) : State :=
  match argMin roundTrip l with
  | none => s
  | some x =>
    if l.length ≠ 16 ∨ (s.portAt p).up = false ∨ (s.portAt p).due = false ∨ s.coreStopped 6 = true then s
    else
      let off := ((x.t2 - x.t1) - (x.t4 - x.t3)) / 2
      let t := s.modPort p fun y => { y with due := false, valid := true, offset := clampInt 16 off, rtt := min (roundTrip x).toNat 65535 }
      let t := ({ t with net := { t.net with measured := t.beat.tick } } : State).offsetPacket p
      if 8 < off.natAbs then (t.logRec { kind := 0x0017, part := 0xFF, place := p, a := 3, b := unsigned 64 off, c := p }).chipEvent else t

/-- OFFSET_PASS. -/
def execOffsetPass (p : Nat) (l : List Exchange) (s : State) : Host.Outcome State Fault Refusal := .next (s.live (offsetPass p l))

/-- PEER_DRIFT_ADVERTISEMENT (R81, R86): what a peer advertises. A peer that is no longer locked on its own pin is no source: Plumb, if it is on that
port, has lost it. -/
def peerDrift (p : Nat) (plumb : PlumbReport) (drift : Bool) (s : State) : State :=
  if (s.portAt p).up = false then s
  else
    let t := (s.countMsg p 7 false).modPort p fun x => { x with plumb := plumb.state % 8, pin := plumb.pin, drift := drift }
    if s.beat.source = some (.port p) ∧ t.portQualifies p = false then t.beatSourceLoss else t

/-- PEER_DRIFT_ADVERTISEMENT. -/
def execPeerDriftAdvertisement (p : Nat) (plumb : PlumbReport) (drift : Bool) (s : State) : Host.Outcome State Fault Refusal :=
  .next (s.live (peerDrift p plumb drift))

/-- The bytes of a tile's first remote page that is still to be answered, and whose counts they are. -/
def State.remoteBytes (s : State) (x : TileRun) : Nat × Nat :=
  match s.named x.req, x.left with
  | .span y, n :: _ => (tileCtx x.req y, y.bytesOn x.desc n)
  | _, _ => (x.ctx, 0)

/-- A peer refuses or fails a tile's access, with the `lost_reason` that its gate gives (R515). A read of a poisoned shared line by a row or the batch
ends the step (R375). -/
def State.remoteFail (s : State) (id : Nat) (x : TileRun) (a : PeerAnswer) : State :=
  if a.status = .poisoned ∧ x.req.write = false ∧ x.req.tag ≠ .work ∧ tweakKind (segTweak x.part x.seg) = 1 then
    (s.retryStep x.req.engine).zeroTile id x.req 0 .poisoned
  else s.endTileWith id x.req ⟨a.status, a.reason, 0⟩

/-- LINK_RESPONSE (R203): the peer accepted a write or returns a read's data, which counts at the port, or it refused the access: a read then returns
zeros (R246). -/
def linkResponse (p id : Nat) (a : PeerAnswer) (s : State) : State :=
  if (s.portAt p).up = false then s
  else match s.net.writes.find? fun w => w.id == id with
  | some w => s.writeAnswered w (a.status == .ok)
  | none => match s.xl.tiles.get none id with
    | none => s
    | some x =>
      if x.st ≠ .moving ∨ x.left = [] then s
      else if a.status ≠ .ok then s.remoteFail id x a
      else
        let n := s.remoteBytes x
        let t := if x.req.write then s else s.countLink x.part n.1 p n.2 false
        (if x.left.length ≤ 1 then t.dropTile id else t.putTile id { x with left := x.left.drop 1 }).freeCredit4 id

/-- LINK_RESPONSE. -/
def execLinkResponse (p id : Nat) (a : PeerAnswer) (s : State) : Host.Outcome State Fault Refusal := .next (s.live (linkResponse p id a))

/-! ### Peer reset and lost links (R533–R535) -/

/-- RESET_NOTICE (R533, R534): forwarded once for each incarnation of the node, the node is marked RESET, and what met it ends. -/
def resetNotice (p node : Nat) (inc : W32) (s : State) : State :=
  if (s.portAt p).up = false ∨ node = s.ownNode ∨ s.net.reset.get none node = some inc then s
  else
    let ended := (s.remoteTiles node).length
    let t := (List.range 18).foldl (fun t q => if q ≠ p ∧ (t.portAt q).up = true then t.linkSend (.resetNotice q node inc) else t) (s.countMsg p 6 false)
    let t := (List.range 18).foldl (fun t q => if (t.portAt q).up = true ∧ (t.portAt q).node = node then t.dropPort q else t) t
    let t := { t with net := { t.net with reset := t.net.reset.put none node (some inc) } }
    let t := (((t.endAccesses node).abandonProxies node).dropSubs node).endImports node
    t.logRec { kind := 0x0007, part := 0xFF, place := p, a := node, b := inc.toNat, c := ended }

/-- RESET_NOTICE. -/
def execResetNotice (p node : Nat) (inc : W32) (s : State) : Host.Outcome State Fault Refusal := .next (s.live (resetNotice p node inc))

/-- An access that a link carried is over with PEER_RESET: a tile's or a write of Lendor's own. -/
def State.endAccess (s : State) (id : Nat) : State :=
  match s.net.writes.find? fun w => w.id == id with
  | some w => s.writeAnswered w false
  | none => match s.xl.tiles.get none id with
    | some x => s.endTileWith id x.req ⟨.peerReset, 0, 0⟩
    | none => s

/-- The accesses that went out by a port or wait at it end with PEER_RESET (R535). -/
def State.endPort (s : State) (p : Nat) : State :=
  let x := s.out.ports.get PortOut.init p
  let ids := (x.open_.map Prod.snd ++ x.wait.filterMap fun w => w.msg.id).eraseDups
  ids.foldl State.endAccess { s with out := { s.out with ports := s.out.ports.put PortOut.init p { x with wait := [], open_ := [] } } }

/-- LINK_DOWN (R535): the link's outstanding accesses end; where no other link to the node is left, the node cannot be reached, and its PROXY fences
keep their values. -/
def linkDown (p : Nat) (s : State) : State :=
  let x := s.portAt p
  if x.up = false then s
  else
    let t := (s.dropPort p).endPort p
    if t.net.ports.any fun e => e.2.up && e.2.node == x.node then t
    else ({ t with net := { t.net with gone := t.net.gone.put none x.node (some 0) } } : State).endImports x.node

/-- LINK_DOWN. -/
def execLinkDown (p : Nat) (s : State) : Host.Outcome State Fault Refusal := .next (s.live (linkDown p))

/-- PEER_UNREACHABLE_EXPIRY (R535): 64 frame boundaries with the node unreachable. -/
def peerUnreachableExpiry (node : Nat) (s : State) : State :=
  match s.net.gone.get none node with
  | some n => if n < 64 then s else ({ s with net := { s.net with gone := s.net.gone.drop node } } : State).abandonProxies node
  | none => s

/-- PEER_UNREACHABLE_EXPIRY. -/
def execPeerUnreachableExpiry (node : Nat) (s : State) : Host.Outcome State Fault Refusal := .next (s.live (peerUnreachableExpiry node))

end Sys2Proof.Machine
end

