-- ==== Sys2Proof/Machine/Flags.lean ====
section
/-! DEFINITION. What the registers and pages of Lendor read: the identification page, the mailbox pages, the telemetry window and the
cards. -/

namespace Sys2Proof.Machine

/-! ### The board registers (R573–R576) -/

/-- BOARD_BEAT_TRACE (R573). -/
def State.beatTraceReg (s : State) : Nat :=
  pack ([(3, (s.pairAt 0).code), (5, 0)] ++ ((List.range 4).map fun l => (3, (s.pairAt (1 + l)).code)) ++ [(4, s.usableLanes.toNat), (8, 0)])

/-- SENSE_FAULT (R574). -/
def State.senseReg (s : State) : Nat := pack ((List.range 8).map fun p => (3, (s.pairAt (5 + p)).code))

/-- DIODE_FAULT (R575). -/
def State.diodeReg (s : State) : Nat := pack (((List.range 4).map fun d => (3, (s.pairAt (13 + d)).code)) ++ [(1, bit s.board.onDie)])

/-- BOARD_MISC (R576). -/
def State.boardMisc (s : State) : Nat :=
  pack [(2, s.board.record), (1, bit s.board.flash), (1, bit s.board.active), (7, if s.board.active then s.board.addr.toNat else 0)]

/-! ### The identification page -/

/-- PWR_STATUS (R444). -/
def State.pwrStatus (s : State) : Nat :=
  pack [(1, bit s.out.low), (1, bit s.pwr.avsFault), (1, bit s.pwr.throttle), (1, bit s.pwr.trip),
    (4, (maskOf 4 ((List.range 4).filter fun f => (s.capoAt f).fixed)).toNat), (9, s.pwr.scale)]

/-- CAPO_n (R448). -/
def State.capoReg (s : State) (f : Nat) : Nat :=
  let c := s.capoAt f
  pack [(16, c.detections), (7, c.masked.length), (1, 0), (1, bit (c.fixed || (fieldEngines f).any fun e => s.pwr.keep.get 16 e != 16))]

/-- The code of the root as the start took it (R451, R483). -/
def rootCode : Root → Nat
  | .absent => 0
  | .valid _ => 1
  | .destroyed => 2
  | .bad => 3

/-- SEC_STATE (R483). -/
def State.secState (s : State) : Nat :=
  pack [(3, lcCode s.sec.lc), (1, bit s.sec.run.isSome), (1, bit s.sec.resumed), (2, rootCode s.sec.root), (1, bit s.sec.testRoot),
    (1, bit s.sec.signed), (1, bit s.sec.saved.isSome), (6, s.sec.rev), (10, (s.sec.slots.filter fun e => e.2.loaded).length)]

/-- DBG_RIGHTS (R484). -/
def State.dbgRights (s : State) : Nat :=
  pack [(8, s.rights.toNat), (2, s.level), (1, match s.sec.cert with
    | some (c, true) => bit (s.sec.certFits c)
    | _ => 0), (1, bit s.sec.grant.isSome), (1, bit s.sec.challenge.isSome)]

/-- START_STATE (R590). -/
def State.startState (s : State) : Nat :=
  pack [(3, s.chip.phase), (1, bit s.chip.failed), (2, s.chip.attempts), (2, 0), (8, s.chip.failUnit), (16, min s.chip.startMs 65535)]

/-- The mask of a field's engines that run in compatibility mode (R417). -/
def State.compatMask (s : State) (f : Nat) : Nat :=
  (maskOf 32 ((List.range 32).filter fun i => (s.engAt (32 * f + i)).compat)).toNat

/-- A register of the identification page. -/
def State.idReg (s : State) (o : Nat) : Nat :=
  match o with
  | 0x00 => pack [(16, 0x4C4E), (8, 4), (8, s.chip.stepping.toNat)]
  | 0x04 => pack [(4, s.chip.fieldOk.toNat), (2, s.chip.site.toNat), (1, bit s.chip.islandOk), (1, 0), (8, 0x20)]
  | 0x40 => s.beat.tick.toNat % 2 ^ 32
  | 0x48 => s.beat.stateReg
  | 0x80 => s.pwrStatus
  | 0x84 => s.pwr.coreDw
  | 0x88 => pack [(11, unsigned 11 s.pwr.tMax), (2, s.pwr.diode)]
  | 0x8C => pack [(16, s.chip.pjFast), (16, s.chip.pjSlow)]
  | 0xA0 => s.secState
  | 0xA4 => s.dbgRights
  | 0xC0 => s.beatTraceReg
  | 0xC4 => s.senseReg
  | 0xC8 => s.diodeReg
  | 0xCC => s.boardMisc
  | 0xD0 => s.startState
  | _ =>
    if 0x60 ≤ o ∧ o < 0x70 then s.coh.cap.toNat / 2 ^ (8 * (o - 0x60)) % 2 ^ 32
    else if 0x70 ≤ o ∧ o < 0x80 then s.compatMask ((o - 0x70) / 4)
    else if 0x90 ≤ o ∧ o < 0xA0 then s.capoReg ((o - 0x90) / 4)
    else if 0xB0 ≤ o ∧ o < 0xC0 then s.chip.serial.toNat / 2 ^ (8 * (o - 0xB0)) % 2 ^ 32
    else 0

/-- The identification page for a requester, whose TICK_HI was latched by its last read of TICK_LO (R91, R92). -/
def State.idPage (s : State) (requester o : Nat) : Nat := if o = 0x44 then (s.beat.tickHi.get 0 requester).toNat else s.idReg o

/-! ### Mailbox pages (R52–R60, R66) -/

/-- The code of a slot state (R55). -/
def slotCode : SlotState → Nat
  | .free => 0
  | .submitted => 1
  | .running => 2
  | .parked => 3
  | .done => 4

/-- The `vector` that MB_CTRL shows (R52). -/
def State.shownVector (s : State) : Mailbox → Nat
  | .manager => 0
  | .security => 1
  | .debug => 2
  | m => (s.mbAt m).vector.toNat

/-- A response area as one number: the header of R66 and the inline payload. -/
def Resp.bytes (r : Resp) : Nat :=
  pack [(16, r.opcode.toNat), (8, statusCode r.status), (8, r.session.toNat), (32, r.tag.toNat), (16, r.payloadLen.toNat),
    (16, r.detail.toNat), (32, r.doneFrame.toNat), (1408, r.payload.toNat)]

/-- A 32-bit word of a mailbox page. -/
def State.mailboxPage (s : State) (m : Mailbox) (o : Nat) : Nat :=
  let b := s.mbAt m
  let slot := b.slotAt ((o - 0x200) / 0x1C0)
  let at_ := (o - 0x200) % 0x1C0
  if 0x1000 ≤ o ∨ o % 4 ≠ 0 then 0
  else if 0x200 ≤ o then
    if at_ < 0x100 then slot.area.toNat / 2 ^ (8 * at_) % 2 ^ 32 else slot.resp.bytes / 2 ^ (8 * (at_ - 0x100)) % 2 ^ 32
  else match o with
    | 0x00 => pack [(1, bit b.irqEn), (15, 0), (12, s.shownVector m)]
    | 0x08 => pack ((List.range 8).map fun n => (3, slotCode (b.slotAt n).st))
    | 0x0C => b.done.toNat
    | 0x10 => pack [(1, bit b.badSubmit), (1, bit b.dropped), (1, bit b.badVector), (1, bit b.ended)]
    | 0x14 => if b.open_ then pack [(8, b.minor.toNat), (8, 3), (1, 1)] else 0
    | 0x18 => b.session.toNat
    | 0x1C => s.beat.heartbeat.toNat
    | _ => 0

/-! ### The telemetry window (R550–R554) and the cards (R128) -/

/-- The 64-byte head of a telemetry page. -/
def Snapshot.head (x : Snapshot) (part gen : Nat) (rights : Bool) : List (Nat × Nat) :=
  [(32, x.seq.toNat), (8, part), (8, gen), (1, bit rights), (15, 0), (64, x.tick.toNat), (32, x.tick.toNat / 8192), (352, 0)]

/-- A context window as it is shown (R553): CTX_WIN_SEL reads the value in effect (R119), CTX_WIN_CTL the last value written (R14). -/
def Win.fields (w : Win) : List (Nat × Nat) :=
  let ctl := match w.next with
    | some x => x.2
    | none => (w.enable, w.expect)
  [(16, w.sel), (16, 0), (1, bit ctl.1), (7, 0), (8, ctl.2), (16, 0), (16, w.shown), (8, w.gen.toNat), (1, bit w.valid), (7, 0), (32, 0),
   (64, w.engineNs), (64, w.admissions)] ++ ((List.range 24).map fun i => (64, w.bytes.getD i 0)) ++ [(256, 0)]

/-- The telemetry page of a partition (R552). Before the first snapshot that holds the partition its fields read their reset values: `part` n, and the
windows what software wrote. -/
def State.partPage (s : State) (p : Nat) : Nat :=
  let x := s.watch.snap
  let wins := (List.range 8).flatMap fun w => (s.watch.win.get Win.init (p * 8 + w)).fields
  if (s.partAt p).st = .free then 0
  else match x.gens.find? fun e => e.1 == p with
    | none => pack ([(32, 0), (8, p), (472, 0), (1536, 0), (2880, 0), (1216, 0)] ++ wins)
    | some e => pack (x.head p e.2.toNat false ++ ((List.range 24).map fun i => (64, x.pbytes.get 0 (p * 24 + i))) ++
        ((List.range 45).map fun j => (64, x.ops.get 0 (p * 45 + j))) ++ [(1216, 0)] ++ wins)

/-- The global page (R554). -/
def State.globalPage (s : State) : Nat :=
  let x := s.watch.snap
  pack (x.head 0xFF 0 x.rights ++ (List.range 72).map fun i => (64, if x.rights then x.glob.get 0 i else 0))

/-- A 32-bit word of the telemetry window. -/
def State.telemetry (s : State) (o : Nat) : Nat :=
  let page := o / 4096
  let image := if page < 64 then s.partPage page else if page = 64 then s.globalPage else 0
  image / 2 ^ (8 * (o % 4096)) % 2 ^ 32

/-- What a host read of BAR 4 returns (R13, R128, R130): the card of a FREE partition, and of one whose first card is still to be written, shows its
format, number and generation. -/
def State.cardWord (s : State) (p width o : Nat) : Nat :=
  let x := s.partAt p
  let image := if x.st = .free ∨ x.card = 0 then pack [(16, 1), (8, p), (8, x.gen.toNat)] else x.card
  if s.alive = false ∨ s.out.low = true ∨ s.chip.opened = false ∨ 64 ≤ p ∨ width ≠ 32 ∨ o % 4 ≠ 0 then 0 else image / 2 ^ (8 * o) % 2 ^ 32

/-- What a host read of BAR 0 returns (R13, R49, R550, R589, R590): 0 for every width but 32 bits. -/
def State.readWindow (s : State) (requester width o : Nat) : Nat :=
  if s.alive = false ∨ s.out.low = true ∨ width ≠ 32 ∨ o % 4 ≠ 0 ∨ (s.chip.opened = false ∧ s.chip.secOnly = false) then 0
  else if o < 4096 then s.idPage requester o
  else if s.chip.opened = false ∧ o / 4096 ≠ 66 then 0
  else if 0x100000 ≤ o then s.telemetry (o - 0x100000)
  else match pageMailbox (o / 4096) with
    | some m => s.mailboxPage m (o % 4096)
    | none => 0

end Sys2Proof.Machine
end

