-- ==== Sys2Proof/Machine/BoardPins.lean ====
section
/-! DEFINITION. The board side: BOARD_STATUS (R584), board management over I3C (R581, R582) and the TAP (R474, R490–R493), of
20_board_boundary and 16_state_combinations. -/

namespace Sys2Proof.Machine

/-! ### BOARD_STATUS (R584) -/

/-- The last reading of a diode: 0 when it is faulted. -/
def State.diodeShown (s : State) (d : Nat) : Int :=
  let code := (s.pairAt (13 + d)).code
  if code = 0 ∨ code = 5 then s.board.diode.get 0 d else 0

/-- BOARD_STATUS. -/
def runBoardStatus (c : Cmd) (s : State) : State :=
  let b := s.board
  s.answer s c ([(32, s.beatTraceReg), (32, s.senseReg), (32, s.diodeReg), (32, s.boardMisc), (32, b.changes.toNat), (32, b.stuck.toNat),
    (64, b.changed.toNat)] ++ ((List.range 8).map fun p => sat 16 (b.sense.get 0 p)) ++
    ((List.range 4).map fun d => (16, unsigned 16 (s.diodeShown d))) ++ [(64, 0)])

/-- BOARD_STATUS. -/
def execBoardStatus (k : Take) (s : State) : Host.Outcome State Fault Refusal := .next (s.live (hawk 0x1101 anyCmd k runBoardStatus))

/-! ### I3C (R581, R582) -/

/-- Changes the board side. -/
def State.modBoard (s : State) (f : Board → Board) : State := { s with board := f s.board }

/-- SDA_STUCK (R582). -/
def execSdaStuck (s : State) : Host.Outcome State Fault Refusal :=
  .next (s.live fun s => s.modBoard fun b => { b with active := false, addr := 0, stuck := inc32 b.stuck })

/-- ENTDAA (R581). -/
def execEntdaa (addr : BitVec 7) (s : State) : Host.Outcome State Fault Refusal :=
  .next (s.live fun s => s.modBoard fun b => { b with active := true, addr := addr })

/-- SETDASA (R581): only when the board record gives a static address. -/
def execSetdasa (s : State) : Host.Outcome State Fault Refusal :=
  .next (s.live fun s => s.modBoard fun b => if b.static_ = 0 then b else { b with active := true, addr := b.static_ })

/-- MCTP_CONTROL (R581): nothing over I3C changes Lendor's state. -/
def execMctpControl (s : State) : Host.Outcome State Fault Refusal := .next s

/-- GET_PDR (R581): the descriptors of the sensors; nothing changes. -/
def execGetPdr (s : State) : Host.Outcome State Fault Refusal := .next s

/-- SET_EVENT_RECEIVER (R581): nothing of Lendor's state changes. -/
def execSetEventReceiver (s : State) : Host.Outcome State Fault Refusal := .next s

/-- A numeric sensor's reading (R581): diodes 0–3, sense voltages 4–11, W_core 12, T_max 13 (DESIGN CHOICE, notes/assumptions/40.md). -/
def State.numericSensor (s : State) (n : Nat) : Option Nat :=
  if n < 4 then some (unsigned 16 (s.diodeShown n))
  else if n < 12 then some (s.board.sense.get 0 (n - 4))
  else if n = 12 then some s.pwr.coreDw
  else if n = 13 then some (unsigned 16 s.pwr.tMax)
  else none

/-- A state sensor's reading (R581): the code of pair n at 14 + n, and Plumb's state at 31. -/
def State.stateSensor (s : State) (n : Nat) : Option Nat :=
  if 14 ≤ n ∧ n < 31 then some (s.pairAt (n - 14)).code else if n = 31 then some (plumbCode s.beat.plumb) else none

/-- What the I3C target returns: a sensor and its reading. -/
def State.i3cReply (s : State) (n : Nat) (v : Option Nat) : State :=
  match v with
  | some x => if s.board.active then { s with out := { s.out with pldm := s.out.pldm ++ [(n, x)] } } else s
  | none => s

/-- GET_SENSOR_READING (R581). -/
def execGetSensorReading (n : Nat) (s : State) : Host.Outcome State Fault Refusal := .next (s.live fun s => s.i3cReply n (s.numericSensor n))

/-- GET_STATE_SENSOR_READINGS (R581). -/
def execGetStateSensorReadings (n : Nat) (s : State) : Host.Outcome State Fault Refusal :=
  .next (s.live fun s => s.i3cReply n (s.stateSensor n))

/-! ### The TAP (R474, R490–R493) -/

/-- The TAP is reached while the part has power and no chip reset is due; a scan stops Lendor's clocks and not the TAP (R491). -/
def State.tapOn (s : State) : Bool := s.chip.powered && s.chip.pending.isNone

/-- Loads a TAP instruction: leaving INTEST or internal scan causes a chip reset (R491). -/
def State.loadTap (s : State) (ir : TapIr) (f : State → State) : State :=
  if s.tapOn then
    let t := s.leaveScan ir
    if t.tapOn then f t else t
  else s

/-- Shifts a word out of the TAP. -/
def State.shiftOut (s : State) (v : Nat) : State := { s with out := { s.out with tdo := s.out.tdo ++ [v] } }

/-- Shifts out what the spec leaves open. -/
def State.shiftOpen (s : State) : State := ({ s with free := s.free + 1 } : State).shiftOut (Config.scanOut s.free).toNat

/-- BYPASS (R474): one bit of delay, which captures 0. -/
def execBypass (s : State) : Host.Outcome State Fault Refusal := .next (s.loadTap .bypass fun s => s.shiftOut 0)

/-- IDCODE (R474). -/
def execIdcode (s : State) : Host.Outcome State Fault Refusal := .next (s.loadTap .idcode fun s => s.shiftOut Config.idcode.toNat)

/-- SAMPLE_PRELOAD (R474): the boundary cells, without effect on Lendor. -/
def execSamplePreload (s : State) : Host.Outcome State Fault Refusal := .next (s.loadTap .sample State.shiftOpen)

/-- The TAP reaches mailbox page 67 where the window is open, and in SCRAP (R490, R494). -/
def State.tapPage (s : State) : Bool := s.mbOpen .debug || (s.chip.secOnly && s.sec.lc == .scrap)

/-- A write of the TAP to mailbox page 67. -/
def State.tapWrite (s : State) (o : Nat) (v : W32) : State :=
  let t := writeWindow (67 * 4096 + o) v { s with chip := { s.chip with opened := true } }
  { t with chip := s.chip }

/-- MBX_ACCESS (R474): a 32-bit access to mailbox page 67. -/
def mbxAccess (write : Bool) (o : Nat) (v : W32) (s : State) : State :=
  if s.tapPage = false ∨ 4096 ≤ o then (if write then s else s.shiftOut 0)
  else if write then s.tapWrite o v
  else s.shiftOut (s.mailboxPage .debug o)

/-- MBX_ACCESS. -/
def execMbxAccess (write : Bool) (offset : Nat) (v : W32) (s : State) : Host.Outcome State Fault Refusal :=
  .next (s.loadTap .mbxAccess (mbxAccess write offset v))

/-- Every partition is FREE. -/
def State.allPartsFree (s : State) : Bool := parts.all fun p => (s.partAt p).st == .free

/-- EXTEST, INTEST and internal scan serve: SCAN is in effect, the state is not SCRAP and every partition is FREE (R490). -/
def State.scanServes (s : State) : Bool := s.hasRight 6 && s.sec.lc != .scrap && s.allPartsFree

/-- A TAP instruction that its cell refuses loads BYPASS in its place (R490). -/
def State.scanTap (s : State) (ir : TapIr) (f : State → State) : State :=
  if s.scanServes then s.loadTap ir f else s.loadTap .bypass fun s => s.shiftOut 0

/-- Lendor's clocks stop (R491). -/
def State.stopClocks (s : State) : State := ({ s with chip := { s.chip with stopped := true } } : State).shiftOpen

/-- EXTEST (R490). -/
def execExtest (s : State) : Host.Outcome State Fault Refusal := .next (s.scanTap .extest State.shiftOpen)

/-- INTEST (R491): the clocks stop until the TAP leaves the instruction, and then the chip is reset. -/
def execIntest (s : State) : Host.Outcome State Fault Refusal := .next (s.scanTap .intest State.stopClocks)

/-- INTERNAL_SCAN (R491). -/
def execInternalScan (s : State) : Host.Outcome State Fault Refusal := .next (s.scanTap .scan State.stopClocks)

/-- TAP_RESET: Test-Logic-Reset selects IDCODE (R570; PRESUMED, notes/assumptions/34.md). -/
def execTapReset (s : State) : Host.Outcome State Fault Refusal := .next (s.loadTap .idcode id)

/-- MEM_ACCESS serves: the FULL level, in BLANK, FAB_TEST or ANALYSIS (R490, R493). -/
def State.memServes (s : State) : Bool := s.level == 3 && s.sec.testRoot

/-- Counts a refusal of an outside master at step 2 of R361 (R385). -/
def State.blockAccess (s : State) (a : Nat) : State :=
  match s.rangeSpan a with
  | some r => s.modRange r fun x => { x with blocked := inc32 x.blocked }
  | none => { s with mem := { s.mem with blocked := inc32 s.mem.blocked } }

/-- The code of a line's state in its tag word (R365). -/
def lineCode : LineSt → Nat
  | .valid => 0
  | .poisoned => 1
  | .shared => 2
  | .clear => 3

/-- The tag word of a line (R365). -/
def Line.tagWord (v : Line) : List (Nat × Nat) := [(44, v.mac), (2, v.gen), (16, v.wcount), (2, lineCode v.st)]

/-- The first of the 16 data lines whose tag words a line stores: one of the tag extent of a range that Lendor has cleared. -/
def State.taggedBy (s : State) (l : Nat) : Option Nat :=
  (s.mem.extents.find? fun x => decide (x.1 + x.2 ≤ l * 128 ∧ l * 128 < x.1 + x.2 + x.2 / 16)).map fun x =>
    x.1 / 128 + 16 * (l - (x.1 + x.2) / 128)

/-- The stored bytes of a line of unowned memory (R493): what was written there last, scrambled or raw; in the tag extent of a range that is gone its tag words
(R384); or bytes that nothing has written and the spec does not give, which then stay. -/
def State.rawLine (s : State) (l : Nat) : State × LineData :=
  let x := s.lineAt l
  match x.bytes, s.taggedBy l with
  | some b, _ => (s, b)
  | none, some first => (s, BitVec.ofNat 1024 (pack ((List.range 16).flatMap fun i => (s.lineAt (first + i)).tagWord)))
  | none, none =>
    let d := Config.dramBytes s.free
    (({ s with free := s.free + 1 } : State).putLine l { x with kept := .raw, data := d }, d)

/-- MEM_ACCESS (R493): steps 1 and 2 of R361, then the stored bytes as they are. -/
def memAccess (a : Nat) (write : Bool) (v : W32) (s : State) : State :=
  if a % 4 ≠ 0 ∨ localTier a = none then (if write then s else s.shiftOut 0)
  else if (s.rangeSpan a).isSome ∨ inControl a = true ∨ inDump a = true then
    let t := s.blockAccess a
    if write then t else t.shiftOut 0
  else
    let at_ := 8 * (a % 128)
    let (t, d) := s.rawLine (a / 128)
    if write then
      let new : LineData := (d &&& ~~~((0xFFFFFFFF#1024) <<< at_)) ||| ((v.setWidth 1024) <<< at_)
      t.putLine (a / 128) { t.lineAt (a / 128) with kept := .raw, data := new }
    else t.shiftOut (d.toNat / 2 ^ at_ % 2 ^ 32)

/-- MEM_ACCESS. -/
def execMemAccess (a : Nat) (write : Bool) (v : W32) (s : State) : Host.Outcome State Fault Refusal :=
  .next (if s.memServes then s.loadTap .memAccess (memAccess a write v) else s.loadTap .bypass fun s => s.shiftOut 0)

end Sys2Proof.Machine
end

