-- ==== Sys2Proof/Machine/Boundary.lean ====
section
/-! DEFINITION. What falls on beat boundaries (R89): FRAME_BOUNDARY, THERMAL_WINDOW_CLOSE, EPOCH_BOUNDARY, and HOLD_RELEASE (R84, R85), of
03_beat_and_frames. -/

namespace Sys2Proof.Machine

/-! ### The frame that closes -/

/-- The partitions that exist. -/
def State.heldParts (s : State) : List Nat := parts.filter fun p => (s.partAt p).st != .free

/-- Adds to the figure of the power state that a partition spent the frame in (R130, `state_frames`). -/
def Tally.inState (t : Tally) : Nat → Tally
  | 0 => { t with l0 := satAdd 16 t.l0 1 }
  | 1 => { t with l1 := satAdd 16 t.l1 1 }
  | 2 => { t with l2 := satAdd 16 t.l2 1 }
  | _ => { t with l3 := satAdd 16 t.l3 1 }

/-- An engine on which a batch of a partition ran in the frame, also one that drains (R111, R130). -/
def Engine.worked (e : Engine) (p : Nat) : Bool :=
  e.ran == some p || match e.running with
    | some (.batch b) => b.part == p
    | _ => false

/-- The card figures of a partition for the frame that closes (R130). -/
def State.tallyFrame (s : State) (env : FrameEnv) (p : Nat) : State :=
  let engines := bitsOf (s.partAt p).record.engines
  let busy := (s.eng.filter fun e => e.2.worked p).length
  let ticks := s.stretchTicks p ((env.stretchTicks.filter fun x => x.1 == p).map Prod.snd).sum
  s.modPart p fun x =>
    let t := x.tally.inState (powCode (s.powAt p).st)
    { x with tally := { t with held := t.held + engines.length, busy := t.busy + busy, stretch := satAdd 32 t.stretch ticks } }

/-- Condition 2 of R187 in window frames 32 to 63: a partition that has no engine in service in a field now is noted. -/
def State.noteEngines (s : State) : State :=
  if s.org.winStep = 1 then
    { s with org := { s.org with fewEng := s.liveParts.foldl (fun (t : Tab Bool) p => [0, 1, 2, 3].foldl (fun t f =>
        if s.noEngine p f then t.put false (p * 4 + f) true else t) t) s.org.fewEng } }
  else s

/-- Closes the frame for cards, for condition 2 of R187 and for the events that go out at most once a frame (R283, R341, R350). -/
def State.closeFrame (s : State) (env : FrameEnv) : State :=
  let t := (s.heldParts.foldl (fun t p => t.tallyFrame env p) s.noteEngines)
  { t with
    org := { t.org with resEvt := [], faultEvt := [], hotEvt := [] }
    eng := t.eng.mapAll Engine.init fun _ e => { e with ran := none } }

/-! ### Order 1: what takes effect (R109, R111, R257, R419, R509, R525, R526, R563) -/

/-- The swap points that have come (R257). -/
def State.swapPoints (s : State) : State :=
  s.ten.group.foldl (fun t g => match g.2.swap with
    | some w => if w.passed = false ∧ w.frame ≤ s.frame then t.swapPoint g.1 else t
    | none => t) s

/-- Watchdog limits that PART_RESET with CONFIG gave (R526). -/
def State.limits (s : State) : State :=
  { s with org := { s.org with part := s.org.part.mapAll Part.init fun _ x => match x.wdNext with
    | some v => { x with wdFrames := v.1, replayFrames := v.2, wdNext := none }
    | none => x } }

/-- Engines that answered after a replay return to service (R525). -/
def State.engineBack (s : State) : State :=
  { s with eng := s.eng.mapAll Engine.init fun _ e => if e.back then { e with st := .service, back := false } else e }

/-- Ways whose four frames are over are written back (R111; DEDUCED, notes/assumptions/38.md). -/
def State.drainWays (s : State) (p : Nat) : State :=
  let due := ((s.partAt p).drainWay.filter fun w => decide (w.2 ≤ s.frame)).map Prod.fst
  let t := ((due.map fun w => w / 32).eraseDups).foldl (fun t f =>
    t.probeOut (128 + f) fun l => t.ownsLine p l && (t.copies l).any fun c => c.agent == 128 + f && c.way.any fun w => due.contains w) s
  t.modPart p fun x => { x with drainWay := x.drainWay.filter fun w => decide (s.frame < w.2) }

/-- The drains of every partition that is not being destroyed. -/
def State.drainAll (s : State) : State :=
  (s.heldParts.filter fun p => (s.partAt p).st != .destroying).foldl (fun t p =>
    ((bitsOf (t.partAt p).drainEng).foldl (fun t e => t.drainEngine p e) t).drainWays p) s

/-- Staged configuration and what else a frame boundary puts into effect. The actions of dirty logging come first, so that what the boundary itself
writes belongs to the frame that it opens (R87, R509). A context that has left floor eligibility by it is no longer owed or due (R189). -/
def State.takeEffect (s : State) : State :=
  ((s.dirtyActs.applySets.swapPoints.limits.switchModes.coresTick).engineBack).drainAll.floorSettle

/-! ### Orders 2 and 3: grants and buckets (R176, R213, R221, R224, R225) -/

/-- Grants of every LIVE partition. -/
def State.grantAll (s : State) : State := s.liveParts.foldl (fun t p => [0, 1, 2, 3].foldl (fun t f => t.grants p f) t) s

/-- The admission cycles that started in a field in the frame that closes (R172): fewer than 131 where Capo stretched the field's lanes or Plumb moved the
frame's length. -/
def State.cyclesOf (s : State) (env : FrameEnv) (f : Nat) : Nat :=
  let n := env.cycles.getD f 131
  if (s.capoAt f).lanes ∨ s.beat.plumb = .resync then n else max 131 n

/-- Closes the regulation of the frame that ended, by the values that it had (DEDUCED, notes/assumptions/31.md); a partition with a miss sends its `event_vector` once (R225).
A miss of a field whose lanes Capo stretched in the frame has the cause STRETCH (R226). -/
def State.closeRegulation (s : State) (env : FrameEnv) : State :=
  let causes := fun p => (env.causes.filter fun x => x.1 == p).foldl (fun n x => n ||| (x.2 &&& 5)) 0
  let inField := fun p f => causes p ||| (if (s.capoAt f).lanes then 2 else 0)
  let t := s.reg.bucket.foldl (fun t e => t.closeBucket e.1 e.2 (inField (e.1 / 64) (e.1 / 16 % 4))) s
  let t := s.heldParts.foldl (fun t p => (List.range 18).foldl (fun t n =>
    t.closeLink (p * 18 + n) (env.linkWaits.contains (p, n, 0) || t.portWaits p n) (env.linkWaits.contains (p, n, 1)) (causes p)) t) t
  let t := s.heldParts.foldl (fun t p => [0, 1, 2, 3].foldl (fun t f =>
    t.closeCycles p f (s.cyclesOf env f) ((env.denied.filter fun x => x.1 == p && x.2.1 == f).map fun x => x.2.2).sum (inField p f)) t) t
  let missed := (t.log.recs.filter fun r => decide (s.log.next ≤ r.seq) && r.kind == 0x0C).map Rec.part
  (missed.eraseDups.foldl (fun t p => t.partEvent p) t).closeFields

/-- The refill of every bucket with the values now in effect (R213, R215, R221). -/
def State.refill (s : State) : State := s.heldParts.foldl State.refillLinks s.refillBuckets.refillFields

/-- Hot counters clear at frames that are multiples of `hot_window_frames` (R350). -/
def State.clearHot (s : State) : State :=
  { s with xl := { s.xl with hot := s.xl.hot.filter fun h =>
    let w := (s.migrateAt h.part).hotWindow
    !(decide (0 < w) && s.frame % w == 0) } }

/-! ### Order 4: power and board samples -/

/-- The power action, unless a breakpoint has stopped the power core (R432, R433, R564); cards count the energy (R130). -/
def State.closePower (s : State) (env : FrameEnv) : State :=
  if s.coreStopped 5 then s
  else
    let t := s.powerAction env.energy env.avs
    t.heldParts.foldl (fun t p => t.modPart p fun x => { x with tally := { x.tally with energyNj := x.tally.energyNj + (t.powAt p).lastE } }) t

/-- A BEAT pair that takes a code other than OK and REVERSED loses the source, if Plumb is on the pin (R578). -/
def State.beatFault (before after : State) : State :=
  let c := (after.pairAt 0).code
  if c ≠ (before.pairAt 0).code ∧ 1 ≤ c ∧ c ≤ 4 ∧ after.beat.source = some .pin then after.beatSourceLoss else after

/-- A sample of a board pair with its reading (R577): the readings of sense pairs and diodes that are OK or REVERSED are kept. -/
def State.boardSample (s : State) (x : Nat × Nat × Nat) : State :=
  let (n, code, v) := x
  let t := s.beatFault (s.samplePair n code)
  if (t.pairAt n).code = 6 ∨ (code ≠ 0 ∧ code ≠ 5) then t
  else if 5 ≤ n ∧ n < 13 then t.modBoard fun b => { b with sense := b.sense.put 0 (n - 5) v }
  else if 13 ≤ n ∧ n < 17 then t.modBoard fun b => { b with diode := b.diode.put 0 (n - 13) (signed 16 v) }
  else t

/-! ### The telemetry snapshot (R551, R553) -/

/-- A context window at a snapshot. -/
def State.showWin (s : State) (k : Nat) (w : Win) : Win :=
  let p := k / 8
  let w := match w.next with
    | some x => { w with sel := x.1, enable := x.2.1, expect := x.2.2, next := none }
    | none => w
  let c := s.ctxAt w.sel
  let valid := w.enable && (w.sel == 0 || (s.partAt p).record.hasCtx w.sel) && (w.expect == 0 || w.expect == c.gen.toNat)
  { w with
    shown := w.sel, gen := c.gen, valid := valid
    engineNs := if valid then c.total.engineNs + c.now.engineNs else 0
    admissions := if valid then c.total.admits + c.now.admits else 0
    bytes := if valid then (List.range 24).map fun i => s.obs.cbytes.get 0 (ctxCount p w.sel * 24 + i) else [] }

/-- Every counter is copied into the window, unless a breakpoint has stopped the telemetry core (R564). -/
def State.snapshot (s : State) : State :=
  if s.coreStopped 7 then s
  else { s with watch := { s.watch with
    snap := ⟨s.watch.snap.seq + 2, s.beat.tick, s.heldParts.map fun p => (p, (s.partAt p).gen), s.obs.pbytes, s.obs.ops, s.obs.glob, s.hasRight 0⟩
    win := s.watch.win.mapAll Win.init fun k w => if (s.partAt (k / 8)).st = .free then w else s.showWin k w } }

/-! ### What counts frame boundaries -/

/-- The windows of armed probes count a boundary that fires (R558). -/
def State.countProbes (s : State) : State :=
  { s with watch := { s.watch with probe := s.watch.probe.mapAll Probe.init fun _ x => if x.armed then { x with frames := x.frames + 1 } else x } }

/-- The counts of frame boundaries: watchdogs (R522), fault slots (R342), FREE_RUN (R83), unreachable nodes (R535), and
condition 2 of R187 in window frames 32–63. -/
def State.countFrames (s : State) : State :=
  let s := if s.frame < s.org.window.toNat + 64 then s.noteEngines else s
  { s with
    eng := s.eng.mapAll Engine.init fun _ e => if e.running.isSome then { e with wd := e.wd + 1 } else e
    xl := { s.xl with migrate := s.xl.migrate.mapAll Migrate.init fun _ m =>
      { m with slots := m.slots.mapAll none fun _ x => x.map fun y => { y with frames := y.frames + 1 } } }
    beat := { s.beat with freerun := if s.beat.plumb = .freeRun then s.beat.freerun + 1 else s.beat.freerun }
    net := { s.net with gone := s.net.gone.mapAll none fun _ x => x.map (· + 1) } }

/-- Marker words go out on the trained ports at each block while Plumb is LOCKED on the pin (R81). -/
def State.sendMarkers (s : State) : State :=
  if s.beat.tick.toNat % 40960 = 0 ∧ s.beat.plumb = .locked ∧ s.beat.source = some .pin then
    ((List.range 18).filter fun p => (s.portAt p).up).foldl (fun t p => t.linkSend (.marker p (markerOf s.beat.tick.toNat))) s
  else s

/-! ### The boundary -/

/-- The actions of R89 that fall on a frame and have a row of their own: epoch 7 and 8, thermal window 6, floor window 5 with the close of the
window before (50), and the floor's due frame (51); Hawk's service pass (9) comes after them (DESIGN CHOICE, notes/assumptions/10.md). -/
def State.dueNow (s : State) : List Nat :=
  (if s.frame % 64 = 0 then [50, 5] else []) ++ (if s.frame = s.org.window.toNat + 32 then [51] else []) ++
  (if s.frame % 128 = 0 then [6] else []) ++ (if s.frame % 1024 = 0 then [7, 8] else []) ++ [9]

/-- The actions of the frame boundary that the counter stands on, in the order of R89. -/
def State.runBoundary (s : State) (env : FrameEnv) : State :=
  let t := (s.watchCores.closeFrame env).modBeat fun b => { b with due := (b.due ++ s.dueNow).eraseDups }
  let t := env.areaFaults.foldl State.areaFault (t.closeRegulation env).capoFrame.countProbes
  let t := (t.takeEffect.grantAll.refill.paceActs.serveLanes.drainPorts.clearHot.closePower env)
  let t := env.samples.foldl State.boardSample t
  t.countFrames.snapshot.counterStream.sendMarkers.servicePass

/-- The frame boundary after the counter. -/
def State.nextBoundary (s : State) : Nat := (s.frame + 1) * 8192

/-- The counter arrives at a boundary. -/
def State.arrive (s : State) (tick : Nat) (err : Int) : State := s.modBeat fun b => { b with tick := BitVec.ofNat 64 tick, err := err }

/-- The counter runs to a boundary (R84): a slew that ends on the way enters LOCKED there, before the boundary's actions. -/
def State.runTo (s : State) (at_ : Nat) : State :=
  let b := s.beat
  let n := slewPoints b.tick.toNat at_
  if b.slews = true ∧ b.need ≤ n then ((s.arrive b.slewEnd (b.slewed n)).checkResync).modBeat fun x => { x with tick := BitVec.ofNat 64 at_ }
  else s.arrive at_ (b.slewed n)

/-- A step or a hold breaks condition 5 of the floor (R187). -/
def State.skew (s : State) : State := { s with org := { s.org with skewed := true } }

/-- The counter steps forward to a landing boundary (R84): a maintenance slot that it steps over falls there (R390, DEDUCED, notes/assumptions/11.md). -/
def State.stepTo (s : State) (land : Nat) (err : Int) : State :=
  let t := (s.arrive land err).skew
  if t.epoch = s.epoch then t else t.modBeat fun b => { b with due := b.due ++ [8] }

/-- FRAME_BOUNDARY (R84, R85, R89): the counter runs to its next frame boundary. A step lands at the last beat frame boundary at or below the
beat's value in that tick; a hold stops there, and nothing fires. -/
def frameBoundary (env : FrameEnv) (s : State) : State :=
  let b := s.beat
  if b.run = false ∨ b.hold = true then s
  else if b.fire then (s.modBeat fun b => { b with fire := false }).runBoundary env
  else
    let s := s.markWaits
    let at_ := s.nextBoundary
    if b.plumb = .resync ∧ b.err < -(4 * 8192) then
      let land := (4 * (at_ : Int) - b.err).toNat / 4 / 8192 * 8192
      ((s.stepTo land (b.err + 4 * ((land : Int) - at_))).runBoundary env).checkResync
    else if b.plumb = .resync ∧ 4 * 8192 < b.err then (s.arrive at_ b.err).skew.modBeat fun b => { b with hold := true }
    else ((s.runTo at_).runBoundary env).checkResync

/-- FRAME_BOUNDARY. -/
def execFrameBoundary (env : FrameEnv) (s : State) : Host.Outcome State Fault Refusal := .next (s.live (frameBoundary env))

/-- HOLD_RELEASE (R85): the beat reaches the held value, the counter moves on, and the held boundary fires. -/
def holdRelease (env : FrameEnv) (s : State) : State :=
  if s.beat.hold = false ∨ s.beat.plumb ≠ .resync then s
  else ((s.modBeat fun b => { b with hold := false, err := 0 }).runBoundary env).checkResync

/-- HOLD_RELEASE. -/
def execHoldRelease (env : FrameEnv) (s : State) : Host.Outcome State Fault Refusal := .next (s.live (holdRelease env))

/-! ### The thermal window (R434, R578) -/

/-- The hottest reading with its number. -/
def hottest (l : List (Nat × Int)) : Option (Nat × Int) := argMin (fun x => -x.2) l

/-- THERMAL_WINDOW_CLOSE: T_max from the diodes that serve; with none, the hottest on-die sensor plus 5 °C. -/
def thermalWindowClose (onDie : List Nat) (s : State) : State :=
  let serve := (List.range 4).filter fun d => (s.pairAt (13 + d)).code == 0 || (s.pairAt (13 + d)).code == 5
  match hottest (serve.map fun d => (d, s.board.diode.get 0 d)) with
  | some x => (s.modBoard fun b => { b with onDie := false }).thermalClose x.2 x.1
  | none =>
    let x := (hottest (((onDie.take 4).map (signed 16)).zipIdx.map fun y => (y.2, y.1))).getD (0, 0)
    (s.modBoard fun b => { b with onDie := true }).thermalClose (x.2 + 40) x.1

/-- THERMAL_WINDOW_CLOSE: once at its boundary, after the floor window has opened (R89), while the power core runs. -/
def execThermalWindowClose (onDie : List Nat) (s : State) : Host.Outcome State Fault Refusal :=
  .next (s.live fun s =>
    if s.coreStopped 5 = true ∨ s.beat.due.contains 5 = true ∨ s.beat.due.contains 50 = true then s else s.once 6 (thermalWindowClose onDie))

/-! ### The epoch boundary -/

/-- The snapshot of the wait-for graph (R318, R319): a scan that has not ended skips it. -/
def State.wfgSnapshot (s : State) : State :=
  let w := s.fen.wfg
  let w := if w.scan.isSome then { w with overrun := true }
    else { w with scan := some (s.ten.ring.filterMap fun e => blockedAt e.1 e.2), scanAt := BitVec.ofNat 32 s.epoch, overrun := false }
  { s with fen := { s.fen with wfg := w } }

/-- The card of a partition at an epoch boundary (R129, R130): the figures of the epoch that ended. -/
def State.epochCard (s : State) (p : Nat) : State :=
  let last := s.closeTally p
  let new := s.newTally p
  (s.modPart p fun x => { x with last := last, tally := new, epoch := BitVec.ofNat 64 (s.epoch - 1) }).writeCard p

/-- Adds the figures of an epoch. -/
def CtxEpoch.add (a b : CtxEpoch) : CtxEpoch :=
  ⟨a.engineNs + b.engineNs, a.admits + b.admits, a.descs + b.descs, a.misses + b.misses, a.bytes + b.bytes⟩

/-- The contexts' figures of the epoch that ended (R167). -/
def Ctx.roll (c : Ctx) (epoch : W64) : Ctx :=
  if c.st = .free then c else { c with total := c.total.add c.now, last := c.now, now := CtxEpoch.zero, epoch := epoch }

/-- A certificate serves up to its last epoch (R476, R477), as judged at each epoch boundary. -/
def Sec.expire (x : Sec) (epoch : Nat) : Sec :=
  { x with cert := x.cert.map fun c => (c.1, c.2 && decide (epoch ≤ c.1.notAfter)) }

/-- EPOCH_BOUNDARY: the wait-for graph snapshot, the cards, the contexts' figures, what certificates still serve, the trace port's SYNC and
OFFSET packets (R565), a pending write of the incarnation number (R532), and the chip reset that ends a life-cycle transition (R470). -/
def epochBoundary (flashOk : Bool) (s : State) : State :=
  let t := s.heldParts.foldl State.epochCard s.wfgSnapshot
  let t := { t with
    ten := { t.ten with ctx := t.ten.ctx.mapAll Ctx.init fun _ c => c.roll (BitVec.ofNat 64 (s.epoch - 1)) }
    eng := t.eng.mapAll Engine.init fun _ e => { e with badTags := 0 } }
  let t := (t.changeSec fun x => x.expire s.epoch).syncPacket.offsetPackets
  let t := if flashOk ∧ t.landed = false then { t with log := { t.log with flash := t.log.inc } } else t
  match t.sec.run with
  | some r => if r.ended then t.needReset 5 0 else t
  | none => t

/-- EPOCH_BOUNDARY: once, after the floor and thermal actions of the boundary. -/
def execEpochBoundary (flashOk : Bool) (s : State) : Host.Outcome State Fault Refusal :=
  .next (s.live fun s =>
    if s.epochWaits then s else s.once 7 (epochBoundary flashOk))

end Sys2Proof.Machine
end

