-- ==== Sys2Proof/Machine/Sequences.lean ====
section
/-! DEFINITION. The sequence family: SEQ_OPEN, SEQ_CLOSE, KV_RESERVE_FILL with its three operations, SEQ_QUERY and the sequence
cache (09_sequences_and_kv). -/

namespace Sys2Proof.Machine

/-- The home that R267 gives a new sequence: the field with the lowest ratio of open sequences homed there to engines held
there; ties to the lower field. -/
def State.seqHome (s : State) (p : Nat) : Nat :=
  let n := fun f => ((s.seqsOf p).filter fun e => e.2.st != .free && e.2.home == f).length
  let e := fun f => ((s.partAt p).record.engIn f).length
  let better := fun a b => n a * e b < n b * e a
  ([0, 1, 2, 3].filter fun f => e f != 0).foldl (fun (best : Option Nat) f =>
    match best with
    | none => some f
    | some b => if better f b then some f else some b) none |>.getD 0

/-- The lowest FREE sequence of a partition (R267). -/
def State.freeSeq (s : State) (p : Nat) : Option Nat :=
  lowestIn (s.partAt p).record.seqBlocks 512 fun q => (s.seqAt q).st == .free

/-- The checks of SEQ_OPEN, in order (R267–R269, R287). -/
def seqOpenChecks (c : Cmd) (s : State) : List (Bool × Status × Nat) :=
  let x := c.f 0 0 16
  let g := c.f 4 0 10
  let lines := c.f 16 0 9
  let size := c.f 22 0 5
  let vec := c.f 20 0 16
  let ctx := s.ctxAt x
  let log := c.f 24 0 64
  [
    (c.zeros [(3, 5, 3), (5, 2, 6), (17, 1, 7), (19, 3, 5), (22, 5, 11), (32, 0, 64)], .rejectedInconsistent, 0x0005),
    ((s.recOf c).hasCtx x, .notPermitted, 0x0700),
    (ctx.st != .lost, .contextLost, 0x0701),
    (ctx.st == .live, .rejectedInconsistent, 0x0701),
    (c.f 2 0 8 == ctx.gen.toNat, .staleGeneration, 0),
    ((s.groupAt g).owner == some c.part && ((s.groupAt g).member x).isSome, .rejectedInconsistent, 0x0702),
    (decide (1 ≤ c.f 8 0 32 ∧ c.f 8 0 32 < c.f 12 0 32 ∧ 1 ≤ lines ∧ c.f 12 0 32 ≤ 1024 * (512 / lines) ∧ c.f 18 0 11 ≤ 1024 ∧
      4 ≤ size ∧ size ≤ 16 ∧ (vec = 0xFFFF ∨ vec < (s.recOf c).vecCount)), .rejectedInconsistent, 0x0703),
    (log % 4096 == 0 && s.covered c.part x log (16 * 2 ^ size) true, .rejectedInconsistent, 0x0704),
    (c.f 6 0 16 == 0 || !s.driftBars c.part, .notPermitted, 0x0705),
    ((s.freeSeq c.part).isSome, .rejectedInconsistent, 0x0706)]

/-- SEQ_OPEN (R267–R269, R287). -/
def runSeqOpen (c : Cmd) (s : State) : State :=
  let x := c.f 0 0 16
  let g := c.f 4 0 10
  let lines := c.f 16 0 9
  let size := c.f 22 0 5
  let vec := c.f 20 0 16
  let log := c.f 24 0 64
  s.checked c (seqOpenChecks c s) fun s =>
    let n := (s.freeSeq c.part).getD 0
    let home := s.seqHome c.part
    let t := s.modSeq n fun q => { Seq.init with
      st := .filling, irqEach := c.f 3 3 1 == 1, fallback := c.f 3 4 1 == 1, gen := nextGen q.gen, ctx := x, group := g, home := home
      cls := c.f 3 0 3, deadline := c.f 6 0 16, tokLines := lines, fastPages := c.f 18 0 11, vector := vec, prompt := c.f 8 0 32
      maxLen := c.f 12 0 32, logSize := size, logAddr := log, openFrame := s.nowFrame }
    s.answer t c [(17, n), (15, 0), (8, (t.seqAt n).gen.toNat), (2, home), (22, 0), (32, s.nowFrame.toNat), (32, 0)]

/-- SEQ_OPEN. -/
def execSeqOpen (k : Take) (s : State) : Host.Outcome State Fault Refusal := .next (s.live (hawk 0x0701 anyCmd k runSeqOpen))

/-- The checks of SEQ_CLOSE, in order (R269, R277, R288). -/
def seqCloseChecks (c : Cmd) (s : State) : List (Bool × Status × Nat) :=
  let n := c.f 0 0 17
  let q := s.seqAt n
  [
    (c.zeros [(2, 1, 15), (5, 1, 7), (6, 0, 16)], .rejectedInconsistent, 0x0005),
    ((s.recOf c).hasSeq n, .notPermitted, 0x0710),
    (q.st != .free && q.st != .closing, .rejectedInconsistent, 0x0711),
    (c.f 4 0 8 == q.gen.toNat, .staleGeneration, 0),
    (decide (12 + 4 * q.pages.length ≤ c.space), .rejectedInconsistent, 0x0008)]

/-- SEQ_CLOSE (R269, R277, R288). -/
def runSeqClose (c : Cmd) (s : State) : State :=
  let n := c.f 0 0 17
  let q := s.seqAt n
  let keep := c.f 5 0 1 == 1
  s.checked c (seqCloseChecks c s) fun s =>
    let t := s.dropChunks n .staleGeneration
    (if q.inFlight then t.modSeq n fun q => { q with st := .closing, stall := false, close := some (c.ref, keep) }
     else t.endSeq n (some c.ref) keep).floorSettle

/-- SEQ_CLOSE. -/
def execSeqClose (k : Take) (s : State) : Host.Outcome State Fault Refusal := .next (s.live (hawk 0x0702 anyCmd k runSeqClose))

/-! ### KV_RESERVE_FILL (R283–R286, R289) -/

/-- `op` of a KV_RESERVE_FILL. -/
def kvOp (c : Cmd) : Nat := c.f 3 1 2

/-- The entries of a FILL. -/
def kvEntries (c : Cmd) : List Nat := (List.range (c.f 4 0 7)).map fun i => c.f (8 + 4 * i) 0 32

/-- A KV page entry suits a list (R289, check 6): segment, tier, page and backing entry. -/
def State.kvEntryFits (s : State) (p x list e : Nat) : Bool :=
  let k := segKey p x (e / 2 ^ 28)
  let g := s.segAt k
  let page := e % 2 ^ 28
  g.valid && g.write && !g.big && g.homeTier == (if list = 0 then 2 else 1) && decide (page < g.pages) &&
  match (s.tableWord p k page .clean).2 with
  | some w => entryPresent w
  | none => false

/-- Sets every line of a local page CLEAR and charges 8 B a line (R285). Copies of these lines leave the coherent agents, so that a later read
gives what a CLEAR line gives (DEDUCED, notes/assumptions/56.md). -/
def State.clearPage (s : State) (p x e : Nat) : State :=
  let k := segKey p x (e / 2 ^ 28)
  match (s.tableWord p k (e % 2 ^ 28) .clean).2 with
  | none => s
  | some w =>
    let a := entryPhys w
    let l := localAddr a / 128
    if entryTier w = 0 ∨ addrNode a ≠ addrNode (s.segAt k).table then s
    else match s.rangeOf (localAddr a) with
      | none => s
      | some r =>
        if (s.rangeAt r).st ≠ .owned ∨ (s.rangeAt r).owner ≠ p then s
        else
          let t := { s with
            mem := { s.mem with line := s.mem.line.filter fun y => !(decide (l ≤ y.1 ∧ y.1 < l + 512)) }
            coh := { s.coh with copy := s.coh.copy.filter fun y => !(decide (l ≤ y.1 ∧ y.1 < l + 512)) } }
          (t.dirtyMark r (localAddr a)).chargeMaint p (localAddr a) (512 * 8)

/-- The checks of R289 that come before the operation's own. The length of a FILL is held against its own `count` here, after checks 5 to 7 of R73
(DESIGN CHOICE, notes/assumptions/70.md). -/
def kvHead (c : Cmd) (s : State) : List (Bool × Status × Nat) :=
  let x := c.f 0 0 16
  let ctx := s.ctxAt x
  [(kvOp c == 3 || c.len == 8 + (if kvOp c = 0 then 4 * c.f 4 0 7 else 0), .rejectedInconsistent, 0x0004),
    (c.zeros [(3, 4, 4), (4, 7, 9), (6, 6, 10)], .rejectedInconsistent, 0x0005),
    ((s.recOf c).hasCtx x, .notPermitted, 0x0720),
    (ctx.st != .lost, .contextLost, 0x0721),
    (ctx.st == .live, .rejectedInconsistent, 0x0721),
    (c.f 2 0 8 == ctx.gen.toNat, .staleGeneration, 0),
    (decide (kvOp c ≤ 2 ∧ c.f 4 0 7 ≤ 64), .rejectedInconsistent, 0x0722)]

/-- A list of a context. -/
def Reserve.list (r : Reserve) (l : Nat) : List Nat := if l = 0 then r.fast else r.slow

/-- The checks of KV_FILL, in order. -/
def kvFillChecks (c : Cmd) (s : State) : List (Bool × Status × Nat) :=
  let x := c.f 0 0 16
  let l := c.f 3 0 1
  let es := kvEntries c
  let r := s.reserveAt x
  kvHead c s ++ [
    (decide ((r.list l).length + es.length ≤ 64), .rejectedInconsistent, 0x0723),
    (es.all fun e => s.kvEntryFits c.part x l e, .rejectedInconsistent, 0x0724),
    (decide es.Nodup && es.all fun e => !r.fast.contains e && !r.slow.contains e, .rejectedInconsistent, 0x0725)]

/-- KV_RESERVE_FILL with `op` FILL. -/
def runKvFill (c : Cmd) (s : State) : State :=
  let x := c.f 0 0 16
  let l := c.f 3 0 1
  let es := kvEntries c
  s.checked c (kvFillChecks c s) fun s =>
    let t := if c.f 3 3 1 = 1 then es.foldl (fun t e => t.clearPage c.part x e) s else s
    let t := t.modReserve x fun r => if l = 0 then { r with fast := r.fast ++ es } else { r with slow := r.slow ++ es }
    let t := t.unstall x (if l = 0 then es.length else 0) (if l = 0 then 0 else es.length)
    s.answer t c [(8, ((t.reserveAt x).list l).length), (8, es.length), (16, 0)]

/-- KV_RESERVE_FILL, and the answer to an `op` that R289 refuses. -/
def execKvReserveFill (k : Take) (s : State) : Host.Outcome State Fault Refusal :=
  .next (s.live (hawk 0x0703 (fun c => kvOp c == 0 || kvOp c == 3) k runKvFill))

/-- The checks of KV_DRAIN, in order. -/
def kvDrainChecks (c : Cmd) (s : State) : List (Bool × Status × Nat) :=
  let n := c.f 4 0 7
  kvHead c s ++ [(decide (4 + 4 * n ≤ c.space), .rejectedInconsistent, 0x0008)]

/-- KV_RESERVE_FILL with `op` DRAIN: entries leave from the tail. -/
def runKvDrain (c : Cmd) (s : State) : State :=
  let x := c.f 0 0 16
  let l := c.f 3 0 1
  let n := c.f 4 0 7
  s.checked c (kvDrainChecks c s) fun s =>
    let all := (s.reserveAt x).list l
    let out := (all.reverse).take n
    let kept := all.take (all.length - out.length)
    let t := s.modReserve x fun r => if l = 0 then { r with fast := kept } else { r with slow := kept }
    s.answer t c ([(8, kept.length), (8, out.length), (16, 0)] ++ out.map fun e => (32, e))

/-- KV_RESERVE_FILL (DRAIN). -/
def execKvReserveDrain (k : Take) (s : State) : Host.Outcome State Fault Refusal :=
  .next (s.live (hawk 0x0703 (fun c => kvOp c == 1) k runKvDrain))

/-- The checks of KV_WATER, in order. -/
def kvWaterChecks (c : Cmd) (s : State) : List (Bool × Status × Nat) :=
  kvHead c s

/-- KV_RESERVE_FILL with `op` SET_WATER. -/
def runKvWater (c : Cmd) (s : State) : State :=
  let x := c.f 0 0 16
  let l := c.f 3 0 1
  s.checked c (kvWaterChecks c s) fun s =>
    let t := s.modReserve x fun r => if l = 0 then { r with fastWater := c.f 6 0 6 } else { r with slowWater := c.f 6 0 6 }
    s.answer t c [(8, ((t.reserveAt x).list l).length), (8, 0), (16, 0)]

/-- KV_RESERVE_FILL (SET_WATER). -/
def execKvReserveSetWater (k : Take) (s : State) : Host.Outcome State Fault Refusal :=
  .next (s.live (hawk 0x0703 (fun c => kvOp c == 2) k runKvWater))

/-! ### SEQ_QUERY (R290–R292) -/

/-- The code of a sequence's state (R290). -/
def seqCode : SeqSt → Nat
  | .free => 0
  | .filling => 1
  | .ready => 2
  | .running => 3
  | .ended => 4
  | .failed => 5
  | .closing => 6

/-- The image of a held chunk (R290); an absent one reads 0. -/
def chunkFields (s : State) (q : Seq) (i : Nat) : List (Nat × Nat) :=
  match q.chunks[i]? with
  | none => [(224, 0)]
  | some c => [(64, c.addr), (32, c.pos), (16, c.tokens), (16, c.desc.deadline (s.ringAt c.ring).fmt), (20, c.ring), (12, 0),
      (32, c.desc.index.toNat), (32, c.desc.frame)]

/-- SEQ_QUERY view 0 (R290). -/
def seqView (s : State) (n : Nat) : List (Nat × Nat) :=
  let q := s.seqAt n
  [(4, seqCode q.st), (1, bit q.stall), (1, bit q.irqEach), (1, bit q.fallback), (1, 0), (8, q.gen.toNat), (16, q.ctx), (10, q.group),
    (2, q.home), (3, q.cls), (1, 0), (16, q.deadline), (16, q.tokLines), (16, q.fastPages), (16, q.pages.length), (16, q.vector),
    (32, q.prompt), (32, q.maxLen), (32, q.len), (32, q.next), (32, q.queuedEnd), (13, q.preFly), (1, bit q.decFly), (2, 0),
    (5, q.logSize), (3, 0), (8, statusCode q.last), (64, q.logAddr), (32, q.logCount.toNat), (32, q.readyFrame), (32, q.openFrame.toNat),
    (32, q.token.toNat)] ++ chunkFields s q 0 ++ chunkFields s q 1 ++ [(32, q.failPos), (2, q.chunks.length), (30, 0)]

/-- SEQ_QUERY view 1 (R291). -/
def reserveView (s : State) (x : Nat) : List (Nat × Nat) :=
  let r := s.reserveAt x
  [(16, x), (8, (s.ctxAt x).gen.toNat), (1, bit (decide (r.fast.length < r.fastWater))), (1, bit (decide (r.slow.length < r.slowWater))),
    (6, 0), (8, r.fast.length), (8, r.slow.length), (8, r.fastWater), (8, r.slowWater),
    (32, (s.ten.seq.filter fun e => e.2.ctx == x && e.2.stall).length), (32, r.draws.toNat), (32, r.empties.toNat), (32, 0)]

/-- The checks of SEQ_QUERY, in order. R268 has it name a sequence by number and `seq_gen`, but its payload has no `seq_gen` field: none is tested
(DESIGN CHOICE, notes/assumptions/99.md). -/
def seqQueryChecks (c : Cmd) (s : State) : List (Bool × Status × Nat) :=
  let view := c.f 0 0 8
  let n := c.f 4 0 17
  [
    (c.zeros [(1, 0, 8), (3, 2, 6)] && (if view = 1 then c.zeros [(6, 0, 16)] else c.zeros [(6, 1, 15)]), .rejectedInconsistent, 0x0005),
    (decide (view ≤ 2), .rejectedInconsistent, 0x0731),
    (if view = 1 then (s.recOf c).hasCtx (c.f 4 0 16) else (s.recOf c).hasSeq n, .notPermitted, 0x0730)]

/-- SEQ_QUERY: the reserved fields first, then `view`, then `id`. -/
def runSeqQuery (c : Cmd) (s : State) : State :=
  let view := c.f 0 0 8
  let n := c.f 4 0 17
  s.checked c (seqQueryChecks c s) fun s =>
    s.answer s c (if view = 0 then seqView s n else if view = 1 then reserveView s (c.f 4 0 16)
      else [(17, n), (15, 0), (16, (s.seqAt n).pages.length), (16, 0)] ++ ((s.seqAt n).pages.drop (c.f 2 0 10)).map fun e => (32, e))

/-- SEQ_QUERY. -/
def execSeqQuery (k : Take) (s : State) : Host.Outcome State Fault Refusal := .next (s.live (hawk 0x0704 anyCmd k runSeqQuery))

/-- SEQ_CACHE_FILL (R293): the Trowel brings an open slot into its home field's cache; the least recently admitted leaves. -/
def seqCacheFill (n : Nat) (s : State) : State :=
  let q := s.seqAt n
  let add := fun (l : List Nat) =>
    if l.contains n then l else if 2048 ≤ l.length then l.drop 1 ++ [n] else l ++ [n]
  if q.st = .free ∨ s.coreStopped (1 + q.home) = true then s
  else { s with ten := { s.ten with seqCache := s.ten.seqCache.upd [] q.home add } }

/-- SEQ_CACHE_FILL. -/
def execSeqCacheFill (n : Nat) (s : State) : Host.Outcome State Fault Refusal := .next (s.live (seqCacheFill n))

end Sys2Proof.Machine
end

