-- ==== Sys2Proof/Machine/Start.lean ====
section
/-! DEFINITION. Chip resets and power: CHIP_RESET (R530–R532, R589, R590), POWER_ON, PCIE_RESET and POWER_LOSS (R456, R482, R536). -/

namespace Sys2Proof.Machine

/-! ### Capture (R531, R533, R542) -/

/-- The automatic dump of causes 1 to 4: every section. -/
def State.autoDump (s : State) (cause : Nat) : State :=
  if 1 ≤ cause ∧ cause ≤ 4 then
    ({ s with free := s.free + 1 } : State).storeDump { s.newDump cause 0x3FF with bytes := (Config.dumpBytes s.free).toNat }
  else s

/-- RESET_NOTICE goes out on every trained port with the incarnation that ends (R533). -/
def State.sendNotices (s : State) : State :=
  ((List.range 18).filter fun p => (s.portAt p).up).foldl (fun t p => t.linkSend (.resetNotice p s.ownNode s.log.inc)) s

/-- The TAP instruction after a chip reset: MEM_ACCESS ends, and EXTEST, INTEST and internal scan where the state itself does not give SCAN (R490, R495);
any other stays (DEDUCED, notes/assumptions/34.md). -/
def State.tapKept (s : State) : TapIr :=
  match s.board.tap with
  | .memAccess => .bypass
  | .extest | .intest | .scan => if (stateRights s.sec.fuse).getLsbD 6 then s.board.tap else .bypass
  | ir => ir

/-- What a chip reset keeps (R456, R482, R536): fuses, the key store and the certificate in the user area, the log and the dumps, the lines of the dump
region (R537), the incarnation, and what has been sent (DEDUCED, notes/assumptions/14.md). Every other unit is at its reset values. -/
def State.cleared (s : State) : State :=
  { s with
    beat := Beat.init, box := { Box.init with tickets := s.box.tickets }, org := Org.init, ten := Tenant.init, fen := FenceUnit.init, eng := enginesReset
    reg := Reg.init, xl := Xlate.init, mem := { Mem.init with laneOf := s.mem.laneOf, saves := s.mem.saves, line := s.mem.line.filter fun e => inDump (e.1 * 128) }, coh := Coh.init, net := { Net.init with own := s.net.own }, pwr := Power.init
    watch := Watch.init, obs := Obs.init, board := { Board.init with tap := s.tapKept }
    out := { s.out with low := false, held := [], ports := [] }
    log := { s.log with run := none }
    chip := { s.chip with
      phase := 0, failed := false, attempts := 1, failUnit := 0, startMs := 0, pending := none, opened := false, secOnly := false
      stopped := s.tapKept.stops }
    sec := { s.sec with cert := none, grant := none, challenge := none, challenges := 0, derived := 0, run := none } }

/-! ### The island (R450, R451, R455, R460, R461, R468, R482, R586) -/

/-- A row whose transition was cut short: its number and its highest mark (R468). -/
def Sec.partialRow (x : Sec) : Option (Nat × Nat) :=
  firstSome (fun row =>
    let m := x.marks.get 0 row
    if m = 0 ∨ m.testBit (lcSteps row - 1) = true then none else some (row, m.log2 + 1)) (List.range 10)

/-- Carries out a step of a row after the first (R466). -/
def Sec.resumeStep (x : Sec) (row k : Nat) : Sec :=
  let y := if k = lcSteps row then x.burnLc row else if k = 2 then x.burnRoot else { x with saved := none }
  { y with marks := y.marks.upd 0 row fun m => m ||| 2 ^ (k - 1) }

/-- The steps after a mark, in order (R468). -/
def Sec.resumeRow (x : Sec) (row mark : Nat) : Sec :=
  ((List.range (lcSteps row - mark)).map fun i => mark + 1 + i).foldl (fun x k => x.resumeStep row k) x

/-- A start resumes a transition that was cut short (R468). -/
def Sec.resume (x : Sec) : Sec :=
  match x.partialRow with
  | some (row, mark) => { x.resumeRow row mark with resumed := true }
  | none => { x with resumed := false }

/-- A step of the resumed transition erases the user area, and with it the copy of the incarnation number (R466, R579). -/
def Sec.erases (x : Sec) : Bool :=
  match x.partialRow with
  | some (row, mark) => decide (3 ≤ row ∧ mark < 3)
  | none => false

/-- The root rows that a draw of 1,024 bits burns (R450). -/
def rootOf (draw : BitVec 1024) : RootRow :=
  let r := BitVec.ofNat 384 (sha384 128 draw.toNat)
  ⟨r, BitVec.ofNat 48 (sha384 48 r.toNat)⟩

/-- The root is generated at the first start in PROVISION whose rows are both blank; row B is burned where row A does not read back (R450), or where power
failed before row A was checked (R486). -/
def Sec.rootDue (x : Sec) : Bool := x.fuse == .provision && x.rowB == rootBlank && !(rootHolds x.rowA)

/-- Generates the root (R450, R486): row A unless a start before this one left it unchecked, and row B where row A does not read back as burned. Where power
fails, the row being burned holds what had been burned of it. -/
def Sec.makeRoot (x : Sec) (env : StartEnv) : Sec :=
  if x.rootDue then
    let b := { x with rowB := env.rowBBack.getD (rootOf env.rootDrawB) }
    if x.rowA = rootBlank then
      match env.rootCut, env.rowABack with
      | some cut, _ => { x with rowA := cut }
      | none, none => { x with rowA := rootOf env.rootDrawA }
      | none, some back => { b with rowA := back }
    else match env.rootCut with
      | some cut => { x with rowB := cut }
      | none => b
  else x

/-- The root that the start takes (R451). -/
def takeRoot (a b : RootRow) : Root :=
  if rootHolds a then .valid a.root else if rootHolds b then .valid b.root
  else if a = rootOnes ∧ b = rootOnes then .destroyed
  else if a = rootBlank ∧ b = rootBlank then .absent
  else .bad

/-- What a start does with the key store and the root: `expire_at_reset` slots are EMPTY (R482), the root is taken, the life-cycle state of
the fuses takes effect (R470), and Lendor's own slots are derived (R455). -/
def Sec.begin_ (x : Sec) (env : StartEnv) (serial : BitVec 128) : Sec :=
  let y := (x.resume).makeRoot env
  Sec.deriveOwn { y with
    slots := y.slots.filter fun e => !e.2.expire
    lc := y.fuse, root := takeRoot y.rowA y.rowB, start := env.startValue, signed := false } serial

/-- The MAC of a measurement under slot 2 (R455, R461), over the hash and whether the image was signed. -/
def Sec.measureMac (x : Sec) (hash : BitVec 384) (signed_ : Bool) : BitVec 384 :=
  BitVec.ofNat 384 (hmac384 32 ((x.slots.get KeySlot.init 2).mat.toNat % 2 ^ 256) 49 (hash.toNat * 256 + bit signed_))

/-- The retained measurement is that of a signed image with this hash, and its MAC matches (R461). -/
def Sec.measures (x : Sec) (hash : BitVec 384) : Bool :=
  match x.measured with
  | some (h, true, mac) => h == hash && mac == x.measureMac h true
  | _ => false

/-- An image is verified (R460): the maker's key by its fused hash, the signature over its digest, and its `security_version` by the anti-rollback row. -/
def Sec.verifies (x : Sec) (i : ImageSlot) : Bool :=
  sha384 96 i.pub.toNat == x.makerHash.toNat && ecdsaVerify i.pub.toNat i.hash.toNat i.sig.toNat && decide (x.rollback ≤ i.security)

/-- A slot of the flash is eligible (R586); a measured image that was signed is not verified again (R461). -/
def Sec.imageOk (x : Sec) (i : ImageSlot) : Bool := i.wellFormed && (x.measures i.hash || x.verifies i)

/-- The better of two eligible images (R586). -/
def betterImage (a b : ImageSlot) : ImageSlot :=
  if a.security < b.security ∨ (a.security = b.security ∧ a.build.toNat < b.build.toNat) then b else a

/-- The image that runs, with `image_signed` (R461, R586); none in SCRAP and where no image is usable. -/
def Sec.chooseImage (x : Sec) (a b : ImageSlot) : Option (ImageSlot × Bool) :=
  if x.lc = .scrap then none
  else match x.imageOk a, x.imageOk b with
    | true, true => some (betterImage a b, true)
    | true, false => some (a, true)
    | false, true => some (b, true)
    | false, false => if x.testRoot ∧ a.wellFormed = true then some (a, false) else none

/-! ### The board (R571, R572, R580, R82) -/

/-- The values of a board without a record (R580). -/
def noRecord : BoardRecord := ⟨false, 0x3FFFF, 0, 0xFF, 0xF, 0xF, 0, 0⟩

/-- The record that serves, with `record_state`: copy A 1, copy B 2, none 0. -/
def State.pickRecord (s : State) (env : StartEnv) : BoardRecord × Nat :=
  if s.sec.lc = .analysis ∨ s.sec.lc = .scrap then (noRecord, 0)
  else if env.recordA.valid then (env.recordA, 1) else if env.recordB.valid then (env.recordB, 2) else (noRecord, 0)

/-- The pairs that the record leaves out: trace lanes 1–4, sense pairs 5–12 and diodes 13–16 (R571). -/
def absentPairs (r : BoardRecord) : List Nat :=
  (((List.range 4).filter fun l => !r.traceFitted.getLsbD l).map fun l => 1 + l) ++
  (((List.range 8).filter fun p => !r.senseFitted.getLsbD p).map fun p => 5 + p) ++
  (((List.range 4).filter fun d => !r.diodeFitted.getLsbD d).map fun d => 13 + d)

/-- The trim is used when it lies within ±2,000; another is applied as 0 and logged (R82). -/
def trimFits (t : BitVec 16) : Bool := decide (-2000 ≤ signed 16 t.toNat ∧ signed 16 t.toNat ≤ 2000)

/-- Applies the board record, and classifies every pair from OK (R572). -/
def State.startBoard (s : State) (env : StartEnv) : State :=
  let (r, k) := s.pickRecord env
  let t := { s with
    board := { s.board with record := k, static_ := r.i3cStatic, invert := r.traceInvert
                            pair := (absentPairs r).foldl (fun p n => p.put Pair.init n ⟨6, 0, 0⟩) s.board.pair }
    beat := { s.beat with ports := r.beatPorts, trim := if trimFits r.beatTrim then r.beatTrim else 0 } }
  (env.pairCodes.filter fun x => 1 ≤ x.2 && x.2 ≤ 5 && x.1 < 17).foldl (fun t x =>
    if (t.pairAt x.1).code = 0 then t.setCode x.1 x.2 else t) t

/-! ### Memory, links and Plumb (R531, R532, R538, R583) -/

/-- The log of a new life-cycle state counts records from 1 (R539). -/
def Log.renumber (l : Log) (changed : Bool) : Log := if changed then { l with recs := [], next := 1, lost := 0 } else l

/-- The incarnation before this start: the larger of the retained value and of the boot flash's (R532). -/
def Log.lastInc (l : Log) : W32 := if l.inc.toNat < l.flash.toNat then l.flash else l.inc

/-- The incarnation number of a start (R532): one more than the larger of the two copies. -/
def Log.newInc (l : Log) : W32 := l.lastInc + 1

/-- The last phases: the incarnation is written, the power core writes the rail targets (R442), the records of the start are made, and Plumb enters ACQUIRE. -/
def State.startMemory (s : State) (env : StartEnv) (cause unit : Nat) (trimBad : Option Nat) : State :=
  let old := s.log.lastInc
  let new := s.log.newInc
  let t := { s with
    log := { s.log with inc := new, flash := if env.flashOk then new else s.log.flash }
    board := { s.board with flash := !env.flashOk }
    coh := { s.coh with cap := env.nativeCap }
    pwr := { s.pwr with targets := (List.range 8).map fun r => (r, Config.railTarget r) }
    eng := (List.range 128).foldl (fun t e => t.put Engine.init e { Engine.init with compat := !env.nativeCap.getLsbD e }) s.eng
    chip := { s.chip with phase := 4, startMs := env.startMs } }
  let t := t.logRec { kind := 0x0006, part := 0xFF, a := cause, b := unit, c := old.toNat }
  match trimBad with
  | some v => t.logRec { kind := 0x0017, part := 0xFF, a := 1, b := v }
  | none => t

/-- The refused trim of the record in use. -/
def State.badTrim (s : State) (env : StartEnv) : Option Nat :=
  let r := (s.pickRecord env).1
  if trimFits r.beatTrim then none else some (unsigned 64 (signed 16 r.beatTrim.toNat))

/-- A start that stops: only the identification page and the security mailbox serve (R461, R590). The reset's record goes to the retained SRAM as any
other (R530, R538). -/
def State.stopStart (s : State) (why : Nat × Nat) (phase unit : Nat) (failed : Bool) : State :=
  ({ s with chip := { s.chip with phase := phase, failed := failed, failUnit := unit, secOnly := true } } : State).logRec
    { kind := 0x0006, part := 0xFF, a := why.1, b := why.2, c := s.log.lastInc.toNat }

/-- The boot loader of the security core puts the image's sections into the core memories (R35). -/
def State.loadCores (s : State) (l : List (Nat × Nat × W32)) : State :=
  (l.filter fun x => x.1 < 9 ∧ x.2.1 < 131072).foldl (fun t x => t.modCore x.1 fun c => { c with mem := c.mem.put 0 x.2.1 x.2.2 }) s

/-- POWER_LOSS (R456): every slot, the retained SRAM and the memories are lost; a life-cycle transition stops where its marks stand. -/
def powerLoss (s : State) : State :=
  let t := s.cleared
  { t with
    chip := { t.chip with powered := false }
    sec := { t.sec with slots := [], measured := none }
    log := { Log.init with flash := t.log.flash }
    mem := { Mem.init with laneOf := s.mem.laneOf }
    board := Board.init }

/-- Power fails while this start burns a root row (R486). -/
def Sec.rootLost (x : Sec) (env : StartEnv) : Bool := x.resume.rootDue && env.rootCut.isSome

/-- CHIP_RESET (R530, R531, R589): capture, island, memory, links and the entry to ACQUIRE; it ends with a loss of power during the
island's work on the root (R486). -/
def chipReset (env : StartEnv) (s : State) : State :=
  match s.chip.pending with
  | none => s
  | some (cause, unit) =>
    let t := ((s.autoDump cause).sendNotices).cleared
    let sec := t.sec.begin_ env t.chip.serial
    let t := { t with
      sec := sec, net := { t.net with own := env.node % 512 }
      log := { t.log.renumber (sec.lc != s.sec.lc) with flash := if t.sec.erases then 0 else t.log.flash }
      chip := { t.chip with islandOk := env.selfTest, attempts := max 1 (min 3 env.attempts) } }
    if s.cleared.sec.rootLost env then powerLoss t
    else match sec.chooseImage env.imageA env.imageB with
    | none => if sec.lc = .scrap then t.stopStart (cause, unit) 0 0 false else t.stopStart (cause, unit) 0 0xF0 true
    | some (image, signed_) =>
      let t := { t with
        sec := { t.sec with signed := signed_, measured := some (image.hash, signed_, sec.measureMac image.hash signed_) }
        chip := { t.chip with build := image.build, version := image.security, commit := image.commit } }
      let t := (t.loadCores env.coreWords).startBoard env
      match env.failUnit with
      | some u => ({ t with chip := { t.chip with attempts := 3 } } : State).stopStart (cause, unit) 2 u true
      | none => t.startMemory env cause unit (t.badTrim env)

/-- CHIP_RESET: runs when a cause of R530 has occurred and the part has power. -/
def execChipReset (env : StartEnv) (s : State) : Host.Outcome State Fault Refusal := .next (if s.chip.powered then chipReset env s else s)

/-! ### Power and PCIe -/

/-- POWER_ON (R530): a part without power gets it, and a chip reset is due. -/
def execPowerOn (s : State) : Host.Outcome State Fault Refusal :=
  .next (if s.chip.powered then s else { s with chip := { s.chip with powered := true, pending := some (8, 0) } })

/-- PCIE_RESET (R530): a chip reset is due. -/
def execPcieReset (s : State) : Host.Outcome State Fault Refusal := .next (s.live fun s => s.needReset 7 0)

/-- POWER_LOSS. -/
def execPowerLoss (s : State) : Host.Outcome State Fault Refusal := .next (if s.chip.powered then powerLoss s else s)

end Sys2Proof.Machine
end

