-- ==== Sys2Proof/Machine/Dispatch.lean ====
section
/-! DEFINITION. The dispatch of commands: one arm per row of spec/opcode_table.json. -/

namespace Sys2Proof.Machine

/-- What a command does. -/
def exec (i : Instr) (s : State) : Host.Outcome State Fault Refusal :=
  match i with
  | .requestAreaWrite mb slot word v => Sys2Proof.Machine.execRequestAreaWrite mb slot word v s
  | .mbSubmit mb v => Sys2Proof.Machine.execMbSubmit mb v s
  | .mbDoneClear mb v => Sys2Proof.Machine.execMbDoneClear mb v s
  | .vectorWrite mb v => Sys2Proof.Machine.execVectorWrite mb v s
  | .endSession mb v => Sys2Proof.Machine.execEndSession mb v s
  | .registerWrite offset width v => Sys2Proof.Machine.execRegisterWrite offset width v s
  | .tickLoRead read => Sys2Proof.Machine.execTickLoRead read s
  | .ctxWinSelWrite part win v => Sys2Proof.Machine.execCtxWinSelWrite part win v s
  | .ctxWinCtlWrite part win v => Sys2Proof.Machine.execCtxWinCtlWrite part win v s
  | .parkedResume mb slot => Sys2Proof.Machine.execParkedResume mb slot s
  | .hello k => Sys2Proof.Machine.execHello k s
  | .goodbye k => Sys2Proof.Machine.execGoodbye k s
  | .ping k => Sys2Proof.Machine.execPing k s
  | .beatStatus k => Sys2Proof.Machine.execBeatStatus k s
  | .peerOffsets k => Sys2Proof.Machine.execPeerOffsets k s
  | .partCreate k => Sys2Proof.Machine.execPartCreate k s
  | .partStage k => Sys2Proof.Machine.execPartStage k s
  | .partCommit k => Sys2Proof.Machine.execPartCommit k s
  | .partDestroy k => Sys2Proof.Machine.execPartDestroy k s
  | .partQuery k => Sys2Proof.Machine.execPartQuery k s
  | .spanSet k => Sys2Proof.Machine.execSpanSet k s
  | .drainCompleteFree part => Sys2Proof.Machine.execDrainCompleteFree part s
  | .ctxCreate k => Sys2Proof.Machine.execCtxCreate k s
  | .ctxDestroy k => Sys2Proof.Machine.execCtxDestroy k s
  | .ringBind k => Sys2Proof.Machine.execRingBind k s
  | .ringUnbind k => Sys2Proof.Machine.execRingUnbind k s
  | .ctxQuery k => Sys2Proof.Machine.execCtxQuery k s
  | .schedSet k => Sys2Proof.Machine.execSchedSet k s
  | .schedQuery k => Sys2Proof.Machine.execSchedQuery k s
  | .regSet k => Sys2Proof.Machine.execRegSet k s
  | .regQuery k => Sys2Proof.Machine.execRegQuery k s
  | .cbgSet k => Sys2Proof.Machine.execCbgSet k s
  | .baseLoad k => Sys2Proof.Machine.execBaseLoad k s
  | .baseSwap k => Sys2Proof.Machine.execBaseSwap k s
  | .seqOpen k => Sys2Proof.Machine.execSeqOpen k s
  | .seqClose k => Sys2Proof.Machine.execSeqClose k s
  | .kvReserveFill k => Sys2Proof.Machine.execKvReserveFill k s
  | .kvReserveDrain k => Sys2Proof.Machine.execKvReserveDrain k s
  | .kvReserveSetWater k => Sys2Proof.Machine.execKvReserveSetWater k s
  | .seqQuery k => Sys2Proof.Machine.execSeqQuery k s
  | .fenceAlloc k => Sys2Proof.Machine.execFenceAlloc k s
  | .fenceFree k => Sys2Proof.Machine.execFenceFree k s
  | .fenceExport k => Sys2Proof.Machine.execFenceExport k s
  | .fenceWithdraw k => Sys2Proof.Machine.execFenceWithdraw k s
  | .fenceImport k => Sys2Proof.Machine.execFenceImport k s
  | .importRequest port r => Sys2Proof.Machine.execImportRequest port r s
  | .importTimeout mb slot => Sys2Proof.Machine.execImportTimeout mb slot s
  | .wfgRead k => Sys2Proof.Machine.execWfgRead k s
  | .segSyncLoad k table => Sys2Proof.Machine.execSegSyncLoad k table s
  | .segSyncEntries k table => Sys2Proof.Machine.execSegSyncEntries k table s
  | .segSyncUnload k => Sys2Proof.Machine.execSegSyncUnload k s
  | .segCheck k table => Sys2Proof.Machine.execSegCheck k table s
  | .tlbInvalidate k => Sys2Proof.Machine.execTlbInvalidate k s
  | .tlbDrainEnd mb slot => Sys2Proof.Machine.execTlbDrainEnd mb slot s
  | .migrateMode k => Sys2Proof.Machine.execMigrateMode k s
  | .rangeSet k => Sys2Proof.Machine.execRangeSet k s
  | .maintStart k => Sys2Proof.Machine.execMaintStart k s
  | .maintQuery k => Sys2Proof.Machine.execMaintQuery k s
  | .cohModeSet k => Sys2Proof.Machine.execCohModeSet k s
  | .pwrBudgetSet k => Sys2Proof.Machine.execPwrBudgetSet k s
  | .pwrStateSet k => Sys2Proof.Machine.execPwrStateSet k s
  | .keyDerive k => Sys2Proof.Machine.execKeyDerive k s
  | .keyDestroy k => Sys2Proof.Machine.execKeyDestroy k s
  | .lcTransition k => Sys2Proof.Machine.execLcTransition k s
  | .wipeSlots => Sys2Proof.Machine.execWipeSlots s
  | .destroyRoot => Sys2Proof.Machine.execDestroyRoot s
  | .eraseUser verified => Sys2Proof.Machine.execEraseUser verified s
  | .burnState => Sys2Proof.Machine.execBurnState s
  | .dbgCertLoad k v => Sys2Proof.Machine.execDbgCertLoad k v s
  | .dbgCertClear k => Sys2Proof.Machine.execDbgCertClear k s
  | .dbgCertRevoke k => Sys2Proof.Machine.execDbgCertRevoke k s
  | .dbgChallenge k nonce => Sys2Proof.Machine.execDbgChallenge k nonce s
  | .dbgResponse k v => Sys2Proof.Machine.execDbgResponse k v s
  | .dirtyLogBegin k => Sys2Proof.Machine.execDirtyLogBegin k s
  | .dirtyLogFlip k => Sys2Proof.Machine.execDirtyLogFlip k s
  | .dirtyLogStop k => Sys2Proof.Machine.execDirtyLogStop k s
  | .ctxRevoke k => Sys2Proof.Machine.execCtxRevoke k s
  | .revokeDrainEnd ctx => Sys2Proof.Machine.execRevokeDrainEnd ctx s
  | .partReset k => Sys2Proof.Machine.execPartReset k s
  | .partResetConfig k => Sys2Proof.Machine.execPartResetConfig k s
  | .partitionResetComplete part => Sys2Proof.Machine.execPartitionResetComplete part s
  | .dumpStart k => Sys2Proof.Machine.execDumpStart k s
  | .dumpEnd bytes => Sys2Proof.Machine.execDumpEnd bytes s
  | .logRead k dumpBytes => Sys2Proof.Machine.execLogRead k dumpBytes s
  | .digestSet k => Sys2Proof.Machine.execDigestSet k s
  | .traceSet k => Sys2Proof.Machine.execTraceSet k s
  | .breakSet k => Sys2Proof.Machine.execBreakSet k s
  | .breakClear k => Sys2Proof.Machine.execBreakClear k s
  | .breakResume k => Sys2Proof.Machine.execBreakResume k s
  | .breakQuery k => Sys2Proof.Machine.execBreakQuery k s
  | .boardStatus k => Sys2Proof.Machine.execBoardStatus k s
  | .doorbell w => Sys2Proof.Machine.execDoorbell w s
  | .push offset bytes data => Sys2Proof.Machine.execPush offset bytes data s
  | .ringStateFill ring => Sys2Proof.Machine.execRingStateFill ring s
  | .descriptorFetch ring host => Sys2Proof.Machine.execDescriptorFetch ring host s
  | .nop ring => Sys2Proof.Machine.execNop ring s
  | .work ring engine => Sys2Proof.Machine.execWork ring engine s
  | .prefill ring => Sys2Proof.Machine.execPrefill ring s
  | .wait ring => Sys2Proof.Machine.execWait ring s
  | .signal ring => Sys2Proof.Machine.execSignal ring s
  | .workCompletion engine r => Sys2Proof.Machine.execWorkCompletion engine r s
  | .batchCompletion engine rows r => Sys2Proof.Machine.execBatchCompletion engine rows r s
  | .admissionCycle field => Sys2Proof.Machine.execAdmissionCycle field s
  | .seqCacheFill seq => Sys2Proof.Machine.execSeqCacheFill seq s
  | .frameBoundary env => Sys2Proof.Machine.execFrameBoundary env s
  | .floorWindowOpen => Sys2Proof.Machine.execFloorWindowOpen s
  | .floorDue => Sys2Proof.Machine.execFloorDue s
  | .floorWindowClose => Sys2Proof.Machine.execFloorWindowClose s
  | .thermalWindowClose onDie => Sys2Proof.Machine.execThermalWindowClose onDie s
  | .epochBoundary flashOk => Sys2Proof.Machine.execEpochBoundary flashOk s
  | .wfgScanEnd hostDescs => Sys2Proof.Machine.execWfgScanEnd hostDescs s
  | .maintenanceSlot bad => Sys2Proof.Machine.execMaintenanceSlot bad s
  | .rangeClearingDone range => Sys2Proof.Machine.execRangeClearingDone range s
  | .gateRequest g => Sys2Proof.Machine.execGateRequest g s
  | .tagFill addr ecc => Sys2Proof.Machine.execTagFill addr ecc s
  | .sharedPoisonRewrite group slot block copyEcc => Sys2Proof.Machine.execSharedPoisonRewrite group slot block copyEcc s
  | .tile t => Sys2Proof.Machine.execTile t s
  | .tableWalk field part key page ecc => Sys2Proof.Machine.execTableWalk field part key page ecc s
  | .faultWaitExpiry part slot => Sys2Proof.Machine.execFaultWaitExpiry part slot s
  | .tierMoveSwap activity host bad => Sys2Proof.Machine.execTierMoveSwap activity host bad s
  | .baseLoadEnd group slot bad => Sys2Proof.Machine.execBaseLoadEnd group slot bad s
  | .fetchShare m => Sys2Proof.Machine.execFetchShare m s
  | .fetchOwn m => Sys2Proof.Machine.execFetchOwn m s
  | .fetchTransient m => Sys2Proof.Machine.execFetchTransient m s
  | .upgrade m => Sys2Proof.Machine.execUpgrade m s
  | .storeThrough m => Sys2Proof.Machine.execStoreThrough m s
  | .spill m => Sys2Proof.Machine.execSpill m s
  | .release m => Sys2Proof.Machine.execRelease m s
  | .atomic m => Sys2Proof.Machine.execAtomic m s
  | .probeShare m => Sys2Proof.Machine.execProbeShare m s
  | .probeTake m => Sys2Proof.Machine.execProbeTake m s
  | .probeFlush m => Sys2Proof.Machine.execProbeFlush m s
  | .probeKill m => Sys2Proof.Machine.execProbeKill m s
  | .done m => Sys2Proof.Machine.execDone m s
  | .doneAck m => Sys2Proof.Machine.execDoneAck m s
  | .probeAck m => Sys2Proof.Machine.execProbeAck m s
  | .dataGo m => Sys2Proof.Machine.execDataGo m s
  | .bounce m => Sys2Proof.Machine.execBounce m s
  | .ticket m => Sys2Proof.Machine.execTicket m s
  | .fill m => Sys2Proof.Machine.execFill m s
  | .probeData m => Sys2Proof.Machine.execProbeData m s
  | .spillData m => Sys2Proof.Machine.execSpillData m s
  | .storeData m => Sys2Proof.Machine.execStoreData m s
  | .snoopTimeout home agent domain => Sys2Proof.Machine.execSnoopTimeout home agent domain s
  | .drainIdle part => Sys2Proof.Machine.execDrainIdle part s
  | .saveDone part => Sys2Proof.Machine.execSaveDone part s
  | .restoreDone part good => Sys2Proof.Machine.execRestoreDone part good s
  | .wake part => Sys2Proof.Machine.execWake part s
  | .d3hotEntry => Sys2Proof.Machine.execD3hotEntry s
  | .d0Return => Sys2Proof.Machine.execD0Return s
  | .droopTrip field sensor => Sys2Proof.Machine.execDroopTrip field sensor s
  | .stretchReassign field => Sys2Proof.Machine.execStretchReassign field s
  | .recoveryHoldEnd field => Sys2Proof.Machine.execRecoveryHoldEnd field s
  | .keepRampStep field => Sys2Proof.Machine.execKeepRampStep field s
  | .sensorMask field sensor => Sys2Proof.Machine.execSensorMask field sensor s
  | .markerWord src w lag inverted => Sys2Proof.Machine.execMarkerWord src w lag inverted s
  | .beatSourceLoss => Sys2Proof.Machine.execBeatSourceLoss s
  | .acquireTimeout => Sys2Proof.Machine.execAcquireTimeout s
  | .freeRunExpiry => Sys2Proof.Machine.execFreeRunExpiry s
  | .slewAdjust => Sys2Proof.Machine.execSlewAdjust s
  | .holdRelease env => Sys2Proof.Machine.execHoldRelease env s
  | .offsetPass port x => Sys2Proof.Machine.execOffsetPass port x s
  | .linkTrained port r => Sys2Proof.Machine.execLinkTrained port r s
  | .linkRequest g deadline drift => Sys2Proof.Machine.execLinkRequest g deadline drift s
  | .proxyUpdate fence value => Sys2Proof.Machine.execProxyUpdate fence value s
  | .proxyAbandon fence => Sys2Proof.Machine.execProxyAbandon fence s
  | .resetNotice port node incarnation => Sys2Proof.Machine.execResetNotice port node incarnation s
  | .linkDown port => Sys2Proof.Machine.execLinkDown port s
  | .peerUnreachableExpiry node => Sys2Proof.Machine.execPeerUnreachableExpiry node s
  | .watchdogFire engine answers => Sys2Proof.Machine.execWatchdogFire engine answers s
  | .replayTimeout engine => Sys2Proof.Machine.execReplayTimeout engine s
  | .coreWatchdogExpiry core => Sys2Proof.Machine.execCoreWatchdogExpiry core s
  | .heartbeatTimeout => Sys2Proof.Machine.execHeartbeatTimeout s
  | .chipReset env => Sys2Proof.Machine.execChipReset env s
  | .powerOn => Sys2Proof.Machine.execPowerOn s
  | .pcieReset => Sys2Proof.Machine.execPcieReset s
  | .digestWindowClose part probe => Sys2Proof.Machine.execDigestWindowClose part probe s
  | .breakpointHit core bp pc => Sys2Proof.Machine.execBreakpointHit core bp pc s
  | .sdaStuck => Sys2Proof.Machine.execSdaStuck s
  | .entdaa addr => Sys2Proof.Machine.execEntdaa addr s
  | .setdasa => Sys2Proof.Machine.execSetdasa s
  | .mctpControl => Sys2Proof.Machine.execMctpControl s
  | .getPdr => Sys2Proof.Machine.execGetPdr s
  | .getSensorReading sensor => Sys2Proof.Machine.execGetSensorReading sensor s
  | .getStateSensorReadings sensor => Sys2Proof.Machine.execGetStateSensorReadings sensor s
  | .setEventReceiver => Sys2Proof.Machine.execSetEventReceiver s
  | .bypass => Sys2Proof.Machine.execBypass s
  | .idcode => Sys2Proof.Machine.execIdcode s
  | .samplePreload => Sys2Proof.Machine.execSamplePreload s
  | .mbxAccess write offset v => Sys2Proof.Machine.execMbxAccess write offset v s
  | .extest => Sys2Proof.Machine.execExtest s
  | .intest => Sys2Proof.Machine.execIntest s
  | .internalScan => Sys2Proof.Machine.execInternalScan s
  | .memAccess addr write v => Sys2Proof.Machine.execMemAccess addr write v s
  | .powerLoss => Sys2Proof.Machine.execPowerLoss s
  | .controlDomainError unit syndrome => Sys2Proof.Machine.execControlDomainError unit syndrome s
  | .agentCacheError agent domain => Sys2Proof.Machine.execAgentCacheError agent domain s
  | .snoopFilterError home line readable => Sys2Proof.Machine.execSnoopFilterError home line readable s
  | .engineResetDone engine => Sys2Proof.Machine.execEngineResetDone engine s
  | .importAnswer mb slot a => Sys2Proof.Machine.execImportAnswer mb slot a s
  | .linkResponse port access answer => Sys2Proof.Machine.execLinkResponse port access answer s
  | .peerDriftAdvertisement port plumb drift => Sys2Proof.Machine.execPeerDriftAdvertisement port plumb drift s
  | .tapReset => Sys2Proof.Machine.execTapReset s
  | .traceLaneOvercurrent lane code => Sys2Proof.Machine.execTraceLaneOvercurrent lane code s
  | .traceFifoRoom packets => Sys2Proof.Machine.execTraceFifoRoom packets s

end Sys2Proof.Machine
end

