-- ==== Sys2Proof/Safety.lean ====
section
/-! DEFINITION. The terms in which statements about Lendor are written: which commands reach it, what a run may not do, and the
orders in which one-way state moves. -/

namespace Sys2Proof.Machine

/-! ### Which commands reach Lendor -/

/-- Every check of a list passes (R73). -/
abbrev Passes (l : List (Bool × Status × Nat)) : Prop := firstFail l = none

/-- A host access to BAR 0 reaches Lendor (R430, R490): it serves and is not in LOW. -/
def State.reaches (s : State) : Bool := s.alive && !s.out.low

/-- The command that a take finds, when Hawk runs, the head slot of the mailbox holds opcode `op`, checks 1 to 7 of R73
pass, and what the island serves has a MAC that matches (R459). -/
def State.serves (s : State) (k : Take) (op : Nat) : Option Cmd :=
  if s.alive = false ∨ s.coreStopped 0 = true then none
  else match s.headRef k.mb with
  | none => none
  | some ref =>
    let req := ((s.mbAt k.mb).slotAt ref.slot).req
    if reqOpcode req = op ∧ (opInfo op).isSome = true ∧ (s.takeSlot ref).checks k.mb req k.host = none ∧
        ¬(s.forged k ref = true ∧ islandServes k.mb op = true) then
      some (cmdOf ref req k.host)
    else none

/-- The slot of a mailbox that a reference names, when it still waits for the response (R62). -/
def State.waits (s : State) (ref : SlotRef) : Bool :=
  let x := (s.mbAt ref.mb).slotAt ref.slot
  x.ticket == ref.ticket && (x.st == .running || x.st == .parked)

/-- The command's effect is to answer with a status, `detail` and no payload, and nothing else changes (R21). -/
def Refuses (i : Instr) (s : State) (c : Cmd) (st : Status) (d : Nat) : Prop :=
  exec i s = .next ((s.takeSlot c.ref).respond c.ref st d 0 0 none)

/-- The command answers OK with a payload, and the state is `t` but for that response. -/
def Answers (i : Instr) (s : State) (c : Cmd) (t : State) (fields : List (Nat × Nat)) : Prop :=
  exec i s = .next (t.respond c.ref .ok 0 ((fields.map Prod.fst).sum / 8) (pack fields) none)

/-- The bytes of a response fit the space that the request gives (R66). -/
def Fits (c : Cmd) (fields : List (Nat × Nat)) : Prop := (fields.map Prod.fst).sum / 8 ≤ c.space

/-- A C command that passed its checks stages entries (group and payload each) and does nothing else, unless the set would hold more than 64 (R103). -/
def Stages (i : Instr) (s : State) (c : Cmd) (es : List (Nat × Nat)) : Prop :=
  let u := s.takeSlot c.ref
  let set := es.foldl (fun l e => placeEntry l (u.entryOf c e.1 e.2)) (u.mbAt c.ref.mb).staged
  (set.length ≤ 64 → Answers i s c (u.modMb c.ref.mb fun b => { b with staged := set }) []) ∧
  (64 < set.length → Refuses i s c .rejectedInconsistent 0x010B)

/-- The state in which a home hears a request: one sent on a TICKET takes the entry that the home holds for it (R404). -/
def State.heard (s : State) (m : Msg) : State :=
  if m.ticket then { s with coh := { s.coh with granted := s.coh.granted.upd [] m.dst fun l => l.filter fun x => x != (m.src, m.domain) } } else s

/-- A home orders a request at once (R395, R396, R402, R404, R413): it is well made, its domain is open and its engine not in reset, the gate lets it pass for `who`, and it finds an entry: that of
its TICKET, or, with room in its bucket, a free one, of a compatibility agent at a line that is not blocked. -/
def State.orders (s : State) (m : Msg) (who : Requester) : Prop :=
  s.goodReq m = true ∧ s.domainOpen m.domain = true ∧ (m.src < 128 → (s.engAt m.src).st ≠ .resetting) ∧ s.cohWho m = some who ∧
  s.gateStep who (m.line * 128) ⟨m.range, m.tweak⟩ (m.op == 0x08 || m.op == 0x0C || m.op == 0x10) = none ∧
  (m.ticket = true ∨ ((m.domain = 64 ∨ s.bucketEmpty (s.cohCharged m) (m.line * 128) = false) ∧ s.hasEntry m.dst m.domain m.src = true ∧
    (s.compatAgent m.src = true → s.lineBusy m.line = false)))

/-- The state with a request's transaction queued at its home. -/
def State.withTxn (s : State) (m : Msg) (near : Bool) : State :=
  { s with coh := { s.coh with txns := s.coh.txns ++ [(⟨m, .queued, [], none, false, false, near, false⟩ : Txn)] } }

/-- The message in flight that a row brings (`x`), and it may arrive: at a home it is well made (R397), and a snoop overtakes no message before it (R403, R404). -/
def State.inFlightMsg (s : State) (cls : Nat) (m : Msg) (x : Nat × Msg) : Prop :=
  s.coh.net.find? (sameMsg cls m) = some x ∧ (132 ≤ m.dst → m.dst ≤ 135 → m.reserved = 0 ∧ s.inDomain m.src m.domain = true) ∧
  (cls = 1 → s.overtakes m = false)

/-- The state with the first message taken out that a row brings. -/
def State.delivered (s : State) (cls : Nat) (m : Msg) : State := { s with coh := { s.coh with net := dropMsg (sameMsg cls m) s.coh.net } }

/-! ### What moves one way -/

/-- Every bit that a root row and its check row hold is held by another (R450, R466: a burned bit never goes back). -/
def rowKept (a b : RootRow) : Bool := a.root &&& b.root == a.root && a.check &&& b.check == a.check

/-- The fuses of one state of the island hold every bit that another holds: burned state bits, marks, anti-rollback, revocation and root rows; the hash of the
maker's key is the same. -/
def Sec.burnedFrom (b a : Sec) : Prop :=
  a.burned ≤ b.burned ∧ a.rollback ≤ b.rollback ∧ a.rev ≤ b.rev ∧ rowKept a.rowA b.rowA = true ∧ rowKept a.rowB b.rowB = true ∧
  a.makerHash = b.makerHash ∧ ∀ row i, (a.marks.get 0 row).testBit i = true → (b.marks.get 0 row).testBit i = true

/-- The canonical form of the stored lines: line numbers strictly rising, and no line listed that reads as an unwritten one. -/
def State.linesWf (s : State) : Bool := Tab.wf Line.init s.mem.line

end Sys2Proof.Machine

namespace Sys2Proof

open Machine

/-! ### The commands by how they reach Lendor -/

/-- The opcode of a command that Hawk takes from a mailbox, and the take. -/
def Instr.mailbox : Instr → Option (Take × Nat)
  | .hello k => some (k, 0x0001) | .goodbye k => some (k, 0x0002) | .ping k => some (k, 0x0003)
  | .beatStatus k => some (k, 0x0101) | .peerOffsets k => some (k, 0x0102)
  | .partCreate k => some (k, 0x0201) | .partStage k => some (k, 0x0202) | .partCommit k => some (k, 0x0203)
  | .partDestroy k => some (k, 0x0204) | .partQuery k => some (k, 0x0205) | .spanSet k => some (k, 0x0206)
  | .ctxCreate k => some (k, 0x0301) | .ctxDestroy k => some (k, 0x0302) | .ringBind k => some (k, 0x0303)
  | .ringUnbind k => some (k, 0x0304) | .ctxQuery k => some (k, 0x0305)
  | .schedSet k => some (k, 0x0401) | .schedQuery k => some (k, 0x0402)
  | .regSet k => some (k, 0x0501) | .regQuery k => some (k, 0x0502)
  | .cbgSet k => some (k, 0x0601) | .baseLoad k => some (k, 0x0602) | .baseSwap k => some (k, 0x0603)
  | .seqOpen k => some (k, 0x0701) | .seqClose k => some (k, 0x0702)
  | .kvReserveFill k => some (k, 0x0703) | .kvReserveDrain k => some (k, 0x0703) | .kvReserveSetWater k => some (k, 0x0703)
  | .seqQuery k => some (k, 0x0704)
  | .fenceAlloc k => some (k, 0x0801) | .fenceFree k => some (k, 0x0802)
  | .fenceExport k => some (k, 0x0803) | .fenceWithdraw k => some (k, 0x0803) | .fenceImport k => some (k, 0x0804)
  | .wfgRead k => some (k, 0x0805)
  | .segSyncLoad k _ => some (k, 0x0901) | .segSyncEntries k _ => some (k, 0x0901) | .segSyncUnload k => some (k, 0x0901)
  | .segCheck k _ => some (k, 0x0902) | .tlbInvalidate k => some (k, 0x0903) | .migrateMode k => some (k, 0x0904)
  | .rangeSet k => some (k, 0x0A01) | .maintStart k => some (k, 0x0A02) | .maintQuery k => some (k, 0x0A03)
  | .cohModeSet k => some (k, 0x0B01)
  | .pwrBudgetSet k => some (k, 0x0C01) | .pwrStateSet k => some (k, 0x0C02)
  | .keyDerive k => some (k, 0x0D01) | .keyDestroy k => some (k, 0x0D02) | .lcTransition k => some (k, 0x0D03)
  | .dbgCertLoad k _ => some (k, 0x0D04) | .dbgCertClear k => some (k, 0x0D04) | .dbgCertRevoke k => some (k, 0x0D04)
  | .dbgChallenge k _ => some (k, 0x0D05) | .dbgResponse k _ => some (k, 0x0D06)
  | .dirtyLogBegin k => some (k, 0x0E01) | .dirtyLogFlip k => some (k, 0x0E01) | .dirtyLogStop k => some (k, 0x0E02)
  | .ctxRevoke k => some (k, 0x0F01) | .partReset k => some (k, 0x0F02) | .partResetConfig k => some (k, 0x0F02)
  | .dumpStart k => some (k, 0x0F03) | .logRead k _ => some (k, 0x0F04)
  | .digestSet k => some (k, 0x1001) | .traceSet k => some (k, 0x1002)
  | .breakSet k => some (k, 0x1003) | .breakClear k => some (k, 0x1003) | .breakResume k => some (k, 0x1003)
  | .breakQuery k => some (k, 0x1003)
  | .boardStatus k => some (k, 0x1101)
  | _ => none

/-- Of the rows that share an opcode, the requests that are this row's. -/
def Instr.mine (i : Instr) (c : Machine.Cmd) : Bool :=
  match i with
  | .kvReserveFill _ => kvOp c == 0 || kvOp c == 3
  | .kvReserveDrain _ => kvOp c == 1
  | .kvReserveSetWater _ => kvOp c == 2
  | .fenceExport _ => !isWithdraw c
  | .fenceWithdraw _ => isWithdraw c
  | .segSyncLoad _ _ => segOp c == 0 || segOp c == 3
  | .segSyncEntries _ _ => segOp c == 1
  | .segSyncUnload _ => segOp c == 2
  | .dbgCertLoad _ _ => certLoad c
  | .dbgCertClear _ => c.f 0 0 8 == 1
  | .dbgCertRevoke _ => c.f 0 0 8 == 2
  | .dirtyLogBegin _ => c.f 0 0 1 == 0
  | .dirtyLogFlip _ => c.f 0 0 1 == 1
  | .partReset _ => !isConfig c
  | .partResetConfig _ => isConfig c
  | .breakSet _ => breakOp c == 0
  | .breakClear _ => breakOp c == 1
  | .breakResume _ => breakOp c == 2
  | .breakQuery _ => breakOp c == 3
  | _ => true

/-- The checks of the owning chapter whose first failure decides, for the commands that nothing but that failure answers (R73, check 8). -/
def Instr.ownChecks (i : Instr) (c : Machine.Cmd) (u : Machine.State) : List (Bool × Status × Nat) :=
  match i with
  | .partCreate _ => partCreateChecks c u | .partStage _ => partStageChecks c | .partCommit _ => partCommitChecks c
  | .partDestroy _ => partDestroyChecks c u | .partQuery _ => partQueryChecks c | .spanSet _ => spanSetChecks c
  | .ctxCreate _ => ctxCreateChecks c u | .ctxDestroy _ => ctxDestroyChecks c u | .ringBind _ => ringBindChecks c u
  | .ringUnbind _ => ringUnbindChecks c u | .ctxQuery _ => ctxQueryChecks c u
  | .schedSet _ => schedSetChecks c | .schedQuery _ => schedQueryChecks c u
  | .regSet _ => regSetChecks c | .regQuery _ => regQueryChecks c
  | .cbgSet _ => cbgSetChecks c | .baseLoad _ => baseLoadChecks c u | .baseSwap _ => baseSwapChecks c u
  | .seqOpen _ => seqOpenChecks c u | .seqClose _ => seqCloseChecks c u | .kvReserveFill _ => kvFillChecks c u
  | .kvReserveDrain _ => kvDrainChecks c u | .kvReserveSetWater _ => kvWaterChecks c u | .seqQuery _ => seqQueryChecks c u
  | .fenceAlloc _ => fenceAllocChecks c u | .fenceFree _ => fenceFreeChecks c u | .fenceExport _ => fenceExportChecks c u
  | .fenceWithdraw _ => fenceWithdrawChecks c u | .fenceImport _ => fenceImportChecks c u | .wfgRead _ => wfgReadChecks c
  | .segSyncLoad _ t => segLoadChecks t c u | .segSyncEntries _ t => segEntriesChecks t c u | .segSyncUnload _ => segUnloadChecks c u
  | .segCheck _ t => segCheckChecks t c u | .tlbInvalidate _ => tlbInvalidateChecks c u | .migrateMode _ => migrateModeChecks c
  | .rangeSet _ => rangeSetChecks c | .maintStart _ => maintStartChecks c u | .maintQuery _ => maintQueryChecks c u
  | .cohModeSet _ => cohModeSetChecks c | .pwrBudgetSet _ => pwrBudgetSetChecks c | .pwrStateSet _ => pwrStateSetChecks c u
  | .keyDerive _ => keyDeriveChecks c u | .keyDestroy _ => keyDestroyChecks c u | .lcTransition _ => lcTransitionChecks c u
  | .dbgCertLoad _ _ => dbgCertLoadChecks c u | .dbgCertClear _ => dbgCertClearChecks c u | .dbgCertRevoke _ => dbgCertRevokeChecks c u
  | .dbgChallenge _ _ => dbgChallengeChecks c u
  | .dirtyLogBegin _ => dirtyLogBeginChecks c u | .dirtyLogFlip _ => dirtyLogFlipChecks c u | .dirtyLogStop _ => dirtyLogStopChecks c u
  | .ctxRevoke _ => ctxRevokeChecks c u | .partReset _ => partResetChecks c u | .partResetConfig _ => partResetConfigChecks c u
  | .dumpStart _ => dumpStartChecks c u | .logRead _ _ => logReadChecks c
  | .digestSet _ => digestSetChecks c u | .traceSet _ => traceChecks c u
  | _ => []

/-- The commands that act while Lendor does not serve: power, the chip reset, and the TAP, whose logic no scan stops (R491). -/
def Instr.actsStopped : Instr → Bool
  | .chipReset _ | .powerOn | .powerLoss => true
  | .bypass | .idcode | .samplePreload | .mbxAccess _ _ _ | .extest | .intest | .internalScan | .memAccess _ _ _ | .tapReset => true
  | _ => false

end Sys2Proof
end

