-- ==== Sys2Proof/Certificates/Slice0/Obligations.lean ====
section
/-! DEFINITION. The statements about Lendor, for the provers. Each names the rules of spec/ that it rests on. -/

open Sys2Proof Sys2Proof.Machine

/-! ### The queue and what serves -/

/-- A step runs the command at the front of the queue on the state with the queue's rest. -/
def Obligations.StepRunsFront : Prop :=
  ∀ (s : State) (c : Instr) (rest : List Instr), s.pending = c :: rest → step s = exec c { s with pending := rest }

/-- On an empty queue the block idles: outside RESYNC the counter alone moves, by one tick at most, while a hold lasts the counter stands and its error alone moves towards 0, by one tick at most, and a Lendor that does not serve
stays as it is. The tick is the model's choice (DESIGN CHOICE, notes/assumptions/1.md). -/
def Obligations.EmptyQueueIdles : Prop :=
  ∀ s : State, s.pending = [] → ∃ t, step s = .next t ∧ t.pending = [] ∧ (s.alive = false → t = s) ∧
    (s.beat.hold = false → s.beat.plumb ≠ .resync → t = { s with beat := { s.beat with tick := t.beat.tick } } ∧
      (t.beat.tick = s.beat.tick ∨ t.beat.tick = s.beat.tick + 1)) ∧
    (s.beat.hold = true → t = { s with beat := { s.beat with err := t.beat.err } } ∧ (t.beat.err = s.beat.err ∨ (4 ≤ s.beat.err ∧ t.beat.err = s.beat.err - 4)))

/-- No command stops the machine, and none touches the queue: whatever the state, every command answers a next state with the queue as it was. While Lendor does not serve (`alive`: it has no power, its
clocks are stopped by a scan, or a chip reset is due), every command but power, the chip reset itself and those of the TAP changes nothing. -/
def Obligations.EveryCommandAnswers : Prop :=
  (∀ (i : Instr) (s : State), ∃ t, exec i s = .next t ∧ t.pending = s.pending) ∧
  (∀ (i : Instr) (s : State), i.actsStopped = false → s.alive = false → exec i s = .next s)

/-- What power-on leaves: no command waits, a chip reset with the cause of power-on is due, no window is open, Plumb stands in ACQUIRE
with the counter stopped at 0, every partition is FREE, no session is open, the log is empty with record number 1 next, and the stored lines have their canonical form. -/
def Obligations.ResetState : Prop :=
  State.reset.pending = [] ∧ State.reset.chip.pending = some (8, 0) ∧ State.reset.chip.opened = false ∧ State.reset.chip.secOnly = false ∧
  State.reset.beat.plumb = .acquire ∧ State.reset.beat.tick = 0 ∧ State.reset.beat.run = false ∧
  (∀ p, (State.reset.partAt p).st = .free) ∧ State.reset.log.recs = [] ∧ State.reset.log.next = 1 ∧
  (∀ m, (State.reset.mbAt m).open_ = false) ∧ State.reset.linesWf = true

/-! ### The mailbox window (02_mailboxes_and_tirok) -/

/-- The writes of the window that fill and submit a slot (R60, R61). A word write changes its word of the request area and no other; a write of MB_SUBMIT latches
the area, in the security and debug mailboxes with the MAC of its 256 bytes under slot 0 (R459), and queues the slot; both act on a FREE or DONE slot, and on another set MB_ERR instead. A 32-bit host write at the word's place is its word write, and one in a
response area has no effect. -/
def Obligations.RequestAreaAndSubmit : Prop :=
  (∀ (s : State) (mb : Mailbox) (slot word : Nat) (v : W32), s.reaches = true → s.mbOpen mb = true → slot < 8 → word < 64 →
    (let x := (s.mbAt mb).slotAt slot
     ((x.st = .free ∨ x.st = .done) → ∃ t a, exec (.requestAreaWrite mb slot word v) s = .next t ∧
        t = s.modMb mb (fun b => b.modSlot slot fun x => { x with area := a }) ∧ a.extractLsb' (32 * word) 32 = v ∧
        ∀ w, w < 64 → w ≠ word → a.extractLsb' (32 * w) 32 = x.area.extractLsb' (32 * w) 32) ∧
     (¬(x.st = .free ∨ x.st = .done) →
        exec (.requestAreaWrite mb slot word v) s = .next (s.modMb mb fun b => { b with dropped := true })))) ∧
  (∀ (s : State) (mb : Mailbox) (v : W32), s.reaches = true → s.mbOpen mb = true →
    (let n := v.toNat % 8
     let x := (s.mbAt mb).slotAt n
     ((x.st = .free ∨ x.st = .done) → ∃ t, exec (.mbSubmit mb v) s = .next t ∧ t = { s with box := t.box } ∧
        (t.mbAt mb).slotAt n = { x with st := .submitted, req := x.area, session := if (s.mbAt mb).open_ then (s.mbAt mb).session else 0,
                                        ticket := s.box.tickets + 1, mac := if mb = .security ∨ mb = .debug then s.pageMac x.area else 0 } ∧
        (t.mbAt mb).queue = (s.mbAt mb).queue ++ [n] ∧ t.box.tickets = s.box.tickets + 1 ∧
        (∀ m, m ≠ n → (t.mbAt mb).slotAt m = (s.mbAt mb).slotAt m) ∧ (∀ mb', mbNum mb' ≠ mbNum mb → t.mbAt mb' = s.mbAt mb')) ∧
     (¬(x.st = .free ∨ x.st = .done) → exec (.mbSubmit mb v) s = .next (s.modMb mb fun b => { b with badSubmit := true })))) ∧
  (∀ (s : State) (mb : Mailbox) (slot word : Nat) (v : W32), pageMailbox (1 + mbNum mb) = some mb → slot < 8 → word < 64 →
    exec (.registerWrite (4096 * (1 + mbNum mb) + 0x200 + 0x1C0 * slot + 4 * word) 32 v) s = exec (.requestAreaWrite mb slot word v) s) ∧
  (∀ (s : State) (n slot b : Nat) (v : W32), n < 67 → slot < 8 → 0x100 ≤ b → b < 0x1C0 →
    exec (.registerWrite (4096 * (1 + n) + 0x200 + 0x1C0 * slot + b) 32 v) s = .next s)

/-- A write of MB_DONE clears the written `done` bits, and frees exactly the DONE slots whose bit is written; a write of MB_CTRL takes `irq_en` and, on a
partition mailbox, a `vector` that the partition holds (another leaves the field and sets `bad_vector`), and with `end_session` 1 ends the session. -/
def Obligations.DoneClearAndControl : Prop :=
  (∀ (s : State) (mb : Mailbox) (v : W32), s.reaches = true → s.mbOpen mb = true → ∃ t,
    exec (.mbDoneClear mb v) s = .next t ∧ t = { s with box := { s.box with mbx := t.box.mbx } } ∧
    (∀ n, n < 8 → (t.mbAt mb).done.getLsbD n = ((s.mbAt mb).done.getLsbD n && !v.getLsbD n)) ∧
    (∀ n, n < 8 → (t.mbAt mb).slotAt n = (if v.getLsbD n = true ∧ ((s.mbAt mb).slotAt n).st = .done
      then { (s.mbAt mb).slotAt n with st := .free } else (s.mbAt mb).slotAt n))) ∧
  (∀ (s : State) (n : Nat) (v : W32), s.reaches = true → s.mbOpen (.part n) = true → v.getLsbD 1 = false →
    (let vec := v.toNat / 65536 % 4096
     let held := (s.partAt n).st ≠ .free ∧ (s.partAt n).record.hasVector vec = true
     (held → exec (.vectorWrite (.part n) v) s = .next ((s.modMb (.part n) fun b => { b with irqEn := v.getLsbD 0 }).modMb (.part n) fun b =>
        { b with vector := BitVec.ofNat 12 vec })) ∧
     (¬held → exec (.vectorWrite (.part n) v) s = .next ((s.modMb (.part n) fun b => { b with irqEn := v.getLsbD 0 }).modMb (.part n) fun b =>
        { b with badVector := true })))) ∧
  (∀ (s : State) (mb : Mailbox) (v : W32), s.reaches = true → s.mbOpen mb = true → v.getLsbD 1 = true → (s.mbAt mb).open_ = true →
    Tab.wf Slot.init (s.mbAt mb).slots = true → ∃ t,
    exec (.endSession mb v) s = .next t ∧ t = { s with box := { s.box with mbx := t.box.mbx } } ∧
    (t.mbAt mb).open_ = false ∧ (t.mbAt mb).staged = [] ∧ (t.mbAt mb).queue = [] ∧ (t.mbAt mb).irqEn = v.getLsbD 0 ∧
    ∀ n, (t.mbAt mb).slotAt n = (if ((s.mbAt mb).slotAt n).st = .submitted
      then { (s.mbAt mb).slotAt n with st := .free } else (s.mbAt mb).slotAt n))

/-- Host writes to the registers of BAR 0, as REGISTER_WRITE brings them. A write of any width but 32 bits changes nothing. A 32-bit write changes nothing in page 0, in the pages between
the mailbox pages and the telemetry window, and in a mailbox page at every offset but those of MB_CTRL, MB_SUBMIT, MB_DONE, MB_ERR and the request areas. Where Lendor takes host accesses, a write
of MB_ERR clears the bits that are written as 1 and no others. A write of CTX_WIN_SEL puts `v` bits [15:0] into the shadow of its window; a write of CTX_WIN_CTL makes the shadow, its bit 0 and its bits [15:8]
what the window shows from the next snapshot on; each changes its window alone, and a 32-bit REGISTER_WRITE at its offset is the same write. -/
def Obligations.RegisterWrites : Prop :=
  (∀ (s : State) (o w : Nat) (v : W32), w ≠ 32 → exec (.registerWrite o w v) s = .next s) ∧
  (∀ (s : State) (o : Nat) (v : W32), (o < 4096 ∨ (4096 * 68 ≤ o ∧ o < 0x100000)) → exec (.registerWrite o 32 v) s = .next s) ∧
  (∀ (s : State) (n o : Nat) (v : W32), n < 67 → o < 4096 → o ≠ 0 → o ≠ 4 → o ≠ 12 → o ≠ 16 →
    (∀ slot word, slot < 8 → word < 64 → o ≠ 0x200 + 0x1C0 * slot + 4 * word) → exec (.registerWrite (4096 * (1 + n) + o) 32 v) s = .next s) ∧
  (∀ (s : State) (n : Nat) (mb : Mailbox) (v : W32), pageMailbox (1 + n) = some mb → s.reaches = true → s.mbOpen mb = true →
    exec (.registerWrite (4096 * (1 + n) + 16) 32 v) s = .next (s.modMb mb fun b => { b with
      badSubmit := b.badSubmit && !v.getLsbD 0, dropped := b.dropped && !v.getLsbD 1
      badVector := b.badVector && !v.getLsbD 2, ended := b.ended && !v.getLsbD 3 })) ∧
  (∀ (s : State) (p w : Nat) (v : W32), s.reaches = true → s.chip.opened = true → p < 64 → w < 8 →
    (let sel := s.modWin p w fun x => { x with shadow := v.toNat % 65536 }
     let ctl := s.modWin p w fun x => { x with next := some (x.shadow, v.getLsbD 0, v.toNat / 256 % 256) }
     exec (.ctxWinSelWrite p w v) s = .next sel ∧ exec (.registerWrite (0x100000 + 4096 * p + 0x300 + 256 * w) 32 v) s = .next sel ∧
     exec (.ctxWinCtlWrite p w v) s = .next ctl ∧ exec (.registerWrite (0x100000 + 4096 * p + 0x304 + 256 * w) 32 v) s = .next ctl))

/-- TICK_LO and TICK_HI (R91, R92). A 32-bit read of TICK_LO returns counter bits [31:0] and latches bits [63:32] for its requester; one of TICK_HI returns what the last TICK_LO read of the same requester
latched, whatever another requester reads; a read of another width returns 0 and latches nothing; a write of either changes nothing; both are 0 at reset. -/
def Obligations.TickRegisters : Prop :=
  (∀ (s : State) (r : Nat), s.reaches = true → s.chip.opened = true → (s.readWindow r 32 0x40) = s.beat.tick.toNat % 2 ^ 32 ∧ ∃ t,
    exec (.tickLoRead ⟨r, 32⟩) s = .next t ∧ t = { s with beat := { s.beat with tickHi := t.beat.tickHi } } ∧
    t.readWindow r 32 0x44 = s.beat.tick.toNat / 2 ^ 32 ∧ ∀ q, q ≠ r → t.readWindow q 32 0x44 = s.readWindow q 32 0x44) ∧
  (∀ (s : State) (r : Nat), s.reaches = true → s.chip.opened = true → s.readWindow r 32 0x44 = (s.beat.tickHi.get 0 r).toNat) ∧
  (∀ (s : State) (r w : Nat), w ≠ 32 → s.readWindow r w 0x40 = 0 ∧ s.readWindow r w 0x44 = 0 ∧ exec (.tickLoRead ⟨r, w⟩) s = .next s) ∧
  (∀ (s : State) (v : W32), exec (.registerWrite 0x40 32 v) s = .next s ∧ exec (.registerWrite 0x44 32 v) s = .next s) ∧
  State.reset.beat.tick = 0 ∧ ∀ r, State.reset.beat.tickHi.get 0 r = 0

/-- MB_SLOT_STATE and MB_VERSION of every mailbox (R55, R58). The state of slot n stands in bits [3n+2:3n] by its code, and bits [31:24] read 0; `minor` and `major`, 0x03, read while a session is open, and
`open` tells whether one is; the rest of MB_VERSION reads 0. A write of either changes nothing; both are 0 at reset. -/
def Obligations.SlotStateAndVersionRead : Prop :=
  (∀ (s : State) (r n : Nat) (mb : Mailbox), s.reaches = true → s.chip.opened = true → n < 8 → mbNum mb < 67 → pageMailbox (1 + mbNum mb) = some mb →
    (let v := s.readWindow r 32 (4096 * (1 + mbNum mb) + 8)
     v / 2 ^ (3 * n) % 8 = slotCode ((s.mbAt mb).slotAt n).st ∧ v < 2 ^ 24) ∧
    ((s.mbAt mb).open_ = true → (let v := s.readWindow r 32 (4096 * (1 + mbNum mb) + 20)
      v % 256 = (s.mbAt mb).minor.toNat ∧ v / 256 % 256 = 3 ∧ v / 65536 = 1)) ∧
    ((s.mbAt mb).open_ = false → s.readWindow r 32 (4096 * (1 + mbNum mb) + 20) = 0)) ∧
  (∀ n, n < 67 → ∃ mb, pageMailbox (1 + n) = some mb ∧ mbNum mb = n) ∧
  (slotCode .free = 0 ∧ slotCode .submitted = 1 ∧ slotCode .running = 2 ∧ slotCode .parked = 3 ∧ slotCode .done = 4) ∧
  (∀ (s : State) (n : Nat) (v : W32), n < 67 → exec (.registerWrite (4096 * (1 + n) + 8) 32 v) s = .next s ∧ exec (.registerWrite (4096 * (1 + n) + 20) 32 v) s = .next s) ∧
  (∀ mb n, (State.reset.mbAt mb).open_ = false ∧ ((State.reset.mbAt mb).slotAt n).st = .free)

/-- A response fills its slot's response area, sets its state and its `done` bit, and sends the mailbox's vector on a new edge; it changes no
other slot, no other mailbox and, but for what is sent, nothing outside the mailboxes. -/
def Obligations.ResponseWritesItsSlot : Prop :=
  ∀ (s : State) (ref : SlotRef) (st : Status) (d len pay : Nat) (sid : Option W32), ∃ t, s.respond ref st d len pay sid = t ∧
    t = { s with box := { s.box with mbx := t.box.mbx }, out := { s.out with msix := t.out.msix, held := t.out.held, host := t.out.host } } ∧
    (∀ m, mbNum m ≠ mbNum ref.mb → t.mbAt m = s.mbAt m) ∧
    (∀ n, n ≠ ref.slot → (t.mbAt ref.mb).slotAt n = (s.mbAt ref.mb).slotAt n) ∧
    (let x := (s.mbAt ref.mb).slotAt ref.slot
     let y := (t.mbAt ref.mb).slotAt ref.slot
     let fits : Prop := len ≤ respSpace x.req
     y.req = x.req ∧ y.area = x.area ∧ y.ticket = x.ticket ∧ y.session = x.session ∧
     y.resp.opcode = BitVec.ofNat 16 (reqOpcode x.req) ∧ y.resp.tag = BitVec.ofNat 32 (reqFld x.req 4 0 32) ∧ y.resp.doneFrame = s.nowFrame ∧
     (fits → y.resp.status = st ∧ y.resp.detail = BitVec.ofNat 16 d) ∧
     (¬fits → y.resp.status = .rejectedInconsistent ∧ y.resp.detail = 0x0008 ∧ y.resp.payload = x.resp.payload ∧ t.out.host = s.out.host) ∧
     y.st = (if fits ∧ st = .deferred then .parked else .done)) ∧
    (ref.slot < 8 → (t.mbAt ref.mb).done.getLsbD ref.slot = true)

/-- The checks of a mailbox command decide in their order. A request that fails one of checks 1 to 7 is turned away with the status and `detail` of the first that fails (HELLO with its payload, R69); where
those pass and the request is the row's, the first failing check of the owning chapter is its answer, without a payload. In both cases the answer is all that the command changes. -/
def Obligations.ChecksDecide : Prop :=
  (∀ (i : Instr) (k : Take) (op : Nat) (s : State) (ref : SlotRef) (st : Status) (d : Nat), i.mailbox = some (k, op) →
    s.alive = true → s.coreStopped 0 = false → s.headRef k.mb = some ref →
    (let req := ((s.mbAt k.mb).slotAt ref.slot).req
     reqOpcode req = op → (s.takeSlot ref).checks k.mb req k.host = some (st, d) →
       exec i s = .next ((s.takeSlot ref).turnAway ref op st d))) ∧
  (∀ (i : Instr) (k : Take) (op : Nat) (s : State) (c : Cmd) (st : Status) (d : Nat), i.mailbox = some (k, op) → s.serves k op = some c →
    i.mine c = true → firstFail (i.ownChecks c (s.takeSlot c.ref)) = some (st, d) → Refuses i s c st d)

/-- HELLO, GOODBYE and PING that pass their checks. HELLO, where no other slot of its mailbox is RUNNING or PARKED, opens a session there with the next session ID, the caller's ID and the lower of
`hi_minor` and 4: it is answered OK with the new ID, one record joins the log, slots that were SUBMITTED under an open session are FREE, and neither partitions, tenants, memory nor the beat change, nor, but
on the manager mailbox, the island. GOODBYE is answered OK and ends its mailbox's session: no session is open, nothing is staged and nothing waits there. PING is answered OK, and that is its one effect.
A chip reset that is due leaves no session ID given. -/
def Obligations.SessionCommands : Prop :=
  (∀ (s : State) (k : Take) (c : Cmd), s.serves k 0x0001 = some c → c.zeros [(3, 0, 8), (8, 0, 64)] = true → c.f 1 0 8 ≤ c.f 2 0 8 →
    c.f 0 0 8 = 3 → c.f 1 0 8 ≤ 4 → 32 ≤ c.space →
    ((s.takeSlot c.ref).mbAt c.ref.mb).slots.all (fun e => e.1 == c.ref.slot || !(e.2.st == .running || e.2.st == .parked)) = true → ∃ t,
    exec (.hello k) s = .next t ∧ (t.mbAt c.ref.mb).open_ = true ∧ (t.mbAt c.ref.mb).session = s.box.sessions + 1 ∧
    t.box.sessions = s.box.sessions + 1 ∧ (t.mbAt c.ref.mb).minor = BitVec.ofNat 8 (min (c.f 2 0 8) 4) ∧
    (t.mbAt c.ref.mb).caller = BitVec.ofNat 32 (c.f 4 0 32) ∧
    ((t.mbAt c.ref.mb).slotAt c.ref.slot).resp.status = .ok ∧ ((t.mbAt c.ref.mb).slotAt c.ref.slot).resp.session = (s.box.sessions + 1).setWidth 8 ∧
    ((t.mbAt c.ref.mb).slotAt c.ref.slot).st = .done ∧ t.log.next = s.log.next + 1 ∧
    ((s.mbAt c.ref.mb).open_ = true → Tab.wf Slot.init (s.mbAt c.ref.mb).slots = true → ∀ n, n ≠ c.ref.slot →
      ((s.mbAt c.ref.mb).slotAt n).st = .submitted → ((t.mbAt c.ref.mb).slotAt n).st = .free) ∧
    t.org = s.org ∧ t.ten = s.ten ∧ t.mem = s.mem ∧ t.beat = s.beat ∧ (k.mb ≠ .manager → t.sec = s.sec)) ∧
  (∀ (s : State) (k : Take) (c : Cmd), s.serves k 0x0002 = some c → ∃ t,
    exec (.goodbye k) s = .next t ∧ t = ((s.takeSlot c.ref).endSession c.ref.mb false).respond c.ref .ok 0 0 0 none ∧
    (t.mbAt c.ref.mb).open_ = false ∧ (t.mbAt c.ref.mb).staged = [] ∧ (t.mbAt c.ref.mb).queue = []) ∧
  (∀ (s : State) (k : Take) (c : Cmd), s.serves k 0x0003 = some c → exec (.ping k) s = .next ((s.takeSlot c.ref).respond c.ref .ok 0 0 0 none)) ∧
  (∀ (s : State) (env : StartEnv), s.chip.powered = true → s.chip.pending.isSome = true → ∃ t, exec (.chipReset env) s = .next t ∧ t.box.sessions = 0)

/-! ### Partitions (04_partitions) -/

/-- A C command that passes its checks puts its entries into the staged set of its mailbox, in the place of an entry of the same command, partition and group, answers OK, and changes nothing else; where the
set would hold more than 64 entries it is refused. PART_STAGE makes one entry per group of its mask; SPAN_SET, SCHED_SET, REG_SET, CBG_SET, MIGRATE_MODE, RANGE_SET, COH_MODE_SET,
PWR_BUDGET_SET and DIGEST_SET make one each. PART_COMMIT leaves the staged set empty in each of its outcomes: a set that fails a check is answered with that check's status, one whose frame cannot be met is refused, an empty one is answered OK;
a set that passes and whose answer fits its space waits for its boundary as a pending set, and is not answered yet. -/
def Obligations.StagedSets : Prop :=
  (∀ (s : State) (k : Take) (c : Cmd),
    (s.serves k 0x0202 = some c → Passes (partStageChecks c) → Stages (.partStage k) s c ((stageGroups c.pay).map fun g => (g, c.pay))) ∧
    (s.serves k 0x0206 = some c → Passes (spanSetChecks c) → Stages (.spanSet k) s c [(0, c.pay)]) ∧
    (s.serves k 0x0401 = some c → Passes (schedSetChecks c) →
      Stages (.schedSet k) s c [(c.f 0 0 8 + (if c.f 0 0 8 = 1 then 4 * c.f 2 0 16 else 0), c.pay)]) ∧
    (s.serves k 0x0501 = some c → Passes (regSetChecks c) → Stages (.regSet k) s c [(regGroup c.pay, c.pay)]) ∧
    (s.serves k 0x0601 = some c → Passes (cbgSetChecks c) →
      Stages (.cbgSet k) s c [(c.f 0 0 8 + 4 * c.f 2 0 10 + (if c.f 0 0 8 = 1 ∨ c.f 0 0 8 = 3 then 4096 * c.f 4 0 16 else 0), c.pay)]) ∧
    (s.serves k 0x0904 = some c → Passes (migrateModeChecks c) → Stages (.migrateMode k) s c [(0, c.pay)]) ∧
    (s.serves k 0x0A01 = some c → Passes (rangeSetChecks c) → Stages (.rangeSet k) s c [(c.f 0 0 7, c.pay)]) ∧
    (s.serves k 0x0B01 = some c → Passes (cohModeSetChecks c) →
      Stages (.cohModeSet k) s c [(if c.f 0 0 8 = 0 then c.f 1 0 1 else 2, c.pay)]) ∧
    (s.serves k 0x0C01 = some c → Passes (pwrBudgetSetChecks c) → Stages (.pwrBudgetSet k) s c [(c.f 0 0 8, c.pay)]) ∧
    (s.serves k 0x1001 = some c → Passes (digestSetChecks c (s.takeSlot c.ref)) → Stages (.digestSet k) s c [(c.f 0 0 3, c.pay)])) ∧
  (∀ (s : State) (k : Take) (c : Cmd), s.serves k 0x0203 = some c → Passes (partCommitChecks c) →
    (let u := s.takeSlot c.ref
     let set := (u.mbAt c.ref.mb).staged
     let v := u.modMb c.ref.mb fun b => { b with staged := [] }
     (∀ i st d, u.commitChecks set = some (i, st, d) →
       exec (.partCommit k) s = .next (v.respond c.ref st d 16 (commitPay 0 (v.cmdSeq c) i set.length d) none)) ∧
     (u.commitChecks set = none → u.effectFrame (c.f 0 0 32) = none →
       exec (.partCommit k) s = .next (v.respond c.ref .rejectedInconsistent 0x010D 16 (commitPay 0 (v.cmdSeq c) 0xFF set.length 0x010D) none)) ∧
     (∀ b, u.commitChecks set = none → u.effectFrame (c.f 0 0 32) = some b → set = [] →
       exec (.partCommit k) s = .next (v.respond c.ref .ok 0 16 (commitPay 0 (v.cmdSeq c) 0xFF 0 0) none)) ∧
     (∀ b, u.commitChecks set = none → u.effectFrame (c.f 0 0 32) = some b → set ≠ [] → 16 ≤ c.space →
       exec (.partCommit k) s = .next { v with box := { v.box with sets := v.box.sets ++ [⟨set, b, c.ref, c.part, none⟩] } })))

/-- PART_CREATE, PART_DESTROY, DRAIN_COMPLETE_FREE and PART_QUERY. A PART_CREATE that passes its checks reserves its number (with 0xFF the lowest FREE one): that partition is CREATING at the next generation with the
record of the request and `config_seq` 0, and the create joins the pending sets; no other partition, and no context, ring, sequence, fence, engine, line, key, record of the log nor the beat changes, and nothing is sent. A PART_DESTROY that passes
closes the partition's dirty-page logging and begins its destruction (`destroyPart`, R116) without an answer yet. DRAIN_COMPLETE_FREE on a DESTROYING partition all of whose engines are idle and quiet leaves it FREE with an empty record. PART_QUERY that passes and fits answers with the view that it asks for and changes nothing. -/
def Obligations.PartitionLife : Prop :=
  (∀ (s : State) (k : Take) (c : Cmd) (n : Nat), s.serves k 0x0201 = some c → Passes (partCreateChecks c (s.takeSlot c.ref)) → 8 ≤ c.space →
    (if c.f 4 0 8 = 0xFF then parts.find? (fun p => (s.partAt p).st == .free) = some n else n = c.f 4 0 8) →
    ∃ u, exec (.partCreate k) s = .next u ∧
    ((u.partAt n).st = .creating ∧ (u.partAt n).gen = nextGen (s.partAt n).gen ∧ (u.partAt n).record = PartRec.zero.withAll c.pay ∧
     (u.partAt n).configSeq = 0 ∧ (∀ m, m ≠ n → u.partAt m = s.partAt m) ∧
     u.box.sets = s.box.sets ++ [⟨[], s.earliest, c.ref, 0xFF, some n⟩] ∧
     u.ten = s.ten ∧ u.fen = s.fen ∧ u.eng = s.eng ∧ u.mem = s.mem ∧ u.sec = s.sec ∧ u.beat = s.beat ∧ u.log = s.log ∧ u.out = s.out)) ∧
  (∀ (s : State) (k : Take) (c : Cmd), s.serves k 0x0204 = some c → Passes (partDestroyChecks c (s.takeSlot c.ref)) → 8 ≤ c.space →
    exec (.partDestroy k) s = .next (((s.takeSlot c.ref).closeLog c.part).destroyPart c.part (c.f 0 0 32) (some c.ref))) ∧
  (∀ (s : State) (p : Nat) (d : DestroyRun), s.alive = true → (s.partAt p).st = .destroying → (s.partAt p).destroy = some d →
    ((bitsOf ((s.partAt p).drainEng ||| (s.partAt p).record.engines)).all fun e => (s.engAt e).idle && s.engQuiet e) = true →
    ∃ u, exec (.drainCompleteFree p) s = .next u ∧ (u.partAt p).st = .free ∧ (u.partAt p).record = PartRec.zero ∧ (u.partAt p).destroy = none) ∧
  (∀ (s : State) (k : Take) (c : Cmd), s.serves k 0x0205 = some c → Passes (partQueryChecks c) →
    (let u := s.takeSlot c.ref
     let fields := queryHead u c.part ++ recordFields ((if c.f 0 0 8 = 1 then u.projected else u).partAt c.part).record
     Fits c fields → Answers (.partQuery k) s c u fields))

/-! ### Contexts and rings (05_contexts_rings_doorbells) -/

/-- CTX_CREATE, CTX_DESTROY and CTX_QUERY that pass their checks. CTX_CREATE makes the named context (with `any` 1 the one that the search for a FREE one gives) LIVE at the next generation, with the owner of the request and the
partition's `default_weight`, and answers with its number and generation; no other context, no ring, no sequence and no group changes. CTX_DESTROY frees the slot, keeps its generation, empties its reserve lists and
takes it out of every group; no other context, no ring and no sequence changes. CTX_QUERY, where its view fits, answers with it and changes nothing. -/
def Obligations.ContextCommands : Prop :=
  (∀ (s : State) (k : Take) (c : Cmd) (n : Nat), s.serves k 0x0301 = some c → Passes (ctxCreateChecks c (s.takeSlot c.ref)) → 8 ≤ c.space →
    (if c.f 2 0 1 = 1 then s.freeCtx c.part = some n else n = c.f 0 0 16) → ∃ u,
    Answers (.ctxCreate k) s c u [(16, n), (8, (nextGen (s.ctxAt n).gen).toNat), (40, 0)] ∧
    u = { s.takeSlot c.ref with ten := u.ten, obs := u.obs } ∧
    u.ctxAt n = { Ctx.init with st := .live, gen := nextGen (s.ctxAt n).gen, owner := BitVec.ofNat 32 (c.f 4 0 32),
                                weight := (s.schedAt c.part).defWeight, revoke := (s.ctxAt n).revoke } ∧
    (∀ m, m ≠ n → u.ctxAt m = s.ctxAt m) ∧ u.ten.ring = s.ten.ring ∧ u.ten.seq = s.ten.seq ∧ u.ten.group = s.ten.group) ∧
  (∀ (s : State) (k : Take) (c : Cmd), s.serves k 0x0302 = some c → Passes (ctxDestroyChecks c (s.takeSlot c.ref)) → ∃ u,
    Answers (.ctxDestroy k) s c u [] ∧ u = { s.takeSlot c.ref with ten := u.ten } ∧
    (let n := c.f 0 0 16
     u.ctxAt n = { Ctx.init with gen := (s.ctxAt n).gen, revoke := (s.ctxAt n).revoke } ∧ (∀ m, m ≠ n → u.ctxAt m = s.ctxAt m) ∧ u.reserveAt n = Reserve.init ∧
     (∀ g, Tab.wf Group.init s.ten.group = true → (u.groupAt g).members.get none n = none) ∧ u.ten.ring = s.ten.ring ∧ u.ten.seq = s.ten.seq)) ∧
  (∀ (s : State) (k : Take) (c : Cmd), s.serves k 0x0305 = some c → Passes (ctxQueryChecks c (s.takeSlot c.ref)) →
    (let u := s.takeSlot c.ref
     let fields := if c.f 0 0 8 = 0 then ctxView u c.part (c.f 4 0 16) else ringView u (c.f 4 0 20)
     Fits c fields → Answers (.ctxQuery k) s c u fields))

/-- RING_BIND and RING_UNBIND that pass their checks. RING_BIND answers OK and makes the ring ACTIVE with the context, format, size, home, class, vector and addresses of the request, nothing queued or running, and every index at `start_index`; no
context changes, and nothing outside the units that hold contexts, rings and fences. RING_UNBIND turns another ring to UNBINDING (with `discard` 1 as `discardRing` says), and the ring unbinds at once when nothing of it
is left (`unbindCheck`); on a ring that unbinds already the discarding form takes over and answers with the ring's `done` (that payload is the model's choice, DESIGN CHOICE, notes/assumptions/91.md). After each the floor is
taken from a context that no longer meets its conditions (`floorSettle`). -/
def Obligations.RingCommands : Prop :=
  (∀ (s : State) (k : Take) (c : Cmd), s.serves k 0x0303 = some c → Passes (ringBindChecks c (s.takeSlot c.ref)) → ∃ u,
    Answers (.ringBind k) s c u [] ∧ u = { s.takeSlot c.ref with ten := u.ten, fen := u.fen } ∧ u.ten.ctx = s.ten.ctx ∧
    (let r := u.ringAt (c.f 0 0 20)
     let i := BitVec.ofNat 32 (c.f 32 0 32)
     r.st = .active ∧ r.ctx = c.f 4 0 16 ∧ r.ctxGen = (s.ctxAt (c.f 4 0 16)).gen ∧ r.fmt = c.f 8 0 8 ∧ r.size = c.f 9 0 5 ∧ r.home = c.f 7 0 2 ∧
     r.cls = c.f 10 0 3 ∧ r.vector = c.f 12 0 16 ∧ r.descAddr = c.f 16 0 64 ∧ r.cqAddr = c.f 24 0 64 ∧ r.start = i ∧ r.prod = i ∧ r.fetch = i ∧
     r.done = i ∧ r.queue = [] ∧ r.running = [])) ∧
  (∀ (s : State) (k : Take) (c : Cmd), s.serves k 0x0304 = some c → Passes (ringUnbindChecks c (s.takeSlot c.ref)) → 16 ≤ c.space →
    (s.ringAt (c.f 0 0 20)).st ≠ .unbinding →
    (let r := c.f 0 0 20
     let u := (s.takeSlot c.ref).modRing r fun x => { x with st := .unbinding, unbind := some ⟨c.ref, false, x.prod, 0⟩ }
     exec (.ringUnbind k) s = .next ((if c.f 3 7 1 = 1 then u.discardRing r else u).unbindCheck r).floorSettle)) ∧
  (∀ (s : State) (k : Take) (c : Cmd), s.serves k 0x0304 = some c → Passes (ringUnbindChecks c (s.takeSlot c.ref)) → 16 ≤ c.space →
    (s.ringAt (c.f 0 0 20)).st = .unbinding →
    (let r := c.f 0 0 20
     exec (.ringUnbind k) s = .next ((((s.takeSlot c.ref).discardRing r).respond c.ref .ok 0 16
       (pack [(32, (s.ringAt r).done.toNat), (96, 0)]) none).unbindCheck r).floorSettle))

/-! ### Queries, bases and sequences (06 to 08) -/

/-- BEAT_STATUS, PEER_OFFSETS, SCHED_QUERY, REG_QUERY and SEQ_QUERY that pass their checks and whose view fits the response answer with the view that the request asks for. Nothing else changes. -/
def Obligations.QueriesOnlyAnswer : Prop :=
  ∀ (s : State) (k : Take) (c : Cmd),
    (let u := s.takeSlot c.ref
     (s.serves k 0x0101 = some c → 48 ≤ c.space → Answers (.beatStatus k) s c u
       [(32, u.beat.stateReg), (32, u.faultsNow), (64, u.beat.tick.toNat), (64, u.beat.lastLock.toNat), (32, u.beat.switches.toNat),
        (32, u.beat.errQt.toNat), (18, u.beat.ports.toNat), (14, 0), (16, u.beat.trim.toNat), (80, 0)]) ∧
     (s.serves k 0x0102 = some c → 160 ≤ c.space → Answers (.peerOffsets k) s c u
       ([(8, 18), (24, 0), (18, ((List.range 18).map fun p => bit (u.net.ports.get Port.init p).up * 2 ^ p).sum), (14, 0), (64, u.net.measured.toNat)] ++
        (List.range 18).flatMap fun p => (u.net.ports.get Port.init p).entry)) ∧
     (∀ fields, fields = (if c.f 0 0 8 = 0 then schedView u c.part else ctxSchedView u c.part (c.f 4 0 16)) → s.serves k 0x0402 = some c →
       Passes (schedQueryChecks c u) → Fits c fields → Answers (.schedQuery k) s c u fields) ∧
     (∀ fields, fields = [(8, c.part), (8, (u.partAt c.part).gen.toNat), (16, 0), (32, u.frame)] ++
         regView u c.part (c.f 0 0 8) (c.f 1 0 8) (c.f 2 0 8) → s.serves k 0x0502 = some c → Passes (regQueryChecks c) → Fits c fields →
       Answers (.regQuery k) s c u fields) ∧
     (∀ fields, fields = (if c.f 0 0 8 = 0 then seqView u (c.f 4 0 17) else if c.f 0 0 8 = 1 then reserveView u (c.f 4 0 16)
         else [(17, c.f 4 0 17), (15, 0), (16, (u.seqAt (c.f 4 0 17)).pages.length), (16, 0)] ++
           ((u.seqAt (c.f 4 0 17)).pages.drop (c.f 2 0 10)).map fun e => (32, e)) → s.serves k 0x0704 = some c →
       Passes (seqQueryChecks c u) → Fits c fields → Answers (.seqQuery k) s c u fields))

/-- BASE_LOAD, BASE_SWAP and BASE_LOAD_END. A BASE_LOAD that passes its checks turns the slot to LOADING with the base, addresses and length of the request and takes a maintenance activity of code 4 on the ranges of both extents (`startActivity`); a BASE_SWAP
that passes leaves the group a swap that waits for its frame, and is not answered yet. BASE_LOAD_END of a load that runs reads the lines of its copy (`loadLines`), and leaves its activity complete with what it read and how it ended; while a dump
runs, or the maintenance bucket has not yet paid for the lines read, it changes nothing. -/
def Obligations.BaseCommands : Prop :=
  (∀ (s : State) (k : Take) (c : Cmd), s.serves k 0x0602 = some c → Passes (baseLoadChecks c (s.takeSlot c.ref)) →
    (let u := s.takeSlot c.ref
     let n := c.f 2 0 1
     let fast := c.f 8 0 64
     let copy := c.f 16 0 64
     let len := c.f 24 0 64
     let ranges := ((u.extentSeg c.part fast len 2).toList.map fun k => (u.segAt k).keyFast) ++
       (u.extentSeg c.part copy len 1).toList.map fun k => (u.segAt k).keySlow
     let t := u.modGroup (c.f 0 0 10) fun x => x.modSlot n fun _ =>
       { BaseSlot.init with st := .loading, baseId := BitVec.ofNat 32 (c.f 4 0 32), fast := fast, copy := copy, length := len, ref := some c.ref }
     exec (.baseLoad k) s = .next (u.startActivity t c { Activity.new 4 ranges c.part with group := c.f 0 0 10, slot := n } 24))) ∧
  (∀ (s : State) (k : Take) (c : Cmd) (b : Nat), s.serves k 0x0603 = some c → Passes (baseSwapChecks c (s.takeSlot c.ref)) → 16 ≤ c.space →
    s.effectFrame (c.f 4 0 32) = some b →
    exec (.baseSwap k) s = .next ((s.takeSlot c.ref).modGroup (c.f 0 0 10) fun x => { x with swap := some ⟨c.ref, c.f 2 0 1, b, false, 0, 0, 0, 0, 0⟩ })) ∧
  (∀ (s : State) (g n : Nat) (bad : List (Nat × EccEvent)) (a : Activity), s.alive = true →
    s.mem.acts.find? (fun a => a.code == 4 && a.group == g && a.slot == n && a.running && !a.complete) = some a →
    (s.log.run ≠ none → exec (.baseLoadEnd g n bad) s = .next s) ∧
    (s.log.run = none → (let slot := (s.groupAt g).slot n
      let o := s.loadLines a.part slot bad 0 (List.range (slot.length / 128))
      let f := o.2.2.getD (.ok, 0)
      let unpaid : Prop := a.paced = false ∧ (o.2.2 = none ∨ a.moved < 256 * o.2.1)
      (unpaid → exec (.baseLoadEnd g n bad) s = .next s) ∧
      (¬unpaid → exec (.baseLoadEnd g n bad) s = .next (o.1.modAct a.id fun a => { a with complete := true, lines := o.2.1, fixed := statusCode f.1, dest := f.2 })))))

/-- SEQ_OPEN and SEQ_CLOSE that pass their checks, and SEQ_CACHE_FILL. SEQ_OPEN opens the free slot of the partition that the search gives, FILLING at its next generation with the fields of the request, answers with its number, generation and home, and changes no other sequence; SEQ_CLOSE of a slot with nothing
in flight ends it (`endSeq`), and of another leaves it CLOSING without an answer yet; of both the chunks that wait end STALE_GENERATION, and the floor is taken from a context that no longer meets its conditions. SEQ_CACHE_FILL brings a slot in use into its home field's cache of 2,048, from which the least recently
admitted leaves where it is full, and changes nothing else. -/
def Obligations.SequenceCommands : Prop :=
  (∀ (s : State) (k : Take) (c : Cmd) (n : Nat), s.serves k 0x0701 = some c → Passes (seqOpenChecks c (s.takeSlot c.ref)) → 16 ≤ c.space →
    s.freeSeq c.part = some n → ∃ u,
    Answers (.seqOpen k) s c u [(17, n), (15, 0), (8, (nextGen (s.seqAt n).gen).toNat), (2, s.seqHome c.part), (22, 0), (32, s.nowFrame.toNat), (32, 0)] ∧
    u = { s.takeSlot c.ref with ten := { s.ten with seq := u.ten.seq } } ∧ (∀ m, m ≠ n → u.seqAt m = s.seqAt m) ∧
    u.seqAt n = { Seq.init with
      st := .filling, irqEach := c.f 3 3 1 == 1, fallback := c.f 3 4 1 == 1, gen := nextGen (s.seqAt n).gen, ctx := c.f 0 0 16, group := c.f 4 0 10
      home := s.seqHome c.part, cls := c.f 3 0 3, deadline := c.f 6 0 16, tokLines := c.f 16 0 9, fastPages := c.f 18 0 11, vector := c.f 20 0 16
      prompt := c.f 8 0 32, maxLen := c.f 12 0 32, logSize := c.f 22 0 5, logAddr := c.f 24 0 64, openFrame := s.nowFrame }) ∧
  (∀ (s : State) (k : Take) (c : Cmd), s.serves k 0x0702 = some c → Passes (seqCloseChecks c (s.takeSlot c.ref)) →
    (let n := c.f 0 0 17
     let t := (s.takeSlot c.ref).dropChunks n .staleGeneration
     ((s.seqAt n).inFlight = true → exec (.seqClose k) s = .next (t.modSeq n fun q =>
       { q with st := .closing, stall := false, close := some (c.ref, c.f 5 0 1 == 1) }).floorSettle) ∧
     ((s.seqAt n).inFlight = false → exec (.seqClose k) s = .next (t.endSeq n (some c.ref) (c.f 5 0 1 == 1)).floorSettle))) ∧
  (∀ (s : State) (n : Nat), s.alive = true → (s.seqAt n).st ≠ .free → s.coreStopped (1 + (s.seqAt n).home) = false → ∃ u,
    exec (.seqCacheFill n) s = .next u ∧ u = { s with ten := { s.ten with seqCache := u.ten.seqCache } } ∧
    (let l := s.ten.seqCache.get [] (s.seqAt n).home
     let m := u.ten.seqCache.get [] (s.seqAt n).home
     n ∈ m ∧ (l.contains n = true → m = l) ∧ (l.contains n = false → l.length < 2048 → m = l ++ [n]) ∧
     (l.contains n = false → 2048 ≤ l.length → m = l.drop 1 ++ [n])) ∧
    ∀ f, f ≠ (s.seqAt n).home → u.ten.seqCache.get [] f = s.ten.seqCache.get [] f)

/-- KV_RESERVE_FILL by its `op`, where its checks pass. FILL adds the entries to the end of a list (with `zero` 1 their pages are set CLEAR first), clears `stall` of the context's stalled sequences that the new entries serve (`unstall`), and answers with the list's length and the entries added; DRAIN takes
entries from the list's tail, answers with them in that order, and leaves the other list and every other context's lists alone; SET_WATER sets the list's watermark and answers with the list's length. -/
def Obligations.ReserveCommands : Prop :=
  (∀ (s : State) (k : Take) (c : Cmd), s.serves k 0x0703 = some c → kvOp c = 0 → Passes (kvFillChecks c (s.takeSlot c.ref)) → 4 ≤ c.space →
    (let u := s.takeSlot c.ref
     let x := c.f 0 0 16
     let t := if c.f 3 3 1 = 1 then (kvEntries c).foldl (fun t e => t.clearPage c.part x e) u else u
     let t := (t.modReserve x fun r => if c.f 3 0 1 = 0 then { r with fast := r.fast ++ kvEntries c } else { r with slow := r.slow ++ kvEntries c }).unstall x
       (if c.f 3 0 1 = 0 then (kvEntries c).length else 0) (if c.f 3 0 1 = 0 then 0 else (kvEntries c).length)
     Answers (.kvReserveFill k) s c t [(8, ((t.reserveAt x).list (c.f 3 0 1)).length), (8, (kvEntries c).length), (16, 0)])) ∧
  (∀ (s : State) (k : Take) (c : Cmd), s.serves k 0x0703 = some c → kvOp c = 1 → Passes (kvDrainChecks c (s.takeSlot c.ref)) → ∃ (u : State) (out : List Nat),
    Answers (.kvReserveDrain k) s c u ([(8, ((u.reserveAt (c.f 0 0 16)).list (c.f 3 0 1)).length), (8, out.length), (16, 0)] ++ out.map fun e => (32, e)) ∧
    u = { s.takeSlot c.ref with ten := { s.ten with reserve := u.ten.reserve } } ∧ out.length = min (c.f 4 0 7) (s.reserveAt (c.f 0 0 16) |>.list (c.f 3 0 1)).length ∧
    (s.reserveAt (c.f 0 0 16)).list (c.f 3 0 1) = (u.reserveAt (c.f 0 0 16)).list (c.f 3 0 1) ++ out.reverse ∧
    (s.reserveAt (c.f 0 0 16)).list (1 - c.f 3 0 1) = (u.reserveAt (c.f 0 0 16)).list (1 - c.f 3 0 1) ∧
    ∀ x, x ≠ c.f 0 0 16 → u.reserveAt x = s.reserveAt x) ∧
  (∀ (s : State) (k : Take) (c : Cmd), s.serves k 0x0703 = some c → kvOp c = 2 → Passes (kvWaterChecks c (s.takeSlot c.ref)) → 4 ≤ c.space →
    (let x := c.f 0 0 16
     Answers (.kvReserveSetWater k) s c ((s.takeSlot c.ref).modReserve x fun r =>
         if c.f 3 0 1 = 0 then { r with fastWater := c.f 6 0 6 } else { r with slowWater := c.f 6 0 6 })
       [(8, ((s.reserveAt x).list (c.f 3 0 1)).length), (8, 0), (16, 0)]))

/-! ### Fences and the wait-for graph (10_fences) -/

/-- FENCE_ALLOC, FENCE_FREE and FENCE_EXPORT that pass their checks. FENCE_ALLOC makes the fence that the search gives LIVE at its next generation with the kind, value, owner, mirror and group of the request, no waiter and no export, and answers with it; no other fence changes. FENCE_FREE
abandons the fence (`abandonFence`) and frees it, leaves it no waiter and no export, and answers with the value and counts it had. FENCE_EXPORT adds an export and answers with this chip's incarnation; with WITHDRAW it takes the export away, tells the proxies of its subscriptions that the fence is abandoned
(`abandonSubs`), and answers with their number. -/
def Obligations.FenceCommands : Prop :=
  (∀ (s : State) (k : Take) (c : Cmd) (n : Nat), s.serves k 0x0801 = some c → Passes (fenceAllocChecks c (s.takeSlot c.ref)) → 8 ≤ c.space →
    s.pickFence c.part (c.f 3 1 2) (c.f 3 5 2) (c.f 4 0 14) = some n → ∃ u,
    Answers (.fenceAlloc k) s c u [(14, n), (2, 0), (8, (nextGen (s.fenceAt n).gen).toNat), (2, n / 4096), (38, 0)] ∧
    u = { s.takeSlot c.ref with fen := { s.fen with fence := u.fen.fence } } ∧ (∀ m, m ≠ n → u.fenceAt m = s.fenceAt m) ∧
    u.fenceAt n = { Fence.init with
      st := .live, kind := if c.f 3 3 1 = 1 then .step else .plain, compat := c.f 3 0 1 == 1, value := BitVec.ofNat 64 (c.f 8 0 64)
      gen := nextGen (s.fenceAt n).gen, owner := c.f 0 0 16, mirror := if c.f 3 4 1 = 1 then some (c.f 16 0 64) else none
      group := if c.f 3 3 1 = 1 then c.f 6 0 10 else 0 }) ∧
  (∀ (s : State) (k : Take) (c : Cmd), s.serves k 0x0802 = some c → Passes (fenceFreeChecks c (s.takeSlot c.ref)) → 16 ≤ c.space →
    (let n := c.f 0 0 14
     let u := ((s.takeSlot c.ref).abandonFence n).freeFence n
     Answers (.fenceFree k) s c u [(64, (s.fenceAt n).value.toNat), (32, (s.fenceAt n).stale.toNat), (32, (s.fenceAt n).rejected.toNat)] ∧
     (u.fenceAt n).st = .free ∧ (u.fenceAt n).waiters = [] ∧ (u.fenceAt n).exports_ = [])) ∧
  (∀ (s : State) (k : Take) (c : Cmd), s.serves k 0x0803 = some c → isWithdraw c = false → Passes (fenceExportChecks c (s.takeSlot c.ref)) → 8 ≤ c.space →
    Answers (.fenceExport k) s c ((s.takeSlot c.ref).modFence (c.f 0 0 14) fun f =>
      { f with exports_ := f.exports_ ++ [⟨c.f 4 0 9, c.f 6 0 6, BitVec.ofNat 32 (c.f 8 0 32), []⟩] }) [(32, s.log.inc.toNat), (32, 0)]) ∧
  (∀ (s : State) (k : Take) (c : Cmd), s.serves k 0x0803 = some c → isWithdraw c = true → Passes (fenceWithdrawChecks c (s.takeSlot c.ref)) → 8 ≤ c.space →
    (let n := c.f 0 0 14
     let is := fun (e : Export) => e.node == c.f 4 0 9 && e.part == c.f 6 0 6
     let subs := ((s.fenceAt n).exports_.filter is).flatMap fun e => e.subs
     Answers (.fenceWithdraw k) s c
       (((s.takeSlot c.ref).modFence n fun f => { f with exports_ := f.exports_.filter fun e => !is e }).abandonSubs subs)
       [(32, s.log.inc.toNat), (16, subs.length), (16, 0)]))

/-- FENCE_IMPORT that passes its checks, a peer's request, and the ends of the wait. An import from the own chip makes the PROXY at once where the export allows it, and is refused with 0x0815 where not; from another chip that no link reaches it is answered PEER_RESET; from one that is reachable it reserves the fence, asks over the link, and
is not answered yet. IMPORT_REQUEST from a port that is up is answered over the link as the export says, and a granted PROXY is subscribed. IMPORT_TIMEOUT ends the wait with PEER_RESET, a refusing IMPORT_ANSWER with its status; a grant for a context that is still LIVE makes the LIVE PROXY with the granted value and
answers OK, one that names another incarnation than the ports to that node know ends it with PEER_RESET (the model's choice, log 86). -/
def Obligations.FenceImports : Prop :=
  (∀ (s : State) (k : Take) (c : Cmd) (n : Nat), s.serves k 0x0804 = some c → Passes (fenceImportChecks c (s.takeSlot c.ref)) →
    s.pickFence c.part (c.f 3 0 2) (c.f 3 2 2) (c.f 4 0 14) = some n →
    (let u := s.takeSlot c.ref
     let node := c.f 6 0 9
     let src : Source := ⟨node, c.f 8 0 6, c.f 10 0 14, BitVec.ofNat 8 (c.f 9 0 8)⟩
     let key := BitVec.ofNat 32 (c.f 12 0 32)
     (∀ compat value inc, node = s.ownNode → u.exportAnswer node c.part src.part src.fence src.gen key false = .grant compat value inc → 16 ≤ c.space →
       (let t := (u.newProxy n (c.f 0 0 16) src compat value).subscribe src.fence node c.part n
        Answers (.fenceImport k) s c t (importFields t n inc))) ∧
     (node = s.ownNode → u.exportAnswer node c.part src.part src.fence src.gen key false = .refuse →
       Refuses (.fenceImport k) s c .notPermitted 0x0815) ∧
     (node ≠ s.ownNode → u.reachable node = false → Refuses (.fenceImport k) s c .peerReset 0) ∧
     (node ≠ s.ownNode → u.reachable node = true → 16 ≤ c.space → ∃ t, exec (.fenceImport k) s = .next t ∧
       (t.fenceAt n).reserved = true ∧ t.fen.imports = s.fen.imports ++ [⟨c.ref, c.part, n, c.f 0 0 16, src, key⟩] ∧
       t.out.link = s.out.link ++ [.importRequest node ⟨s.ownNode, c.part, src.part, src.fence, src.gen, key, n⟩] ∧
       t = { u with fen := t.fen, out := t.out, obs := t.obs }))) ∧
  (∀ (s : State) (port : Nat) (r : ImportReq), s.alive = true → s.coreStopped 6 = false → (s.net.ports.get Port.init port).up = true →
    (let a := s.exportAnswer r.node r.part r.srcPart r.fence r.gen r.key (s.net.ports.get Port.init port).s3
     (∀ compat value inc, a = .grant compat value inc → exec (.importRequest port r) s =
       .next (((s.subscribe r.fence r.node r.part r.proxy).countMsg port 1 false).linkSend (.importAnswer r.node r.proxy a))) ∧
     ((a = .refuse ∨ a = .refuseWidth) → exec (.importRequest port r) s = .next ((s.countMsg port 1 false).linkSend (.importAnswer r.node r.proxy a))))) ∧
  (∀ (s : State) (mb : Mailbox) (slot : Nat) (w : ImportWait), s.alive = true → s.importAt mb slot = some w →
    exec (.importTimeout mb slot) s = .next ((s.endImport w).finish w.ref .peerReset 0 0 0) ∧
    (let u := (s.countMsg (s.portFor w.src.node) 2 false).endImport w
    exec (.importAnswer mb slot .refuse) s = .next (u.finish w.ref .notPermitted 0x0815 0 0) ∧
    exec (.importAnswer mb slot .refuseWidth) s = .next (u.finish w.ref .versionUnsupported 0x0816 0 0) ∧
    (∀ compat value inc, s.otherLife w.src.node inc = true → exec (.importAnswer mb slot (.grant compat value inc)) s =
      .next (u.finish w.ref .peerReset 0 0 0)) ∧
    (∀ compat value inc, (u.ctxAt w.ctx).st = .live → s.otherLife w.src.node inc = false →
      (let t := u.newProxy w.fence w.ctx w.src compat value
       exec (.importAnswer mb slot (.grant compat value inc)) s = .next (t.finish w.ref .ok 0 16 (pack (importFields t w.fence inc))) ∧
       (t.fenceAt w.fence).st = .live ∧ (t.fenceAt w.fence).kind = .proxy ∧ (t.fenceAt w.fence).value = value ∧
       (t.fenceAt w.fence).src = some w.src))))

/-- Updates of PROXY fences, WFG_SCAN_END and WFG_READ. PROXY_UPDATE treats a LIVE PROXY as a signal would (accepted: the value, its waiters and its mirror, as `setFence` says; stale or rejected: a count); PROXY_ABANDON makes it ABANDONED, with the value all ones on a native fence, releases its waiters and writes its mirror; neither touches a fence
that is not a PROXY; the bytes of a message from a source chip count at its port, and nothing else (`heardFrom`). WFG_SCAN_END of a scan that runs ends it: the graph's epoch is that of the scan, and no fence, ring or context changes. WFG_READ that passes its checks and fits only answers, with the cycles of its partition. -/
def Obligations.ProxiesAndGraph : Prop :=
  (∀ (s : State) (n : Nat) (v : W64), s.alive = true → (s.fenceAt n).st = .live → (s.fenceAt n).kind = .proxy →
    (let u := s.heardFrom n 3
     ((s.fenceAt n).judge v = .accepted → exec (.proxyUpdate n v) s = .next (u.setFence n v)) ∧
     ((s.fenceAt n).judge v = .stale → exec (.proxyUpdate n v) s = .next (u.modFence n fun f => { f with stale := inc32 f.stale })) ∧
     ((s.fenceAt n).judge v = .rejected → exec (.proxyUpdate n v) s = .next (u.modFence n fun f => { f with rejected := inc32 f.rejected })) ∧
     exec (.proxyAbandon n) s = .next (((s.fenceAt n).waiters.foldl State.releaseAbandoned ((s.heardFrom n 4).modFence n fun f =>
       { f with st := .abandoned, value := if f.compat then f.value else BitVec.allOnes 64, waiters := [] })).mirror n))) ∧
  (∀ (s : State) (n : Nat) (v : W64), (s.fenceAt n).kind ≠ .proxy → exec (.proxyUpdate n v) s = .next s ∧ exec (.proxyAbandon n) s = .next s) ∧
  (∀ (s : State) (n kind : Nat), ∃ t, s.heardFrom n kind = t ∧ t = { s with obs := t.obs } ∧ ((s.fenceAt n).src = none → t = s)) ∧
  (∀ (s : State) (host : List (Nat × Nat × BitVec 512)), s.alive = true → s.fen.wfg.scan.isSome = true → ∃ t,
    exec (.wfgScanEnd host) s = .next t ∧ t = { s with fen := { s.fen with wfg := t.fen.wfg }, log := t.log, out := t.out } ∧
    t.fen.wfg.scan = none ∧ t.fen.wfg.epoch = s.fen.wfg.scanAt ∧ s.log.next ≤ t.log.next) ∧
  (∀ (s : State) (k : Take) (c : Cmd), s.serves k 0x0805 = some c → Passes (wfgReadChecks c) →
    (let u := s.takeSlot c.ref
     let w := u.fen.wfg
     let mine := (w.cycles.filter fun x => x.parts.contains c.part).take 64
     let rest := (mine.drop (c.f 0 0 16)).map (cycleFields u c.part (c.ref.mb == .manager))
     let out := fillSpace (c.space - 16) rest
     let fields := [(8, c.part), (8, (u.partAt c.part).gen.toNat), (1, bit w.overrun), (1, bit (decide (out.length < rest.length))), (14, 0),
       (32, w.epoch.toNat), (32, ((w.blocked.find? fun e => e.1 == c.part).map Prod.snd).getD 0), (16, mine.length), (16, out.length)] ++ out.flatten
     Fits c fields → Answers (.wfgRead k) s c u fields))

/-! ### Segments and translation (11_translation) -/

/-- SEG_SYNC by its `op`, and SEG_CHECK, where their checks pass. LOAD with entries that are all good makes the segment valid as described and stores its table; ENTRIES stores the words and retries the waits that the segment serves (`retryWaits`); of both, a bad entry answers 0x0908 with the page's index and
changes nothing. UNLOAD takes the segment away with its waits, its moves and its translations, and answers at once when no tile moves under it, and else waits for those that do. SEG_CHECK compares the host's words with the table and only answers: the number of pages that differ and the first. -/
def Obligations.SegmentCommands : Prop :=
  (∀ (s : State) (k : Take) (c : Cmd) (table : HostTable) (ws : List W64), s.serves k 0x0901 = some c → segOp c = 0 → table = some ws →
    Passes (segLoadChecks table c (s.takeSlot c.ref)) → 8 ≤ c.space →
    (let u := s.takeSlot c.ref
     let g := segDesc c
     (∀ i, u.badEntry g ws = some i → exec (.segSyncLoad k table) s =
       .next (u.respond c.ref .rejectedInconsistent 0x0908 8 (pack [(32, 0), (32, i)]) none)) ∧
     (u.badEntry g ws = none → Answers (.segSyncLoad k table) s c
       ((u.modSeg (segName c) fun _ => g.withMapped (ws.map BitVec.toNat)).putWords c.part (segName c) 0 ws) [(32, ws.length), (32, 0xFFFFFFFF)]))) ∧
  (∀ (s : State) (k : Take) (c : Cmd) (table : HostTable) (ws : List W64), s.serves k 0x0901 = some c → segOp c = 1 → table = some ws →
    Passes (segEntriesChecks table c (s.takeSlot c.ref)) → 8 ≤ c.space →
    (let u := s.takeSlot c.ref
     let n := segName c
     (∀ i, u.badEntry (u.segAt n) ws = some i → exec (.segSyncEntries k table) s =
       .next (u.respond c.ref .rejectedInconsistent 0x0908 8 (pack [(32, 0), (32, c.f 4 0 32 + i)]) none)) ∧
     (u.badEntry (u.segAt n) ws = none →
       (let t := u.putWords c.part n (c.f 4 0 32) ws
        Answers (.segSyncEntries k table) s c ((t.modSeg n fun g => g.withMapped (t.allWords c.part n)).retryWaits n)
          [(32, c.f 8 0 32), (32, 0xFFFFFFFF)])))) ∧
  (∀ (s : State) (k : Take) (c : Cmd), s.serves k 0x0901 = some c → segOp c = 2 → Passes (segUnloadChecks c (s.takeSlot c.ref)) → 8 ≤ c.space →
    (let n := segName c
     let u := s.takeSlot c.ref
     let t := ((((u.modSeg n fun _ => Seg.init).endWaits fun t => t.seg == n).stopMoves n).dropTlb fun e => e.seg == n)
     let tiles := t.movingUnder fun g _ => g == n
     (tiles = [] → Answers (.segSyncUnload k) s c t [(32, 0), (32, 0xFFFFFFFF)]) ∧
     (tiles ≠ [] → ∃ v, exec (.segSyncUnload k) s = .next v ∧ v = { t with xl := { t.xl with drains := v.xl.drains } } ∧
       ∃ at_, v.xl.drains = t.xl.drains ++ [⟨c.ref, tiles, tiles.length, at_, true⟩]))) ∧
  (∀ (s : State) (k : Take) (c : Cmd) (table : HostTable) (ws : List W64), s.serves k 0x0902 = some c → table = some ws →
    Passes (segCheckChecks table c (s.takeSlot c.ref)) → 16 ≤ c.space →
    (let u := s.takeSlot c.ref
     let diff := (ws.zipIdx.filter fun w => (u.tableWord c.part (segName c) (c.f 4 0 32 + w.2) .clean).2 != some w.1.toNat).map Prod.snd
     (diff = [] → Answers (.segCheck k table) s c u [(32, c.f 8 0 32), (32, 0), (32, 0xFFFFFFFF), (32, 0)]) ∧
     (∀ i l, diff = i :: l → Answers (.segCheck k table) s c u [(32, c.f 8 0 32), (32, diff.length), (32, c.f 4 0 32 + i), (32, 0)])))

/-- A TLB_INVALIDATE that passes its checks removes the translations of its scope (with scope 0 and 3 also those of sequences) and answers at once when no tile moves under one; else it waits
for those tiles. TLB_DRAIN_END of a drain that waits answers when none of its tiles is left, and changes nothing while one is. -/
def Obligations.TranslationDrains : Prop :=
  (∀ (s : State) (k : Take) (c : Cmd), s.serves k 0x0903 = some c → Passes (tlbInvalidateChecks c (s.takeSlot c.ref)) → 8 ≤ c.space →
    (let scope := c.f 3 0 2
     let u := s.takeSlot c.ref
     let covers := fun (g page : Nat) =>
       if scope = 0 then decide (segKey c.part (c.f 0 0 16) 0 ≤ g ∧ g < segKey c.part (c.f 0 0 16) 0 + 16)
       else if scope = 1 then g == segName c
       else if scope = 2 then g == segName c && decide (c.f 4 0 32 ≤ page ∧ page < c.f 4 0 32 + c.f 8 0 32)
       else u.keyOf c.part g
     let t := (if scope = 0 then u.dropKv fun q => (u.seqAt q).ctx == c.f 0 0 16
       else if scope = 3 then u.dropKv fun q => (u.partAt c.part).record.hasSeq q else u).dropTlb fun e => covers e.seg e.page
     let tiles := t.movingUnder covers
     (tiles = [] → Answers (.tlbInvalidate k) s c t [(32, 0), (32, 0)]) ∧
     (tiles ≠ [] → exec (.tlbInvalidate k) s =
       .next { t with xl := { t.xl with drains := t.xl.drains ++ [⟨c.ref, tiles, tiles.length, s.beat.tick, false⟩] } }))) ∧
  (∀ (s : State) (mb : Mailbox) (slot : Nat) (d : Drain), s.alive = true → s.xl.drains.find? (fun d => d.ref.mb == mb && d.ref.slot == slot) = some d →
    ((d.tiles.any fun i => (s.xl.tiles.get none i).isSome) = false → exec (.tlbDrainEnd mb slot) s =
      .next (({ s with xl := { s.xl with drains := s.xl.drains.filter fun x => x != d } } : State).finish d.ref .ok 0 8
        (pack [(32, d.count), (32, if d.unload then 0xFFFFFFFF else (s.beat.tick - d.start).toNat)]))) ∧
    ((d.tiles.any fun i => (s.xl.tiles.get none i).isSome) = true → exec (.tlbDrainEnd mb slot) s = .next s))

/-- TILE, TABLE_WALK, FAULT_WAIT_EXPIRY and TIER_MOVE_SWAP. A TILE at a port changes nothing while a tile of its engine is held on a fault; otherwise it runs under the tag of what its engine runs (`runTag`, R241): it takes the next tile number and goes as its translation says (`runTile`); one whose row index is not below the rows of the running batch is counted against its
engine, its row fails with FAULT_RANGE and, for a read, it returns zeros (`endTileWith`). A TABLE_WALK that finds a present entry puts the translation into the field's cache. FAULT_WAIT_EXPIRY of a fault slot whose limit has passed ends its wait. TIER_MOVE_SWAP of a move that runs and for whose bytes the maintenance bucket has paid, with nothing moving under
the page and no dump, copies the page, points its table entry at the destination in the device copy and the host's table, drops its translations, and leaves the move complete; otherwise it changes nothing. -/
def Obligations.TilesAndWalks : Prop :=
  (∀ (s : State) (t : TileReq), s.alive = true →
    (let u := { t with tag := s.runTag t.engine t.tag }
     (s.streamWaits t.engine = true → exec (.tile t) s = .next s) ∧
     (s.streamWaits t.engine = false → (∀ i b, u.tag = .row i → (s.engAt u.engine).running = some (.batch b) → i < b.rows.length) →
       exec (.tile t) s = .next (({ s with xl := { s.xl with nextTile := s.xl.nextTile + 1 } } : State).runTile s.xl.nextTile u)) ∧
     (∀ i b, s.streamWaits t.engine = false → u.tag = .row i → (s.engAt u.engine).running = some (.batch b) → b.rows.length ≤ i →
       exec (.tile t) s = .next ((s.badTag u.engine 1).endTileWith s.xl.nextTile u ⟨.faultRange, 0, 0⟩)))) ∧
  (∀ (s : State) (f p key page w : Nat) (ecc : EccEvent), s.alive = true → s.keyOf p key = true → (s.segAt key).valid = true →
    page < (s.segAt key).pages → f < 4 → (s.tableWord p key page ecc).2 = some w → entryPresent w = true →
    exec (.tableWalk f p key page ecc) s = .next ((s.tableWord p key page ecc).1.stlbFill f ⟨p, key, page, entryPhys w, entryTier w⟩)) ∧
  (∀ (s : State) (p slot : Nat) (x : FaultSlot), s.alive = true → (s.migrateAt p).slots.get none slot = some x →
    x.limit ≤ x.frames →
    (∀ t, s.xl.tiles.get none x.tile = some t → exec (.faultWaitExpiry p slot) s = .next (s.endWait x.tile t)) ∧
    (s.xl.tiles.get none x.tile = none → exec (.faultWaitExpiry p slot) s = .next (s.freeFaultSlot p slot))) ∧
  (∀ (s : State) (id : Nat) (host : List LineData) (bad : List (Nat × EccEvent)) (a : Activity) (w : Nat), s.alive = true → s.actAt id = some a →
    a.code = 3 → a.running = true → s.log.run = none → (s.tableWord a.part a.seg a.page .clean).2 = some w →
    (a.complete = false → a.paced = true → s.movingUnder (fun g n => g == a.seg && n == a.page) = [] → ∃ t failed phys,
      s.copyPage a (entryPhys w) (entryTier w) host bad = (t, failed) ∧
      phys = (if a.destTier = 0 then a.dest else s.ownNode * 2 ^ 48 + localAddr a.dest) ∧
      (let word := BitVec.ofNat 64 (phys / 65536 * 65536 + 2 * a.destTier + 1)
       let src := (s.segAt a.seg).keyFor (entryTier w)
       let fixed := if entryTier w = 0 then 0 else ((t.rangeAt src).fixed - (s.rangeAt src).fixed).toNat
       let t := (t.putWords a.part a.seg a.page [word]).hostWrite ((s.segAt a.seg).host + 8 * a.page) (some (s.partAt a.part).record.hostPasid) 8 word.toNat
       let lines := (s.segAt a.seg).pageSize / 128
       let t := (t.dropTlb fun e => e.seg == a.seg && e.page == a.page).modAct id fun x =>
         { x with complete := true, lines := lines, fixed := fixed, poisoned := failed }
       exec (.tierMoveSwap id host bad) s = .next (t.releaseMove id))) ∧
    ((a.complete = true ∨ a.paced = false ∨ s.movingUnder (fun g n => g == a.seg && n == a.page) ≠ []) → exec (.tierMoveSwap id host bad) s = .next s))

/-! ### The memory gate (12_memory_gate) -/

/-- Lines at a lane. A read of a CLEAR line is OK with zeros and changes nothing; one of a POISONED line answers POISONED. A write of the whole line is OK and stores its bytes VALID whatever the line held, and changes no other line; where its range's newest key is loaded, a clean
read with the same range and tweak then gives these bytes and changes nothing. A partial write of a POISONED line answers POISONED and changes nothing. -/
def Obligations.LinesReadAsWritten : Prop :=
  (∀ (s : State) (r l tw : Nat) (base : Bool), (s.lineAt l).st = .clear → (let o := s.bareRead r l tw .clean base
     o.status = .ok ∧ o.data = 0 ∧ o.st = s)) ∧
  (∀ (s : State) (r l tw : Nat) (ecc : EccEvent) (base : Bool), (s.lineAt l).st = .poisoned → (s.bareRead r l tw ecc base).status = .poisoned) ∧
  (∀ (s : State) (r l tw : Nat) (d : LineData) (ecc : EccEvent), (let o := s.bareWrite r l tw d (BitVec.allOnes 128) ecc
     o.status = .ok ∧ (o.st.lineAt l).data = d ∧ (o.st.lineAt l).st = .valid ∧ (∀ m, m ≠ l → o.st.lineAt m = s.lineAt m) ∧
     ((s.genKey r (s.newestGen r)).isSome = true → ∀ base, (let q := o.st.bareRead r l tw .clean base
       q.status = .ok ∧ q.data = d ∧ q.st = o.st)))) ∧
  (∀ (s : State) (r l tw : Nat) (d : LineData) (m : LineMask) (ecc : EccEvent), m ≠ BitVec.allOnes 128 → (s.lineAt l).st = .poisoned →
     (let o := s.bareWrite r l tw d m ecc
      o.status = .poisoned ∧ o.st = s))

/-- GATE_REQUEST, LINK_REQUEST and TAG_FILL. A GATE_REQUEST for this chip under the tag of what its engine runs (`oneTag`, R241), whose row or batch that engine runs, joins as Lendor forms it (`formed`) the queue of its line's lane: the lane that the line's first request named (the model's choice, DESIGN CHOICE, notes/assumptions/81.md). One that the lane picks at once is served and answered: the lane returns
what `gate` gives. A LINK_REQUEST from a port that is up that its lane picks at once is served, and its answer goes to the port. A request that the lane cannot pick yet stays queued and its bucket notes the wait, one without a credit, and one for another chip, changes nothing. One that `gateStep` refuses moves no byte: its status is FAULT_RANGE, and one of a DMA or debug master changes
no line and no bucket. TAG_FILL without an error brings the tag line in, and changes no line and no range. -/
def Obligations.GateRequests : Prop :=
  (∀ (s : State) (g x : GateReq), s.alive = true → addrNode g.addr = s.ownNode → s.formed (s.oneTag g) = some x →
    (∀ e tag, reqTag (s.oneTag g).who = some (e, tag) → s.pastRows e tag = false ∧ (s.reqPart (s.oneTag g).who).isSome = true) →
    (let line := localAddr x.addr / 128
     let lane := (s.mem.laneOf.get none line).getD x.lane
     let k := 18 * lineField (localAddr x.addr) + lane
     let h : Held := ⟨x, s.reqDl (s.oneTag g).who, s.beat.tick.toNat⟩
     let u := ({ s with mem := { s.mem with lanes := s.mem.lanes.put [] k (s.laneAt k ++ [h]), laneOf := s.mem.laneOf.put none line (some lane) } } : State).noteWait x
     (s.creditLeft k x.who = false → exec (.gateRequest g) s = .next s) ∧
     (s.creditLeft k x.who = true → u.laneNext k = none → exec (.gateRequest g) s = .next u) ∧
     (s.creditLeft k x.who = true → s.laneAt k = [] → u.laneNext k = some h → (∀ node span port cls, x.who ≠ .peer node span port cls) →
       (let o := (u.leaveLane k h).gate x
        exec (.gateRequest g) s = .next ((o.1.reply x o.2.1 o.2.2).endTile x))))) ∧
  (∀ (s : State) (g : GateReq), addrNode g.addr ≠ s.ownNode → exec (.gateRequest g) s = .next s) ∧
  (∀ (s : State) (g : GateReq) (node span port cls deadline : Nat) (drift : Bool), s.alive = true → g.who = .peer node span port cls →
    (s.net.ports.get Port.init port).up = true → addrNode g.addr = s.ownNode →
    (let line := localAddr g.addr / 128
     let lane := (s.mem.laneOf.get none line).getD g.lane
     let k := 18 * lineField (localAddr g.addr) + lane
     let h : Held := ⟨g, if drift || (s.net.ports.get Port.init port).drift then 0 else s.readDl deadline, s.beat.tick.toNat⟩
     let u := ({ s with mem := { s.mem with lanes := s.mem.lanes.put [] k (s.laneAt k ++ [h]), laneOf := s.mem.laneOf.put none line (some lane) } } : State).noteWait g
     (u.laneNext k = none → exec (.linkRequest g deadline drift) s = .next u) ∧
     (s.laneAt k = [] → u.laneNext k = some h →
       (let v := u.leaveLane k h
        let o := v.gate g
        let c := (v.charged g.who (localAddr g.addr) g.sel.tweak).getD ⟨0xFF, 0, 0⟩
        let n := if o.2.1 = .faultRange then 0 else accessBytes g.acc
        let t := if isWrite g.acc && n != 0 then o.1.countLink c.part c.ctx port n false else o.1
        exec (.linkRequest g deadline drift) s = .next (t.portSend port
          ⟨c.part, c.ctx, 0, if isWrite g.acc then 0 else n, h.dl, .answer port o.2.1 (v.failReason g o.2.1) o.2.2⟩))))) ∧
  (∀ (s : State) (g : GateReq) (n : Nat), s.gateStep g.who (localAddr g.addr) g.sel (isWrite g.acc) = some n → (s.gate g).2.1 = .faultRange ∧
    (g.who = .dma ∨ g.who = .debug → (s.gate g).1.mem.line = s.mem.line ∧ (s.gate g).1.reg = s.reg)) ∧
  (∀ (s : State) (a : Nat), s.alive = true → (s.rangeOf a).isSome = true ∨ inRegionData a = true → ∃ t,
    exec (.tagFill a .clean) s = .next t ∧ t.tagHeld (a / 128) = true ∧ t.mem.line = s.mem.line ∧ t.mem.range = s.mem.range ∧ t.chip = s.chip)

/-- MAINT_START, MAINT_QUERY, PARKED_RESUME and RANGE_CLEARING_DONE. A MAINT_START that passes its checks takes an activity of its code on its range, or for a TIER_MOVE on the ranges of its two tiers, for the partition (`startActivity`); a SKIM takes the place of one that Lendor queued for the range if there is one (`replaceSkim`). MAINT_QUERY that passes and fits
answers 64 bytes that begin with the range and its state, and changes nothing. PARKED_RESUME moves the slot of an activity that runs from PARKED to RUNNING. RANGE_CLEARING_DONE of a CLEARING range leaves it FREE, each of its lines CLEAR with its stored bytes as they were, and its tag words as clearing writes them; no other range and no other line changes. -/
def Obligations.MaintenanceCommands : Prop :=
  (∀ (s : State) (k : Take) (c : Cmd), s.serves k 0x0A02 = some c → Passes (maintStartChecks c (s.takeSlot c.ref)) →
    c.f 0 0 8 ≠ 3 →
    (let u := s.takeSlot c.ref
     let a := { Activity.new (c.f 0 0 8) [c.f 1 0 7] c.part with
       skimSlot := if c.f 2 0 16 = 0xFFFF then (u.rangeAt (c.f 1 0 7)).skimSlot else c.f 2 0 16 }
     ((c.f 0 0 8 ≠ 2 ∨ u.queuedSkim (c.f 1 0 7) = none) → exec (.maintStart k) s = .next (u.startActivity u c a 32)) ∧
     (∀ old, c.f 0 0 8 = 2 → u.queuedSkim (c.f 1 0 7) = some old → exec (.maintStart k) s = .next (u.replaceSkim c old a)))) ∧
  (∀ (s : State) (k : Take) (c : Cmd) (w : Nat), s.serves k 0x0A02 = some c → Passes (maintStartChecks c (s.takeSlot c.ref)) → c.f 0 0 8 = 3 →
    (let u := s.takeSlot c.ref
     let n := segKey c.part (c.f 4 0 16) (c.f 7 0 4)
     let g := u.segAt n
     let tier := c.f 7 4 2
     (u.tableWord c.part n (c.f 8 0 32) .clean).2 = some w →
     (let src := if entryTier w = 0 then [] else [g.keyFor (entryTier w)]
      let dst := if tier = 0 then [] else [g.keyFor tier]
      exec (.maintStart k) s = .next (u.startActivity u c { Activity.new 3 (src ++ dst) c.part with
        seg := n, page := c.f 8 0 32, destTier := tier, dest := c.f 16 0 64 } 32)))) ∧
  (∀ (s : State) (k : Take) (c : Cmd), s.serves k 0x0A03 = some c → Passes (maintQueryChecks c (s.takeSlot c.ref)) → 64 ≤ c.space → ∃ fields,
    Answers (.maintQuery k) s c (s.takeSlot c.ref) fields ∧ (fields.map Prod.fst).sum = 512 ∧
    fields.take 3 = [(7, c.f 0 0 7), (1, 0), (2, rangeCode (s.rangeAt (c.f 0 0 7)).st)]) ∧
  (∀ (s : State) (mb : Mailbox) (slot : Nat) (a : Activity), s.alive = true → ((s.mbAt mb).slotAt slot).st = .parked →
    s.mem.acts.find? (fun a => a.running && a.parked && a.ref == some ⟨mb, slot, ((s.mbAt mb).slotAt slot).ticket⟩) = some a →
    exec (.parkedResume mb slot) s =
      .next ((s.modMb mb fun b => b.modSlot slot fun x => { x with st := .running }).modAct a.id fun a => { a with parked := false })) ∧
  (∀ (s : State) (r : Nat), s.alive = true → (s.rangeAt r).st = .clearing → ∃ t,
    exec (.rangeClearingDone r) s = .next t ∧ t = { s with mem := { s.mem with range := t.mem.range, line := t.mem.line, extents := t.mem.extents }, obs := t.obs } ∧
    t.rangeAt r = { s.rangeAt r with st := .free, owner := 0xFF, released := none } ∧ (∀ q, q ≠ r → t.rangeAt q = s.rangeAt q) ∧
    (s.linesWf = true → ∀ l, t.lineAt l = (if (s.rangeAt r).base ≤ l * 128 ∧ l * 128 < (s.rangeAt r).base + (s.rangeAt r).len
      then { s.lineAt l with st := .clear, gen := 0, wcount := 0, lost := false }
      else if (s.rangeAt r).base + (s.rangeAt r).len ≤ l * 128 ∧ l * 128 < (s.rangeAt r).base + (s.rangeAt r).len + (s.rangeAt r).len / 16 then Line.init
      else s.lineAt l)))

/-! ### Coherence (13_coherence) -/

/-- A request that its home orders at once (`orders`: well made, in an open domain, of an engine that is not in reset, passed by the gate, with an entry and room in its bucket, or on a TICKET) joins the transactions of its line, and what may start on the line starts (`pumpLine`): FETCH_SHARE, FETCH_OWN, FETCH_TRANSIENT,
UPGRADE, STORE_THROUGH and RELEASE as they are, SPILL with the line in the agent's spill buffer, ATOMIC where `atomic_place` puts it. -/
def Obligations.CoherenceRequests : Prop :=
  ∀ (s : State) (m : Msg) (who : Requester), s.alive = true → s.orders m who →
    (m.op = 0x04 → exec (.fetchShare m) s = .next (((s.heard m).withTxn m false).pumpLine m.line)) ∧
    (m.op = 0x05 → exec (.fetchOwn m) s = .next (((s.heard m).withTxn m false).pumpLine m.line)) ∧
    (m.op = 0x06 → exec (.fetchTransient m) s = .next (((s.heard m).withTxn m false).pumpLine m.line)) ∧
    (m.op = 0x07 → exec (.upgrade m) s = .next (((s.heard m).withTxn m false).pumpLine m.line)) ∧
    (m.op = 0x08 → exec (.storeThrough m) s = .next (((s.heard m).withTxn m false).pumpLine m.line)) ∧
    (m.op = 0x0C → exec (.spill m) s = .next ((((s.heard m).withTxn m false).modCopy m.line m.src fun c => { c with buf := true }).pumpLine m.line)) ∧
    (m.op = 0x0D → exec (.release m) s = .next (((s.heard m).withTxn m false).pumpLine m.line)) ∧
    (m.op = 0x10 → exec (.atomic m) s = .next ((((s.heard m).placeAtomic m).1.withTxn m ((s.heard m).placeAtomic m).2).pumpLine m.line))

/-- What a transaction does when it starts on its line. With no copy of another agent and no clash of tweaks FETCH_SHARE and FETCH_OWN are filled from memory in E and FETCH_TRANSIENT in I; STORE_THROUGH
with no copy of another agent asks for its data; RELEASE drops the copy, which moves to a way of the field cache where one allows it (`victim`), and is done. With an owner elsewhere FETCH_SHARE probes it. A FETCH_SHARE, FETCH_OWN, FETCH_TRANSIENT or UPGRADE whose tweak is not that of every copy of the line ends as `cohMismatch` says: FAULT_RANGE and a record. -/
def Obligations.TransactionsStart : Prop :=
  ∀ (s : State) (t : Txn),
    (let m := t.req
     let clash := (s.copies m.line).any fun c => c.tweak != m.tweak
     (clash = false → s.others m = [] → m.op = 0x04 → s.startTxn t = (s.fillFromMemory m .e).closeTxn t) ∧
     (clash = false → s.others m = [] → m.op = 0x05 → s.startTxn t = (s.fillFromMemory m .e).closeTxn t) ∧
     (clash = false → s.others m = [] → m.op = 0x06 → s.startTxn t = (s.fillFromMemory m .i).closeTxn t) ∧
     (s.others m = [] → t.near = false → m.op = 0x08 →
       s.startTxn t = (s.modTxn m fun x => { x with phase := .writing }).send 2 (msgBack m 0x04)) ∧
     (t.near = false → m.op = 0x0D → (let c := (s.copies m.line).find? fun c => c.agent == m.src
       let u := s.dropCopy m.line m.src
       (c = none → s.startTxn t = (u.doneTo m .ok true).endTxn m) ∧
       (∀ x, c = some x → s.startTxn t = (((u.victim m x).getD u).doneTo m .ok false).endTxn m))) ∧
     (clash = false → (s.others m).any (fun c => c.own) = true → m.op = 0x04 → s.startTxn t = s.probeAll m 0x04 0 true false) ∧
     (clash = true → (m.op = 0x04 ∨ m.op = 0x05 ∨ m.op = 0x06 ∨ m.op = 0x07) → s.startTxn t = (s.cohMismatch m).closeTxn t))

/-- A message that Lendor has in flight and that may arrive (`inFlightMsg`) reaches its agent, and leaves the network: PROBE_SHARE and PROBE_TAKE make the agent supply the line (`supply`), PROBE_FLUSH give its dirty data (`flush`), PROBE_KILL lose its copy and say so. FILL with OK and a state gives the agent's copy that state and, but on the narrow path, its data;
one that comes straight from an owner to an agent without a copy makes the copy; any other FILL leaves the copies alone; each is acknowledged where its transaction waits for it. DONE ends as `doneArrives` says: an UPGRADE in E, and a spill buffer free. DATA_GO is answered with the data (`dataGo`); BOUNCE and TICKET change nothing else. -/
def Obligations.MessagesAtAgents : Prop :=
  ∀ (s : State) (m : Msg) (x : Nat × Msg), s.alive = true →
    (m.op = 0x04 → s.inFlightMsg 1 m x → exec (.probeShare m) s = .next (supply false m x.2 (s.delivered 1 m))) ∧
    (m.op = 0x05 → s.inFlightMsg 1 m x → exec (.probeTake m) s = .next (supply true m x.2 (s.delivered 1 m))) ∧
    (m.op = 0x06 → s.inFlightMsg 1 m x → exec (.probeFlush m) s = .next (flush m x.2 (s.delivered 1 m))) ∧
    (m.op = 0x07 → s.inFlightMsg 1 m x → exec (.probeKill m) s =
      .next (((s.delivered 1 m).modCopy m.line m.dst fun c => { c with st := .i }).answerProbe x.2 x.2 .i 0 false false)) ∧
    (m.op = 0x01 → s.inFlightMsg 3 m x → x.2.status = .ok → x.2.state ≠ 0 →
      (let u := s.delivered 3 m
       let straight : Prop := (∃ t ∈ u.coh.txns, t.req.src = x.2.dst ∧ t.req.txn = x.2.txn ∧ t.req.line = x.2.line ∧ t.direct = true) ∧
         ∀ c ∈ u.copies x.2.line, c.agent ≠ x.2.dst
       (straight → exec (.fill m) s = .next ((u.addCopy x.2.line
         ⟨x.2.dst, decide (x.2.state ≠ 1), cacheOf x.2.state, x.2.tweak, x.2.data, false, x.2.cls, none⟩).ackHome x.2.dst x.2.txn x.2.line)) ∧
       (¬straight → exec (.fill m) s = .next ((u.modCopy x.2.line x.2.dst fun c =>
         { c with st := cacheOf x.2.state, data := if x.2.narrow then c.data else x.2.data }).ackHome x.2.dst x.2.txn x.2.line)))) ∧
    (m.op = 0x01 → s.inFlightMsg 3 m x → (x.2.status ≠ .ok ∨ x.2.state = 0) → exec (.fill m) s = .next ((s.delivered 3 m).ackHome x.2.dst x.2.txn x.2.line)) ∧
    (m.op = 0x01 → s.inFlightMsg 2 m x → exec (.done m) s = .next (doneArrives x.2 (s.delivered 2 m))) ∧
    (m.op = 0x04 → s.inFlightMsg 2 m x → exec (.dataGo m) s = .next (dataGo m x.2 (s.delivered 2 m))) ∧
    (m.op = 0x08 → s.inFlightMsg 2 m x → exec (.bounce m) s = .next (s.delivered 2 m)) ∧
    (m.op = 0x09 → s.inFlightMsg 2 m x → exec (.ticket m) s = .next (s.delivered 2 m))

/-- A response or data message that is in flight and well made reaches its home. PROBE_ACK and PROBE_DATA are an answer to the probe (`probeAnswer`: the last one lets the transaction go on); DONE_ACK unblocks the line, or is kept where the transaction still waits for probes; SPILL_DATA puts the line into a way of the field cache where one allows it, else
into memory, and is answered DONE; STORE_DATA writes its bytes at the lane, drops the requester's own copy and is answered DONE with the lane's status, or does the atomic operation (`atomicAt`); each of these two ends its transaction, and what waits for the line starts. A DONE_ACK that is not in flight is a protocol error (`badMsg`): 5 where its `txn` is outstanding at the home, else 4. -/
def Obligations.MessagesAtHomes : Prop :=
  ∀ (s : State) (m : Msg) (x : Nat × Msg), s.alive = true →
    (m.op = 0x03 → s.inFlightMsg 2 m x → exec (.probeAck m) s = .next (probeAnswer false x.2 (s.delivered 2 m))) ∧
    (m.op = 0x02 → s.inFlightMsg 3 m x → exec (.probeData m) s = .next (probeAnswer true x.2 (s.delivered 3 m))) ∧
    (∀ t, m.op = 0x02 → s.inFlightMsg 2 m x → (s.delivered 2 m).txnOf x.2.src x.2.dst x.2.txn = some t →
      (t.phase = .acking → exec (.doneAck m) s = .next (((s.delivered 2 m).endTxn t.req).pumpLine t.req.line)) ∧
      (t.phase ≠ .acking → exec (.doneAck m) s = .next ((s.delivered 2 m).modTxn t.req fun y => { y with acked := true }))) ∧
    (∀ t, m.op = 0x03 → s.inFlightMsg 3 m x → (s.delivered 3 m).txnOf x.2.src x.2.dst x.2.txn = some t →
      (let u := (s.delivered 3 m).dropCopy x.2.line x.2.src
       let v := (u.victim t.req ⟨x.2.src, true, .m, x.2.tweak, x.2.data, false, x.2.cls, none⟩).getD (u.cohPut t.req x.2.tweak x.2.data)
       exec (.spillData m) s = .next (((v.doneTo t.req .ok false).endTxn t.req).pumpLine t.req.line))) ∧
    (∀ t, m.op = 0x04 → s.inFlightMsg 3 m x → (s.delivered 3 m).txnOf x.2.src x.2.dst x.2.txn = some t → t.req.op = 0x10 →
      exec (.storeData m) s = .next ((((s.delivered 3 m).atomicAt t.req x.2).endTxn t.req).pumpLine t.req.line)) ∧
    (∀ t, m.op = 0x04 → s.inFlightMsg 3 m x → (s.delivered 3 m).txnOf x.2.src x.2.dst x.2.txn = some t → t.req.op ≠ 0x10 →
      (let q := t.req
       let v := ((s.delivered 3 m).dropCopy q.line q.src).cohCount q (if q.narrow then 32 else 128)
       let w := placed q x.2.data x.2.mask
       let o := if q.domain = 64 then v.regionAccess (q.line * 128) (.write w.1 w.2 q.narrow) q.ecc
         else v.gateLine (v.cohGate q (.write w.1 w.2 q.narrow)) (v.cohCharged q) (q.line * 128)
       exec (.storeData m) s = .next (((o.1.doneTo q o.2.1 false).endTxn q).pumpLine q.line))) ∧
    (m.op = 0x02 → s.coh.net.find? (sameMsg 2 m) = none → 132 ≤ m.dst → m.dst ≤ 135 → m.reserved = 0 → s.inDomain m.src m.domain = true →
      exec (.doneAck m) s = .next (s.badMsg m (if s.outstanding m then 5 else 4)))

/-- The errors of coherence. SNOOP_TIMEOUT for an agent that a home's transaction still probes, and AGENT_CACHE_ERROR of an agent in the domain, lose that domain (`loseDomain`, causes 3 and 1). SNOOP_FILTER_ERROR of a line that has a copy and lies in the home's field makes a chip reset due where the entry's domain cannot be read; where it can,
it loses the control domain for a line of the control region, and the domain of the range's owner for a line of a range (cause 2). -/
def Obligations.CoherenceErrors : Prop :=
  (∀ (s : State) (home agent domain : Nat) (t : Txn), s.alive = true → t ∈ s.coh.txns → t.req.dst = 132 + home → t.phase = .probing → t.req.domain = domain →
    agent ∈ t.need → exec (.snoopTimeout home agent domain) s = .next (s.loseDomain domain agent 3)) ∧
  (∀ (s : State) (agent domain : Nat), s.alive = true → s.inDomain agent domain = true →
    exec (.agentCacheError agent domain) s = .next (s.loseDomain domain agent 1)) ∧
  (∀ (s : State) (home line : Nat), s.alive = true → s.copies line ≠ [] → lineField (line * 128) = home →
    exec (.snoopFilterError home line false) s = .next (s.needReset 1 (132 + home)) ∧
    (inControl (line * 128) = true → exec (.snoopFilterError home line true) s = .next (s.loseDomain 64 (132 + home) 2)) ∧
    (∀ r, inControl (line * 128) = false → s.rangeOf (line * 128) = some r →
      exec (.snoopFilterError home line true) s = .next (s.loseDomain (s.rangeAt r).owner (132 + home) 2)))

/-! ### Power (14_power_and_capo) -/

/-- PWR_STATE_SET that passes its checks, and the events of a move. PWR_STATE_SET to the state that stands answers at once with when it came; to another it starts the move (`powMove`) and is not answered yet. DRAIN_IDLE of a DRAINING partition whose engines are idle and quiet takes it to L2, or for L3
to SAVING with the bytes of its engines to save; SAVE_DONE with nothing left takes it to L3 with its slots filled; RESTORE_DONE with every line and every slot's MAC good (`slotsGood`) and nothing left clears the slots and takes it to L2, or leaves the step to L0 or L1 to the boundary, with a bad one it loses the domain. WAKE moves
a partition in L2 or L3 with `wake_on_work` and ready work towards L0 and sends its event. -/
def Obligations.PowerMoves : Prop :=
  (∀ (s : State) (k : Take) (c : Cmd), s.serves k 0x0C02 = some c → Passes (pwrStateSetChecks c (s.takeSlot c.ref)) → 8 ≤ c.space →
    (let u := (s.takeSlot c.ref).modPow c.part fun x => { x with wake := c.f 0 2 1 == 1 }
     ((s.powAt c.part).st = powOf (c.f 0 0 2) → Answers (.pwrStateSet k) s c u [(8, c.f 0 0 2), (24, 0), (32, (s.powAt c.part).since.toNat)]) ∧
     ((s.powAt c.part).st ≠ powOf (c.f 0 0 2) →
       exec (.pwrStateSet k) s = .next ((u.modPow c.part fun x => { x with earlier := none }).powMove c.part (c.f 0 0 2) (some c.ref))))) ∧
  (∀ (s : State) (p : Nat), s.alive = true → (s.powAt p).st = .draining → (s.powAt p).step = false → s.partIdle p = true →
    ((s.powAt p).target = 3 → exec (.drainIdle p) s = .next (s.startSave p) ∧ ((s.startSave p).powAt p).st = .saving ∧
      ((s.startSave p).powAt p).left = 8388608 * (bitsOf (s.partAt p).record.engines).length) ∧
    ((s.powAt p).target ≠ 3 → exec (.drainIdle p) s =
      .next (((s.snoopEngines p).modPow p fun x => { x with st := .l2, nominal := 0 }).powDone p))) ∧
  (∀ (s : State) (p : Nat), s.alive = true → (s.powAt p).st = .saving → (s.powAt p).left = 0 →
    exec (.saveDone p) s = .next (((s.markSlots p true).modPow p fun x => { x with st := .l3 }).powDone p)) ∧
  (∀ (s : State) (p : Nat), s.alive = true → (s.powAt p).st = .restoring → (s.powAt p).step = false →
    (s.slotsGood p = true → (s.powAt p).left = 0 → (s.powAt p).target = 2 → exec (.restoreDone p true) s =
      .next (((s.markSlots p false).modPow p fun x => { x with st := .l2 }).powDone p)) ∧
    (s.slotsGood p = true → (s.powAt p).left = 0 → (s.powAt p).target ≠ 2 →
      exec (.restoreDone p true) s = .next ((s.markSlots p false).modPow p fun x => { x with step := true })) ∧
    (∃ cause, exec (.restoreDone p false) s = .next (s.loseDomain p 149 cause) ∧
      (s.slotsGood p = false → exec (.restoreDone p true) s = .next (s.loseDomain p 149 cause)))) ∧
  (∀ (s : State) (p f : Nat), s.alive = true → (s.partAt p).st = .live → (s.powAt p).wake = true → (s.powAt p).busy = false →
    ((s.powAt p).st = .l2 ∨ (s.powAt p).st = .l3) → f < 4 → s.work p f ≠ [] → s.out.low = false →
    exec (.wake p) s = .next ((s.powMove p 0 none).partEvent p))

/-- LOW and back, and Capo in a field. D3HOT_ENTRY enters LOW, ends the challenge grant and the open challenge, and changes no key slot, no life-cycle state and no line; D0_RETURN leaves LOW, the messages
held go out in order, and nothing else changes. A DROOP_TRIP of a sensor that is not masked puts every engine's keep of its field at 8 and counts; STRETCH_REASSIGN takes the chosen engines to `deep_keep` and the others of the field back to 16;
RECOVERY_HOLD_END starts the ramp with every trip over; a KEEP_RAMP_STEP raises every keep of the field by one up to 16 and ends the ramp when all stand there; SENSOR_MASK masks a sensor that has stood tripped for 64 boundaries while four others of the field have recovered (`maskDue`, R440), with a record and an event, and another changes nothing. -/
def Obligations.LowAndCapo : Prop :=
  (∀ s : State, s.alive = true → s.out.low = false → ∃ t, exec .d3hotEntry s = .next t ∧ t.out.low = true ∧ t.sec.grant = none ∧ t.sec.challenge = none ∧
    t.sec.slots = s.sec.slots ∧ t.sec.lc = s.sec.lc ∧ t.mem.line = s.mem.line) ∧
  (∀ s : State, s.alive = true → s.out.low = true →
    exec .d0Return s = .next { s with out := { s.out with low := false, msix := s.out.msix ++ s.out.held, held := [] } }) ∧
  (∀ (s : State) (f n : Nat), s.alive = true → f < 4 → n / 64 = f → n ∉ (s.capoAt f).masked → ∃ t, exec (.droopTrip f n) s = .next t ∧
    t = { s with pwr := t.pwr } ∧ (t.capoAt f).st = .whole ∧ (t.capoAt f).detections = satAdd 16 (s.capoAt f).detections 1 ∧
    (∀ e, e / 32 = f → t.pwr.keep.get 16 e = 8) ∧ (∀ e, e / 32 ≠ f → t.pwr.keep.get 16 e = s.pwr.keep.get 16 e)) ∧
  (∀ (s : State) (f : Nat), s.alive = true → (s.capoAt f).st = .whole → ∃ t chosen, exec (.stretchReassign f) s = .next t ∧ t = { s with pwr := t.pwr } ∧
    (t.capoAt f).st = .reassigned ∧ chosen = s.capoChoose (((fieldEngines f).map fun e => s.pwr.report.get 0 e).sum * s.pwr.shed) 0 (s.capoOrder f) ∧
    ∀ e, e / 32 = f → t.pwr.keep.get 16 e = (if e ∈ chosen then s.pwr.deepKeep else 16)) ∧
  (∀ (s : State) (f : Nat), s.alive = true → (s.capoAt f).st = .reassigned → exec (.recoveryHoldEnd f) s =
    .next (s.modCapo f fun c => { c with st := .ramp, tripped := [] })) ∧
  (∀ (s : State) (f : Nat), s.alive = true → (s.capoAt f).st = .ramp → ∃ t, exec (.keepRampStep f) s = .next t ∧ t = { s with pwr := t.pwr } ∧
    (∀ e, e / 32 = f → t.pwr.keep.get 16 e = min 16 (s.pwr.keep.get 16 e + 1)) ∧
    ((∀ e, e / 32 = f → 15 ≤ s.pwr.keep.get 16 e) → (t.capoAt f).st = .idle) ∧
    ((∃ e, e / 32 = f ∧ s.pwr.keep.get 16 e < 15) → (t.capoAt f).st = .ramp)) ∧
  (∀ (s : State) (f n : Nat), s.alive = true → ((s.capoAt f).maskDue n = false → exec (.sensorMask f n) s = .next s) ∧
    (f < 4 → n / 64 = f → n ∉ (s.capoAt f).masked → (s.capoAt f).maskDue n = true → exec (.sensorMask f n) s =
      .next (((s.modCapo f fun c => { c with masked := c.masked ++ [n], tripped := c.tripped.filter fun x => x.1 != n }).logRec
        { kind := 0x0011, part := 0xFF, place := f, a := n }).chipEvent)))

/-! ### Keys, life cycle and debug rights (15_keys_lifecycle_debug) -/

/-- KEY_DERIVE and KEY_DESTROY that pass their checks, and a forged request. KEY_DERIVE loads its slot with the key that R457 derives from its inputs and the root, counts the derivation and answers with the count; KEY_DESTROY empties its slot. Neither changes another slot nor anything outside the island. A request of
the island's commands whose MAC does not match is not acted on: it is answered NOT_PERMITTED, `detail` 0x0D2F, a record is written and a chip reset of cause 4 is due. -/
def Obligations.KeyCommands : Prop :=
  (∀ (i : Instr) (s : State) (k : Take) (op : Nat) (ref : SlotRef), i.mailbox = some (k, op) → s.alive = true → s.coreStopped 0 = false →
    s.headRef k.mb = some ref → (let c := cmdOf ref ((s.mbAt k.mb).slotAt ref.slot).req k.host
    reqOpcode ((s.mbAt k.mb).slotAt ref.slot).req = op → (opInfo op).isSome = true → (s.takeSlot ref).checks k.mb ((s.mbAt k.mb).slotAt ref.slot).req k.host = none →
    s.forged k ref = true → islandServes k.mb op = true → i.mine c = true → ∃ u v,
    exec i s = .next ((((s.takeSlot c.ref).respond c.ref .notPermitted 0x0D2F 0 0 none).logRec { kind := 0x0018, part := 0xFF, a := u, b := v }).needReset 4 u))) ∧
  (∀ (s : State) (k : Take) (c : Cmd), s.serves k 0x0D01 = some c → Passes (keyDeriveChecks c (s.takeSlot c.ref)) → 8 ≤ c.space → ∃ u,
    Answers (.keyDerive k) s c u [(16, c.f 0 0 16), (8, c.f 2 0 8), (8, c.f 4 0 8), (32, (s.sec.derived + 1).toNat)] ∧
    u = { s.takeSlot c.ref with sec := { s.sec with slots := u.sec.slots, derived := s.sec.derived + 1 } } ∧
    u.slotAt (c.f 0 0 16) = ⟨true, c.f 2 0 8, 0, c.f 3 0 1 == 1, c.f 4 0 8, s.sec.derive s.chip.serial (c.f 0 0 16) (c.f 2 0 8) (c.f 4 0 8) (c.f 8 0 64) true⟩ ∧
    ∀ n, n ≠ c.f 0 0 16 → u.slotAt n = s.slotAt n) ∧
  (∀ (s : State) (k : Take) (c : Cmd), s.serves k 0x0D02 = some c → Passes (keyDestroyChecks c (s.takeSlot c.ref)) → ∃ u,
    Answers (.keyDestroy k) s c u [] ∧ u = { s.takeSlot c.ref with sec := { s.sec with slots := u.sec.slots } } ∧
    u.slotAt (c.f 0 0 16) = KeySlot.init ∧ ∀ n, n ≠ c.f 0 0 16 → u.slotAt n = s.slotAt n)

/-- A transition of the life cycle. An LC_TRANSITION that passes its checks starts the row from the state in effect to the target, for SCRAP with the destruction of every partition that stands (`destroyAll`). The steps run in their order: WIPE_SLOTS (for SCRAP once every partition is FREE) empties
the key store and the dump slots, DESTROY_ROOT burns both root rows to ones, ERASE_USER erases the persisted certificate and the flash copy where its read-back verifies, and changes nothing where not, and BURN_STATE burns the target
state and ends the transition, while the state in effect stays. Each burns its mark and makes the next step due, and changes no fuse or key slot but those it names. -/
def Obligations.LifeCycleSteps : Prop :=
  (∀ (s : State) (k : Take) (c : Cmd) (b : Lc) (n : Nat), s.serves k 0x0D03 = some c → Passes (lcTransitionChecks c (s.takeSlot c.ref)) → 8 ≤ c.space →
    lcOf (c.f 0 0 8) = some b → lcRow s.sec.lc b = some n →
    (let t := { s.takeSlot c.ref with sec := { s.sec with run := some ⟨n, 0, some c.ref, false⟩ } }
     (n < 5 → exec (.lcTransition k) s = .next t) ∧ (5 ≤ n → exec (.lcTransition k) s = .next t.destroyAll))) ∧
  (∀ (s : State) (row : Nat), s.alive = true → s.lcNext = some (row, 1) → (row < 5 ∨ ∀ p ∈ parts, (s.partAt p).st = .free) → ∃ t,
    exec .wipeSlots s = .next t ∧ t.sec.slots = [] ∧ t.log.slot0 = none ∧ t.log.slot1 = none ∧ (t.sec.marks.get 0 row).testBit 0 = true ∧
    t.lcNext = some (row, 2) ∧ t = { s with sec := t.sec, log := { s.log with slot0 := none, slot1 := none } } ∧ t.sec.fuse = s.sec.fuse) ∧
  (∀ (s : State) (row : Nat), s.alive = true → s.lcNext = some (row, 2) → 3 ≤ row → ∃ t,
    exec .destroyRoot s = .next t ∧ t.sec.rowA = rootOnes ∧ t.sec.rowB = rootOnes ∧ (t.sec.marks.get 0 row).testBit 1 = true ∧ t.lcNext = some (row, 3) ∧
    t = { s with sec := t.sec } ∧ t.sec.fuse = s.sec.fuse ∧ t.sec.slots = s.sec.slots) ∧
  (∀ (s : State) (row : Nat), s.alive = true → s.lcNext = some (row, 3) → exec (.eraseUser false) s = .next s ∧ ∃ t,
    exec (.eraseUser true) s = .next t ∧ t.sec.saved = none ∧ t.log.flash = 0 ∧ (t.sec.marks.get 0 row).testBit 2 = true ∧ t.lcNext = some (row, 4) ∧
    t = { s with sec := t.sec, log := { s.log with flash := 0 } } ∧ t.sec.fuse = s.sec.fuse) ∧
  (∀ (s : State) (row : Nat), s.alive = true → s.lcNext = some (row, lcSteps row) → ∃ t,
    exec .burnState s = .next t ∧ t.sec.fuse = lcTarget row ∧ t.sec.burned = s.sec.burned + 1 ∧ t.sec.lc = s.sec.lc ∧ t.lcNext = none ∧
    (t.sec.marks.get 0 row).testBit (lcSteps row - 1) = true ∧ t.sec.slots = s.sec.slots ∧ t.mem = s.mem ∧ t.ten = s.ten)

/-- The rights of debug. DBG_CERT_LOAD that passes its checks takes the certificate of its request, and with `persist` keeps it; CLEAR drops both; REVOKE raises the fused level; each answers with the rights and the level that stand
after it. DBG_CHALLENGE opens a new challenge in the place of another and answers with it; DBG_RESPONSE of an open challenge closes it whether it passes or fails, grants its rights when every test passes, and otherwise answers with the first test that fails. -/
def Obligations.DebugRights : Prop :=
  (∀ (s : State) (k : Take) (v : Unit) (c : Cmd), s.serves k 0x0D04 = some c → certLoad c = true →
    Passes (dbgCertLoadChecks c (s.takeSlot c.ref)) → 8 ≤ c.space →
    (let cert : Cert := ⟨c.f 28 0 8, c.f 29 0 8, c.f 30 0 6, c.f 32 0 64, BitVec.ofNat 32 (c.f 40 0 32)⟩
     let t := (s.takeSlot c.ref).changeSec fun x => { x with cert := some (cert, true), saved := if c.f 2 0 1 = 1 then some cert else x.saved }
     Answers (.dbgCertLoad k v) s c t [(8, t.rights.toNat), (8, t.level), (16, 0), (32, t.sec.certId.toNat)])) ∧
  (∀ (s : State) (k : Take) (c : Cmd), s.serves k 0x0D04 = some c → c.f 0 0 8 = 1 → Passes (dbgCertClearChecks c (s.takeSlot c.ref)) → 8 ≤ c.space →
    (let t := (s.takeSlot c.ref).changeSec fun x => { x with cert := none, saved := none }
     Answers (.dbgCertClear k) s c t [(8, t.rights.toNat), (8, t.level), (16, 0), (32, 0)])) ∧
  (∀ (s : State) (k : Take) (c : Cmd), s.serves k 0x0D04 = some c → c.f 0 0 8 = 2 → Passes (dbgCertRevokeChecks c (s.takeSlot c.ref)) → 8 ≤ c.space →
    (let t := (s.takeSlot c.ref).changeSec fun x => { x with rev := c.f 1 0 8 }
     Answers (.dbgCertRevoke k) s c t [(8, t.rights.toNat), (8, t.level), (16, 0), (32, s.sec.certId.toNat)] ∧ s.sec.rev < t.sec.rev)) ∧
  (∀ (s : State) (k : Take) (nonce : BitVec 256) (c : Cmd), s.serves k 0x0D05 = some c → Passes (dbgChallengeChecks c (s.takeSlot c.ref)) → 64 ≤ c.space →
    (let id := s.sec.challenges + 1
     let last := s.epoch + 8192
     Answers (.dbgChallenge k nonce) s c { s.takeSlot c.ref with sec := { s.sec with challenges := id, challenge := some ⟨id, last, nonce, c.f 0 0 8⟩ } }
       [(32, id.toNat), (64, last), (256, nonce.toNat), (128, s.chip.serial.toNat), (32, 0)])) ∧
  (∀ (s : State) (k : Take) (v : Unit) (c : Cmd), s.serves k 0x0D06 = some c → Passes (dbgResponseChecks (s.takeSlot c.ref)) →
    (let t := { s.takeSlot c.ref with sec := { s.sec with challenge := none } }
     let tests := [(s.challengeNamed c, .notPermitted, 0x0D27), (c.f 0 0 16 == 1 && c.zeros [(2, 0, 16), (58, 6, 2), (59, 0, 40)], .notPermitted, 0x0D20)] ++
       grantTests s (makerSigned s c 0 160) (c.f 40 0 128) (c.f 57 0 8) ++ [(decide (s.sec.rev ≤ c.f 58 0 6), .notPermitted, 0x0D24),
       ((BitVec.ofNat 8 (c.f 56 0 8) &&& ~~~(BitVec.ofNat 8 ((s.sec.challenge.map Challenge.wanted).getD 0))) == 0, .notPermitted, 0x0D26)]
     (Passes tests → exec (.dbgResponse k v) s = .next ((t.changeSec fun x => { x with grant := some (c.f 56 0 8) }).respond c.ref .ok 0 0 0 none)) ∧
     (∀ st d, firstFail tests = some (st, d) → exec (.dbgResponse k v) s = .next (t.respond c.ref st d 0 0 none))))

/-! ### Dirty-page logging (17_virtual_instances) -/

/-- The commands of dirty-page logging that pass their checks wait for the earliest boundary, unanswered, and change the partition's logging alone: BEGIN takes the areas, the host window and the layout of the ranges
that the partition owns, with nothing active before the boundary; FLIP and STOP only wait. -/
def Obligations.DirtyLogCommands : Prop :=
  ∀ (s : State) (k : Take) (c : Cmd), 16 ≤ c.space →
    (let u := s.takeSlot c.ref
     let p := c.part
     (s.serves k 0x0E01 = some c → c.f 0 0 1 = 0 → Passes (dirtyLogBeginChecks c u) → ∃ t, exec (.dirtyLogBegin k) s = .next t ∧
       t = { u with watch := { u.watch with dirty := t.watch.dirty } } ∧ (∀ q, q ≠ p → t.dirtyAt q = s.dirtyAt q) ∧
       t.dirtyAt p = { DirtyLog.init with areaA := c.f 8 0 64, areaB := c.f 16 0 64, len := c.f 24 0 32, hostBase := c.f 32 0 64, hostLen := c.f 40 0 64,
                                          ranges := (s.areaLayout p).1, hostOff := (s.areaLayout p).2, wait := some ⟨0, s.earliest, c.ref⟩ }) ∧
     (s.serves k 0x0E01 = some c → c.f 0 0 1 = 1 → Passes (dirtyLogFlipChecks c u) → ∃ t, exec (.dirtyLogFlip k) s = .next t ∧
       t = { u with watch := { u.watch with dirty := t.watch.dirty } } ∧ (∀ q, q ≠ p → t.dirtyAt q = s.dirtyAt q) ∧
       t.dirtyAt p = { s.dirtyAt p with wait := some ⟨1, s.earliest, c.ref⟩ }) ∧
     (s.serves k 0x0E02 = some c → Passes (dirtyLogStopChecks c u) → ∃ t, exec (.dirtyLogStop k) s = .next t ∧
       t = { u with watch := { u.watch with dirty := t.watch.dirty } } ∧ (∀ q, q ≠ p → t.dirtyAt q = s.dirtyAt q) ∧
       t.dirtyAt p = { s.dirtyAt p with wait := some ⟨2, s.earliest, c.ref⟩ }))

/-! ### Faults and recovery (18_faults_and_recovery) -/

/-- CTX_REVOKE and PART_RESET that pass their checks, and their ends. CTX_REVOKE revokes its context with the reason 9 and CONTEXT_LOST (`revokeCtx`), and REVOKE_DRAIN_END answers it with the counts of the revocation when nothing of the old generation is left, and changes nothing
before. PART_RESET with RESET starts the reset of its partition (`startReset`); CONFIG leaves the limits for the next boundary and answers with its frame. PARTITION_RESET_COMPLETE of a RESETTING partition whose engines are idle and quiet probes its lines out of the field caches, resets the engines, opens its domain again, leaves it LIVE, writes a record and its card, and answers the command that asked; before, it changes nothing. -/
def Obligations.RecoveryCommands : Prop :=
  (∀ (s : State) (k : Take) (c : Cmd), s.serves k 0x0F01 = some c → Passes (ctxRevokeChecks c (s.takeSlot c.ref)) → 16 ≤ c.space →
    exec (.ctxRevoke k) s = .next (((s.takeSlot c.ref).modCtx (c.f 0 0 16) fun z =>
      { z with revoke := some ⟨c.ref, s.beat.tick, 0, 0, 0⟩ }).revokeCtx c.part (c.f 0 0 16) 9 .contextLost)) ∧
  (∀ (s : State) (x : Nat) (v : RevokeRun), s.alive = true → (s.ctxAt x).revoke = some v →
    (s.revokeDrained x = true → exec (.revokeDrainEnd x) s = .next ((s.modCtx x fun y => { y with revoke := none }).finish v.ref .ok 0 16
      (pack [(8, (s.ctxAt x).gen.toNat), (8, 0), (16, v.fences), (32, v.descs), (32, v.rows), (32, (s.beat.tick - v.start).toNat)]))) ∧
    (s.revokeDrained x = false → exec (.revokeDrainEnd x) s = .next s)) ∧
  (∀ (s : State) (k : Take) (c : Cmd), s.serves k 0x0F02 = some c → isConfig c = false → Passes (partResetChecks c (s.takeSlot c.ref)) → 16 ≤ c.space →
    exec (.partReset k) s = .next ((s.takeSlot c.ref).startReset c.part (c.f 8 0 32) (some c.ref) true)) ∧
  (∀ (s : State) (k : Take) (c : Cmd), s.serves k 0x0F02 = some c → isConfig c = true → Passes (partResetConfigChecks c (s.takeSlot c.ref)) → 8 ≤ c.space →
    Answers (.partResetConfig k) s c ((s.takeSlot c.ref).modPart c.part fun x => { x with wdNext := some (c.f 2 0 16, c.f 4 0 16) })
      [(16, c.f 2 0 16), (16, c.f 4 0 16), (32, (frameBits (s.frame + 1)).toNat)]) ∧
  (∀ (s : State) (p : Nat) (r : ResetRun), s.alive = true → (s.partAt p).reset = some r → (s.partAt p).st = .resetting →
    (s.partIdle p = true → (let es := bitsOf (s.partAt p).record.engines
      let ticks := (s.beat.tick - r.start).toNat
      let t := es.foldl State.resetEngine (s.snoopWays p)
      let t := ({ t with coh := { t.coh with lost := t.coh.lost.filter (· != p) } } : State).modPart p fun y => { y with st := .live, reset := none }
      exec (.partitionResetComplete p) s = .next
        (((t.logRec { kind := 0x0004, part := p, a := r.reason, b := r.lost, c := ticks }).writeCard p).finishOpt r.ref .ok 0 16
          (pack [(8, (s.partAt p).gen.toNat), (8, 0), (16, r.lost), (16, r.fences), (8, es.length), (8, 0), (32, ticks), (32, 0)])))) ∧
    (s.partIdle p = false → exec (.partitionResetComplete p) s = .next s))

/-- The watchdogs and the errors of the chip. WATCHDOG_FIRE for a job that has run `watchdog_frames` resets the engine and makes of its job what `hangJob` says, with its operand cache probed out, loses the domain where the engine does not answer, and only resets the engine where the partition is not LIVE;
before that time, and in a replay, it changes nothing. ENGINE_RESET_DONE of an engine with no traffic left lets the engine back at the next boundary, or its replay go on. REPLAY_TIMEOUT makes its suspect guilty: after the first the
engine is reset again, after a second it fails; where it does not answer (an open value, DESIGN CHOICE, notes/assumptions/95.md) the domain is lost. A control core's watchdog that has missed 16 boundaries, a heartbeat missed for 64 boundaries and an error of the control domain make a chip reset due with their cause, and Lendor then serves nothing. -/
def Obligations.WatchdogsAndErrors : Prop :=
  (∀ (s : State) (e : Nat) (answers : Bool) (j : Job), s.alive = true → (s.engAt e).running = some j → s.coreStopped (1 + e / 32) = false →
    (((s.engAt e).replay.isSome = true ∨ (s.engAt e).wd < (s.partAt j.part).wdFrames) → exec (.watchdogFire e answers) s = .next s) ∧
    ((s.engAt e).replay = none → (s.partAt j.part).wdFrames ≤ (s.engAt e).wd →
      ((s.partAt j.part).st ≠ .live → exec (.watchdogFire e answers) s = .next (s.resetEngine e)) ∧
      ((s.partAt j.part).st = .live → answers = false → exec (.watchdogFire e answers) s = .next ((s.countFire e j).loseDomain j.part e 3)) ∧
      ((s.partAt j.part).st = .live → answers = true →
        (let t := (s.countFire e j).modEng e fun y => { y with st := .resetting, running := none, wd := 0, nextId := 0, ran := (s.engAt e).ranNow }
         exec (.watchdogFire e answers) s = .next ((((((t.hangJob e j).leaveService j.part e).returnQueued e).dropTiles e).freeCredit e).probeEngine e).floorSettle)))) ∧
  (∀ (s : State) (e : Nat), s.alive = true → (s.engAt e).st = .resetting → s.coreStopped (1 + e / 32) = false →
    (s.engQuiet e = false → exec (.engineResetDone e) s = .next s) ∧
    (s.engQuiet e = true → (s.engAt e).replay = none →
      exec (.engineResetDone e) s = .next ((s.probeEngine e).modEng e fun y => { y with st := .quarantined, back := true })) ∧
    (∀ r, s.engQuiet e = true → (s.engAt e).replay = some r → exec (.engineResetDone e) s =
      .next (((s.probeEngine e).modEng e fun y => { y with st := .quarantined }).nextReplay e (r.todo.length + 1)))) ∧
  (∀ (s : State) (e : Nat) (r : Replay) (c : Nat), s.alive = true → (s.engAt e).replay = some r → r.now = some c → (s.engAt e).running.isSome = true →
    (s.partAt r.batch.part).replayFrames ≤ (s.engAt e).wd → s.coreStopped (1 + e / 32) = false →
    (let q := { r with now := none, guilty := r.guilty ++ [c] }
     let u : State := { s with free := s.free + 1 }
     let t := ((u.probeEngine e).dropTiles e).modEng e fun y =>
       { y with running := none, wd := 0, replay := some q, st := .resetting, nextId := 0, ran := (s.engAt e).ranNow }
     (Config.engineAnswers s.free = false → exec (.replayTimeout e) s = .next (u.loseDomain r.batch.part e 3)) ∧
     (Config.engineAnswers s.free = true → r.guilty = [] → exec (.replayTimeout e) s = .next t) ∧
     (Config.engineAnswers s.free = true → r.guilty ≠ [] → exec (.replayTimeout e) s = .next (t.failEngine e q)))) ∧
  (∀ (s : State) (core : Nat), s.alive = true → core < 9 → s.coreStopped core = false →
    (16 ≤ (s.coreAt core).missed → exec (.coreWatchdogExpiry core) s = .next (s.needReset 3 core)) ∧
    ((s.coreAt core).missed < 16 → exec (.coreWatchdogExpiry core) s = .next s)) ∧
  (∀ (s : State), s.alive = true → (∀ core, core < 9 → s.coreStopped core = false) →
    (64 ≤ s.beat.hbMissed → exec .heartbeatTimeout s = .next (s.needReset 2 0)) ∧ (s.beat.hbMissed < 64 → exec .heartbeatTimeout s = .next s)) ∧
  (∀ (s : State) (unit syndrome : Nat), s.alive = true →
    exec (.controlDomainError unit syndrome) s = .next ((s.logRec { kind := 0x0018, part := 0xFF, a := unit, b := syndrome }).needReset 1 unit)) ∧
  (∀ (s : State) (cause detail : Nat), s.chip.pending = none → (s.needReset cause detail).chip.pending = some (cause, detail) ∧ (s.needReset cause detail).alive = false)

/-- DUMP_START, DUMP_END and LOG_READ. A DUMP_START that passes its checks makes a dump run under the next dump number with the causes asked for, unanswered; DUMP_END of a dump that runs puts it into the slot that held the older dump and answers. LOG_READ that passes answers: with the records that its mailbox may read, with the
counters, or with the bytes of a kept dump, which then stay what was shown; a dump number that no slot holds is refused with 0x0F32. -/
def Obligations.DumpsAndLog : Prop :=
  (∀ (s : State) (k : Take) (c : Cmd), s.serves k 0x0F03 = some c → Passes (dumpStartChecks c (s.takeSlot c.ref)) → 16 ≤ c.space → ∃ t d,
    exec (.dumpStart k) s = .next t ∧ t = { s.takeSlot c.ref with log := { s.log with run := some ⟨c.ref, s.nowFrame, d⟩ }, free := s.free + 1 } ∧
    d.id = s.log.dumps + 1 ∧ d.cause = 0 ∧ d.mask = c.f 0 0 8 + 0x300 ∧ d.inc = s.log.inc ∧ d.tick = s.beat.tick) ∧
  (∀ (s : State) (bytes : Nat) (r : DumpRun), s.alive = true → s.log.run = some r →
    (let d := { r.dump with bytes := bytes }
     exec (.dumpEnd bytes) s = .next ((({ s with log := { s.log with run := none } } : State).storeDump d).finish r.ref .ok 0 16
       (pack [(32, d.id), (32, bytes), (32, r.start.toNat), (32, s.nowFrame.toNat)])) ∧
     ∀ u : State, (u.storeDump d).log.dumps = d.id ∧
       (u.log.older = true → (u.storeDump d).log.slot0 = some d ∧ (u.storeDump d).log.slot1 = u.log.slot1) ∧
       (u.log.older = false → (u.storeDump d).log.slot1 = some d ∧ (u.storeDump d).log.slot0 = u.log.slot0))) ∧
  (∀ (s : State) (k : Take) (dump : Nat) (c : Cmd), s.serves k 0x0F04 = some c → Passes (logReadChecks c) →
    (let u := s.takeSlot c.ref
     let seen := u.log.recs.filter fun r => decide (c.f 8 0 64 ≤ r.seq) && u.mayRead c.ref.mb r
     let out := seen.take ((c.space - 16) / 64)
     (c.f 0 0 8 = 0 → 16 + 64 * out.length ≤ c.space → Answers (.logRead k dump) s c u ([(64, u.log.next), (16, out.length),
       (1, bit (decide (out.length < seen.length))), (1, bit (decide (max (c.f 8 0 64) 1 < u.log.first))), (46, 0)] ++ out.flatMap Rec.fields)) ∧
     (c.f 0 0 8 = 1 → 32 ≤ c.space → Answers (.logRead k dump) s c u
       [(64, u.log.first), (64, u.log.next), sat 32 u.log.lost, (32, match c.ref.mb with | .part _ => 0 | _ => u.mem.blocked.toNat),
        (32, if c.part = 0xFF then u.obs.faultAll.toNat else (u.migrateAt c.part).overflow.toNat),
        (32, if c.part = 0xFF then u.obs.wdAll.toNat else u.obs.wdPart.get 0 c.part)]) ∧
     (c.f 0 0 8 = 2 → u.log.dumpOf (c.f 4 0 32) = none → Refuses (.logRead k dump) s c .rejectedInconsistent 0x0F32) ∧
     (∀ d, c.f 0 0 8 = 2 → u.log.dumpOf (c.f 4 0 32) = some d → 16 ≤ c.space →
       (let n := min (c.space - 16) (d.bytes - c.f 8 0 64)
        let b := d.bytesFrom (c.f 8 0 64) n dump
        Answers (.logRead k dump) s c { u with log := u.log.showDump d.id (c.f 8 0 64) b }
          ([(32, d.id), (32, d.bytes), (32, n), (32, 0)] ++ b.map fun x => (8, x.toNat))))))

/-! ### Observability (19_observability) -/

/-- BREAK_SET by its `op`, breakpoints, trace and digest windows. SET arms the breakpoint of its core with its hits at 0, CLEAR makes it as after reset, RESUME releases a HELD core and is refused with 0x1023 on another, and QUERY changes nothing; each answers with what
stands after it. A hit in RUN counts; the `count`-th stops the core and takes the engines of its scope out of service; a hit in LOW only counts. A TRACE_SET that passes its checks is a set of its own that waits for the earliest boundary. TRACE_FIFO_ROOM takes packets out of the FIFO in their order; TRACE_LANE_OVERCURRENT counts a bad sample of the lane's pair, and the fourth in a row gives the pair its code. A DIGEST_WINDOW_CLOSE with nothing in the window
writes no record; one with a record counts it, a probe of one shot disarms, and a record that cannot be written disarms the probe with an event (`digestLost`). -/
def Obligations.Observation : Prop :=
  (∀ (s : State) (k : Take) (c : Cmd), s.serves k 0x1003 = some c → Passes (breakHead c (s.takeSlot c.ref)) → 16 ≤ c.space →
    (let u := s.takeSlot c.ref
     let n := c.f 1 0 4
     let b := c.f 1 4 2
     let t := u.modBp n b fun _ => ⟨true, c.f 1 6 2, BitVec.ofNat 32 (c.f 4 0 32), BitVec.ofNat 32 (c.f 8 0 32), c.f 12 0 32, 0⟩
     let v := u.modBp n b fun _ => Bp.init
     (breakOp c = 0 → Answers (.breakSet k) s c t (breakFields t n b)) ∧
     (breakOp c = 1 → Answers (.breakClear k) s c v (breakFields v n b)) ∧
     (breakOp c = 2 → (u.coreAt n).st = .held → Answers (.breakResume k) s c (u.releaseCore n) (breakFields (u.releaseCore n) n b)) ∧
     (breakOp c = 2 → (u.coreAt n).st ≠ .held → Refuses (.breakResume k) s c .rejectedInconsistent 0x1023) ∧
     (breakOp c = 3 → Answers (.breakQuery k) s c u (breakFields u n b)))) ∧
  (∀ (s : State) (c b : Nat) (pc : W32), s.alive = true → c < 8 → (s.bpAt c b).armed = true → s.coreStopped c = false → s.hasRight 3 = true →
    (let t := s.modBp c b fun x => { x with hits := satAdd 32 x.hits 1 }
     ((s.out.low = true ∨ (s.bpAt c b).hits + 1 < (s.bpAt c b).count) → exec (.breakpointHit c b pc) s = .next t) ∧
     (s.out.low = false → (s.bpAt c b).count ≤ (s.bpAt c b).hits + 1 →
       (let u := t.modCore c fun y => { y with st := .draining, pc := pc, frames := 0, hitBy := b }
        (u.coreAt c).st = .draining ∧ (u.coreAt c).pc = pc ∧ (u.coreAt c).hitBy = b ∧ (u.coreAt c).frames = 0 ∧
        exec (.breakpointHit c b pc) s = .next (((scopeEngines c).foldl (fun t e => match t.engPart e with
          | some p => t.leaveService p e
          | none => t) (u.haltPacket c 2)).holdCheck c))))) ∧
  (∀ (s : State) (c b : Nat) (pc : W32), s.alive = true → ((s.bpAt c b).armed = false ∨ s.coreStopped c = true ∨ s.hasRight 3 = false) →
    exec (.breakpointHit c b pc) s = .next s) ∧
  (∀ (s : State) (k : Take) (c : Cmd), s.serves k 0x1002 = some c → Passes (traceChecks c (s.takeSlot c.ref)) → 16 ≤ c.space →
    (let u := s.takeSlot c.ref
     exec (.traceSet k) s = .next { u with box := { u.box with sets := s.box.sets ++ [⟨[u.entryOf c (c.f 0 0 2) c.pay], s.earliest, c.ref, 0xFF, none⟩] } })) ∧
  (∀ (s : State) (n : Nat), s.alive = true → s.watch.trace.lost = [] → ∃ t, exec (.traceFifoRoom n) s = .next t ∧
    t = { s with watch := { s.watch with trace := t.watch.trace } } ∧ t.watch.trace.fifo = s.watch.trace.fifo.drop n) ∧
  (∀ (s : State) (lane code : Nat), s.alive = true → lane < 4 → 2 ≤ code → code ≤ 4 → (s.pairAt (1 + lane)).code ≠ 6 → (s.pairAt (1 + lane)).code ≠ code → ∃ t,
    exec (.traceLaneOvercurrent lane code) s = .next t ∧
    ((s.pairAt (1 + lane)).bad < 3 → t.pairAt (1 + lane) = ⟨(s.pairAt (1 + lane)).code, (s.pairAt (1 + lane)).bad + 1, 0⟩ ∧
      t.board.changes = s.board.changes ∧ t.out = s.out) ∧
    (3 ≤ (s.pairAt (1 + lane)).bad → t.pairAt (1 + lane) = ⟨code, 0, 0⟩ ∧ t.board.changes = inc32 s.board.changes ∧ t.board.changed = s.beat.tick ∧
      t.out.pldm = s.out.pldm ++ [(15 + lane, code)]) ∧
    (∀ n, n ≠ 1 + lane → t.pairAt n = s.pairAt n)) ∧
  (∀ (s : State) (p i : Nat), s.alive = true → i < 8 → (s.probeAt p i).armed = true → (s.probeAt p i).window ≤ (s.probeAt p i).frames → s.coreStopped 7 = false →
    ((s.probeAt p i).acc.lines = 0 → (s.probeAt p i).acc.unseen = 0 → exec (.digestWindowClose p i) s =
      .next (s.modProbe p i fun x => { x with frames := x.frames - x.window, acc := Digest.zero })) ∧
    (((s.probeAt p i).acc.lines ≠ 0 ∨ (s.probeAt p i).acc.unseen ≠ 0) →
      (let x := s.probeAt p i
       let a := s.digestSum x.acc
       let b := a.2.digestSum x.acc
       let w := b.2.objWriteAs (.digest p i) p x.ctx (x.out + 128 * (x.n % 2 ^ x.logSize)) 128 0 (x.record i (frameBits (s.frame - (x.frames - x.window))) a.1 b.1)
       (w.2 ≠ .failed → x.once = true → exec (.digestWindowClose p i) s = .next (w.1.modProbe p i fun _ => Probe.init)) ∧
       (w.2 ≠ .failed → x.once = false → exec (.digestWindowClose p i) s =
         .next (w.1.modProbe p i fun y => { y with n := x.n + 1, frames := x.frames - x.window, acc := Digest.zero })) ∧
       (w.2 = .failed → exec (.digestWindowClose p i) s = .next (((w.1.modProbe p i fun _ => Probe.init).countGlob 70 1).partEvent p)))))

/-! ### Doorbells, descriptors and engines (05, 06, 08) -/

/-- Doorbells and pushes (R140, R143). A doorbell of a whole ring slot publishes its value: `prod` becomes it, the write counts, the ring is the most recently doorbelled, and no other ring, no context and no line changes. A write whose value does not fit the
ring, or that comes to a ring that takes none, counts as bad and changes nothing else; a page that no LIVE or RESETTING partition holds takes none. A push stores its 64 bytes at `prod` and
publishes one descriptor, or halts the ring where they cannot be stored (where a peer chip stores them, its answer decides later); a push that does not fit, or of another width or out of alignment, counts as bad and changes nothing else. -/
def Obligations.DoorbellsAndPushes : Prop :=
  (∀ (s : State) (w : WindowWrite) (r : Nat), s.alive = true → s.barOpen = true → r < 1048576 → w.offset = 8 * r → (w.bytes = 4 ∨ w.bytes = 8) →
    (w.enables.testBit 0 = true ∧ w.enables.testBit 1 = true ∧ w.enables.testBit 2 = true ∧ w.enables.testBit 3 = true) →
    (let v := BitVec.ofNat 32 w.data
     let x := s.ringAt r
     (s.pageTakes r = false → exec (.doorbell w) s = .next s) ∧
     (s.pageTakes r = true → ((x.st ≠ .active ∧ x.st ≠ .halted) ∨ x.takes v = false) →
       exec (.doorbell w) s = .next ((s.modRing r fun x => { x with bad := inc32 x.bad }).countGlob 69 1)) ∧
     (s.pageTakes r = true → (x.st = .active ∨ x.st = .halted) → x.takes v = true → ∃ t, exec (.doorbell w) s = .next t ∧
       (t.ringAt r).prod = v ∧ (t.ringAt r).doorbells = inc32 x.doorbells ∧ (t.ringAt r).st = x.st ∧ (t.ringAt r).fetch = x.fetch ∧ (t.ringAt r).done = x.done ∧
       (v = x.prod → (t.ringAt r).frames = x.frames) ∧ (v ≠ x.prod → (t.ringAt r).frames = x.frames ++ [(v, s.frame)]) ∧
       (t.ringAt r).belled = s.ten.order + 1 ∧ t.ten.order = s.ten.order + 1 ∧ (∀ q, q ≠ r → t.ringAt q = s.ringAt q) ∧
       t = { s with ten := { s.ten with ring := t.ten.ring, order := t.ten.order }, obs := t.obs }))) ∧
  (∀ (s : State) (r : Nat) (data : BitVec 512), s.alive = true → s.barOpen = true → r < 1048576 → s.pageTakes r = true →
    (let x := s.ringAt r
     ((x.st ≠ .active ∨ x.fmt ≠ 3 ∨ x.takes (x.prod + 1) = false) →
       exec (.push (64 * r) 64 data) s = .next ((s.modRing r fun x => { x with bad := inc32 x.bad }).countGlob 69 1)) ∧
     (x.st = .active → x.fmt = 3 → x.takes (x.prod + 1) = true →
       (let w := s.objWriteAs (.push r x.prod) ((s.ringPart r).getD 0xFF) x.ctx (x.descAddr + 64 * (x.prod.toNat % x.slots)) 64 x.cls data.toNat
        (w.2 = .failed → exec (.push (64 * r) 64 data) s = .next (w.1.haltRing r 0x0323 x.prod)) ∧
        (w.2 ≠ .failed → ∃ t, exec (.push (64 * r) 64 data) s = .next t ∧ (t.ringAt r).prod = x.prod + 1 ∧
          (t.ringAt r).pushed = (w.1.ringAt r).pushed ++ [(x.prod, data)] ∧ (t.ringAt r).doorbells = inc32 (w.1.ringAt r).doorbells ∧
          (t.ringAt r).belled = w.1.ten.order + 1 ∧ (∀ q, q ≠ r → t.ringAt q = w.1.ringAt q) ∧ t.mem = w.1.mem))))) ∧
  (∀ (s : State) (offset bytes : Nat) (data : BitVec 512), s.alive = true → s.barOpen = true → bytes ≠ 0 → offset + bytes ≤ 0x4000000 →
    s.pageTakes (offset / 64) = true → (offset % 64 ≠ 0 ∨ bytes ≠ 64) →
    exec (.push offset bytes data) s = .next ((s.modRing (offset / 64) fun x => { x with bad := inc32 x.bad }).countGlob 69 1))

/-- RING_STATE_FILL and DESCRIPTOR_FETCH. A RING_STATE_FILL brings a waiting ring into its home field's cache, changes of another ring at most whether it waits for a fill, and changes nothing while every entry that could leave is pinned. DESCRIPTOR_FETCH takes the entry at `fetch`: a fault or a bad type halts the
ring (a descriptor of a bad type is fetched and unstarted), a flush or a stale name completes the descriptor at once with its status, and another descriptor joins the queue; where the ring does not fetch, or its access has to wait for its bucket, nothing changes. -/
def Obligations.RingFillsAndFetches : Prop :=
  (∀ (s : State) (r : Nat), s.alive = true → (s.ringAt r).fill = true → (s.ringAt r).st ≠ .unbound → s.coreStopped (1 + (s.ringAt r).home) = false →
    (s.cacheRing r = none → exec (.ringStateFill r) s = .next s) ∧
    (∀ u, s.cacheRing r = some u → ∃ t, exec (.ringStateFill r) s = .next t ∧ t.ringAt r = { s.ringAt r with fill := false } ∧ t.cached r = true ∧
      (∀ q, q ≠ r → t.ringAt q = { s.ringAt q with fill := (t.ringAt q).fill }) ∧
      t = { s with ten := { s.ten with ring := t.ten.ring, ringCache := t.ten.ringCache } })) ∧
  (∀ (s : State) (r : Nat) (host : Option (BitVec 512)), s.fetches r = false → exec (.descriptorFetch r host) s = .next s) ∧
  (∀ (s : State) (r : Nat) (host : Option (BitVec 512)), s.alive = true → s.fetches r = true →
    (let x := s.ringAt r
     let p := (s.ringPart r).getD 0xFF
     let i := x.fetch
     let n := if x.fmt = 3 then 64 else 32
     let copy := (x.pushed.find? fun e => e.1 == i).map Prod.snd
     let o := match copy with
       | some b => (s, some b.toNat)
       | none => s.objRead p x.ctx (x.descAddr + n * (i.toNat % x.slots)) n x.cls (host.map BitVec.toNat)
     let waits : Prop := copy = none ∧ s.objWaits p x.ctx (x.descAddr + n * (i.toNat % x.slots)) x.cls false = true
     (waits → exec (.descriptorFetch r host) s = .next s) ∧
     (¬waits → o.2 = none → exec (.descriptorFetch r host) s = .next ((o.1.haltRing r 0x0320 i).unbindCheck r).floorSettle) ∧
     (∀ v, ¬waits → o.2 = some v →
       (let d : Desc := ⟨i, BitVec.ofNat 512 (v % 2 ^ (8 * n)), ((x.frames.find? fun e => below i e.1).map Prod.snd).getD s.frame⟩
        let t := o.1.modRing r fun x => { x with
          fetch := i + 1, pushed := x.pushed.filter fun e => e.1 != i
          frames := x.frames.filter fun e => e.1 != i + 1, flushes := x.flushes.filter fun e => e.1 != i + 1 }
        let flushed := x.flushes.any fun e => below i e.1
        (flushed = false → 4 < d.type → exec (.descriptorFetch r host) s = .next
          (((t.modRing r fun x => { x with queue := x.queue ++ [d] }).haltRing r 0x0321 i).unbindCheck r).floorSettle) ∧
        ((flushed = true ∨ d.type ≤ 4) → (∀ st, t.fetchStatus p x d = some st → exec (.descriptorFetch r host) s = .next (t.complete r d st)) ∧
          (t.fetchStatus p x d = none → exec (.descriptorFetch r host) s = .next (t.modRing r fun x => { x with queue := x.queue ++ [d] }))))))) ∧
  (∀ (s : State) (p : Nat) (x : Ring) (d : Desc), (∀ e ∈ x.flushes, below d.index e.1 = false) →
    (d.partGen ≠ (s.partAt p).gen.toNat → s.fetchStatus p x d = some .staleGeneration) ∧
    (d.partGen = (s.partAt p).gen.toNat → (s.ctxAt x.ctx).st ≠ .live → s.fetchStatus p x d = some .contextLost) ∧
    (d.partGen = (s.partAt p).gen.toNat → (s.ctxAt x.ctx).st = .live → d.ctxGen ≠ (s.ctxAt x.ctx).gen.toNat → s.fetchStatus p x d = some .staleGeneration))

/-- The next descriptor of a ring by its type. NOP completes OK; a WORK is delivered where its admission cycle (that of the engine's field, R172, R174) takes it, and else the cycle only settles the field; PREFILL enters its chunk into its sequence, waits while that holds two, and completes NOT_PERMITTED where it does not fit, or with the status of a FAILED sequence; WAIT completes where the fence
satisfies it, joins the waiters where not, and flushes the ring where the fence is abandoned; SIGNAL raises a plain fence of its context, and completes ABANDONED on one that is abandoned, and NOT_PERMITTED on another or where the
fence rejects its value. On a context that is not LIVE each completes CONTEXT_LOST. -/
def Obligations.Descriptors : Prop :=
  ∀ (s : State) (r : Nat), s.alive = true →
    (let x := s.ringAt r
     let p := (s.ringPart r).getD 0xFF
     let live : Prop := (s.ctxAt x.ctx).st = .live
     (∀ d, s.head r 0 = some d → live → exec (.nop r) s = .next ((s.startDesc r d).complete r d .ok)) ∧
     (∀ d, ¬live → (s.head r 0 = some d → exec (.nop r) s = .next (s.complete r d .contextLost)) ∧
       (∀ e, s.head r 1 = some d → exec (.work r e) s = .next (s.complete r d .contextLost)) ∧
       (s.head r 2 = some d → exec (.prefill r) s = .next (s.complete r d .contextLost)) ∧
       (s.head r 3 = some d → exec (.wait r) s = .next (s.complete r d .contextLost)) ∧
       (s.head r 4 = some d → exec (.signal r) s = .next (s.complete r d .contextLost))) ∧
     (∀ d e, s.head r 1 = some d → live →
       (let f := engField e
        let t := s.floorSettle.settle f
        let mine := fun (o : Offer) => o.eng = e ∧ o.work.id = r ∧ o.desc.isSome = true
        (t.cycleFor f (t.candidates f) = none → exec (.work r e) s = .next t) ∧
        (∀ p' spare, t.cycleFor f (t.candidates f) = some (p', spare) →
          (∀ o rest, t.offers p' f = o :: rest → mine o → exec (.work r e) s = .next (t.takeCycle f p' spare)) ∧
          ((∀ o rest, t.offers p' f = o :: rest → ¬mine o) → exec (.work r e) s = .next t)))) ∧
     (∀ d, s.head r 2 = some d → live →
       (let n := d.seq x.fmt
        let q := s.seqAt n
        let pos := d.pos x.fmt
        let k := d.tokens x.fmt
        let mine : Prop := (s.partAt p).record.hasSeq n = true ∧ q.st ≠ .free ∧ q.ctx = x.ctx
        (¬mine → exec (.prefill r) s = .next (s.complete r d .notPermitted)) ∧
        (mine → q.st = .failed → exec (.prefill r) s = .next (s.complete r d q.last)) ∧
        (mine → q.st ≠ .failed → q.st ≠ .filling → exec (.prefill r) s = .next (s.complete r d .notPermitted)) ∧
        (mine → q.st = .filling → 2 ≤ q.chunks.length → exec (.prefill r) s = .next s) ∧
        (mine → q.st = .filling → q.chunks.length < 2 → (pos ≠ q.queuedEnd ∨ k = 0 ∨ q.prompt < pos + k) →
          exec (.prefill r) s = .next (s.complete r d .notPermitted)) ∧
        (mine → q.st = .filling → q.chunks.length < 2 → pos = q.queuedEnd → k ≠ 0 → pos + k ≤ q.prompt → exec (.prefill r) s =
          .next ((s.startDesc r d).modSeq n fun q => { q with queuedEnd := pos + k, chunks := q.chunks ++
            [⟨d.tokAddr x.fmt, pos, k, deadlineAt d.frame (d.deadline x.fmt), r, d⟩] })))) ∧
     (∀ d, s.head r 3 = some d → live →
       (let n := d.fence x.fmt
        let v := d.value x.fmt
        let f := s.fenceAt n
        (s.fenceFits p n v = false → exec (.wait r) s = .next (s.complete r d .notPermitted)) ∧
        (s.fenceFits p n v = true → f.st = .abandoned → exec (.wait r) s = .next (((s.startDesc r d).complete r d .abandoned).flushRing r .abandoned)) ∧
        (s.fenceFits p n v = true → f.st ≠ .abandoned → f.satisfies (BitVec.ofNat 64 v) = true → exec (.wait r) s = .next ((s.startDesc r d).complete r d .ok)) ∧
        (s.fenceFits p n v = true → f.st ≠ .abandoned → f.satisfies (BitVec.ofNat 64 v) = false → exec (.wait r) s =
          .next ((s.startDesc r d).modFence n fun f => { f with waiters := addWaiter ⟨BitVec.ofNat 64 v, r, d.index⟩ f.waiters })))) ∧
     (∀ d, s.head r 4 = some d → live →
       (let n := d.fence x.fmt
        let v := d.value x.fmt
        let f := s.fenceAt n
        let t := (s.startDesc r d).signal n (BitVec.ofNat 64 v)
        let may : Prop := s.fenceFits p n v = true ∧ f.kind = .plain ∧ f.owner = x.ctx
        (¬may → exec (.signal r) s = .next (s.complete r d .notPermitted)) ∧
        (may → f.st = .abandoned → exec (.signal r) s = .next (s.complete r d .abandoned)) ∧
        (may → f.st ≠ .abandoned → t.2 = .rejected → exec (.signal r) s = .next (t.1.complete r d .notPermitted)) ∧
        (may → f.st ≠ .abandoned → t.2 ≠ .rejected → exec (.signal r) s = .next (t.1.complete r d .ok)))))

/-- What a SIGNAL and a WAIT do to a fence (R301, R302, R303). A SIGNAL's value on a NATIVE fence is rejected when it is all ones, stale when it is not above the fence's, and else becomes the
fence's value; on a COMPAT fence the difference modulo 2^32 decides; a stale and a rejected one only count, and a rejected one completes NOT_PERMITTED. A WAIT is satisfied by a LIVE fence whose value has
reached the WAIT's, in the order of native values or, on a COMPAT fence, within half the 32-bit circle. A satisfied WAIT completes at once; another enters the fence's waiters, where it holds no credit: no
engine changes. -/
def Obligations.WaitsAndSignals : Prop :=
  (∀ (f : Fence) (v : W64), f.compat = false → (v = BitVec.allOnes 64 → f.judge v = .rejected) ∧
    (v ≠ BitVec.allOnes 64 → v.toNat ≤ f.value.toNat → f.judge v = .stale) ∧ (v ≠ BitVec.allOnes 64 → f.value.toNat < v.toNat → f.judge v = .accepted)) ∧
  (∀ (f : Fence) (v : W64), f.compat = true → (let d := (v.toNat + 2 ^ 32 - f.value.toNat % 2 ^ 32) % 2 ^ 32
    (d = 0 → f.judge v = .stale) ∧ (1 ≤ d → d < 2 ^ 31 → f.judge v = .accepted) ∧ (2 ^ 31 ≤ d → f.judge v = .rejected))) ∧
  (∀ (s : State) (r : Nat) (d : Desc), s.alive = true → s.head r 4 = some d → (s.ctxAt (s.ringAt r).ctx).st = .live →
    (let n := d.fence (s.ringAt r).fmt
     let v := BitVec.ofNat 64 (d.value (s.ringAt r).fmt)
     let f := s.fenceAt n
     let u := s.startDesc r d
     s.fenceFits ((s.ringPart r).getD 0xFF) n (d.value (s.ringAt r).fmt) = true → f.kind = .plain → f.owner = (s.ringAt r).ctx → f.st = .live →
       (f.judge v = .accepted → exec (.signal r) s = .next (((u.setFence n v).updateSubs n).complete r d .ok) ∧ ((u.setFence n v).fenceAt n).value = v) ∧
       (f.judge v = .stale → exec (.signal r) s = .next ((u.modFence n fun f => { f with stale := inc32 f.stale }).complete r d .ok)) ∧
       (f.judge v = .rejected → exec (.signal r) s = .next ((u.modFence n fun f => { f with rejected := inc32 f.rejected }).complete r d .notPermitted)))) ∧
  (∀ (f : Fence) (w : W64), f.st = .live → (f.compat = false → (f.satisfies w = true ↔ w.toNat ≤ f.value.toNat)) ∧
    (f.compat = true → (f.satisfies w = true ↔ (f.value.toNat + 2 ^ 32 - w.toNat % 2 ^ 32) % 2 ^ 32 < 2 ^ 31))) ∧
  (∀ (s : State) (r : Nat) (d : Desc), s.alive = true → s.head r 3 = some d → (s.ctxAt (s.ringAt r).ctx).st = .live →
    s.fenceFits ((s.ringPart r).getD 0xFF) (d.fence (s.ringAt r).fmt) (d.value (s.ringAt r).fmt) = true →
    (s.fenceAt (d.fence (s.ringAt r).fmt)).st = .live →
    (let f := s.fenceAt (d.fence (s.ringAt r).fmt)
     let w := BitVec.ofNat 64 (d.value (s.ringAt r).fmt)
     (f.satisfies w = true → exec (.wait r) s = .next ((s.startDesc r d).complete r d .ok)) ∧
     (f.satisfies w = false → ∃ t, exec (.wait r) s = .next t ∧ t.eng = s.eng ∧ (⟨w, r, d.index⟩ : Waiter) ∈ (t.fenceAt (d.fence (s.ringAt r).fmt)).waiters ∧
       (∀ n, n ≠ d.fence (s.ringAt r).fmt → t.fenceAt n = s.fenceAt n))))

/-- What an engine reports once every write of its job is accepted. WORK_COMPLETION completes the WORK that runs with its status: STALE_GENERATION or CONTEXT_LOST where a generation has moved on, else that of its first failed tile, else OK; a failure with a reason costs the context its life where it is still the same, and the work of a generation that is over counts no operations.
BATCH_COMPLETION completes its rows (`completeBatch`), and in a replay lets the next suspect follow. Then what follows a job's end happens (`jobEnded`). A report while a write of the engine still waits (the model's choice, log 79), or of an engine that runs no such job, changes nothing. -/
def Obligations.EngineReports : Prop :=
  (∀ (s : State) (e : Nat) (r : EngineReport) (w : WorkRun), s.alive = true → s.writesWait e = false → (s.engAt e).running = some (.work w) →
    (let f := engField e
     let time := s.beat.tick.toNat - w.start
     let st := s.workStatus w
     let t := (s.endJob e).complete w.ring w.desc st
     let t := t.modPart w.part fun p => { p with tally := { p.tally with poisoned := satAdd 16 p.tally.poisoned (bit (st == .poisoned)) } }
     let same : Prop := (t.ctxAt w.ctx).gen = w.ctxGen
     let u := (((t.refund w.part w.ctx f ((w.charge : Int) - time)).engineTime w.ctx time).countCtx w.ctx 0 r.sram).modCtxf w.ctx f fun x =>
       { x with workEst := moveEst x.workEst time 1 }
     let count := fun (x : State) => if same ∧ (s.partAt w.part).gen = w.partGen then (x.countPart w.part 0 r.sram).countOps w.part r.ops else x.countPart w.part 0 r.sram
     ((∀ x, w.failed = some x → x.reason = 0) → same → exec (.workCompletion e r) s = .next ((count u).jobEnded e)) ∧
     (∀ x, w.failed = some x → x.reason ≠ 0 → same → exec (.workCompletion e r) s = .next (((count u).loseCtx w.ctx x.reason x.addr w.ring).jobEnded e)) ∧
     (¬same → exec (.workCompletion e r) s = .next ((count t).jobEnded e)))) ∧
  (∀ (s : State) (w : WorkRun), ((s.partAt w.part).gen ≠ w.partGen → s.workStatus w = .staleGeneration) ∧
    ((s.partAt w.part).gen = w.partGen → (s.ctxAt w.ctx).gen ≠ w.ctxGen → s.workStatus w = .contextLost) ∧
    ((s.partAt w.part).gen = w.partGen → (s.ctxAt w.ctx).gen = w.ctxGen → w.failed = none → s.workStatus w = .ok) ∧
    (∀ x, (s.partAt w.part).gen = w.partGen → (s.ctxAt w.ctx).gen = w.ctxGen → w.failed = some x → s.workStatus w = x.status)) ∧
  (∀ (s : State) (e : Nat) (rows : List RowReport) (r : EngineReport) (b : Batch), s.alive = true → s.writesWait e = false → (s.engAt e).running = some (.batch b) →
    (let t := (s.endJob e).modEng e fun x => { x with ran := some b.part }
     ((s.engAt e).replay = none → exec (.batchCompletion e rows r) s = .next ((t.completeBatch e b rows r).jobEnded e)) ∧
     (∀ y, (s.engAt e).replay = some y → exec (.batchCompletion e rows r) s =
       .next ((((t.modEng e fun x => { x with replay := some { y with now := none } }).completeBatch e b rows r).nextReplay e (y.todo.length + 1)).jobEnded e)))) ∧
  (∀ (s : State) (e : Nat) (rows : List RowReport) (r : EngineReport), (s.writesWait e = true ∨ ∀ b, (s.engAt e).running ≠ some (.batch b)) →
    exec (.batchCompletion e rows r) s = .next s) ∧
  (∀ (s : State) (e : Nat) (r : EngineReport), (s.writesWait e = true ∨ ∀ w, (s.engAt e).running ≠ some (.work w)) → exec (.workCompletion e r) s = .next s)

/-- ADMISSION_CYCLE and the floor window. An ADMISSION_CYCLE of a field settles it and goes to the partition that `cycleFor` picks (R174), which admits the first of its offers that can be: where it does, `used` counts it, and a spare cycle counts as spare; the candidates below their guarantee that
were not picked count it as denied. With no candidate only the field settles; a field that does not exist does nothing. FLOOR_WINDOW_OPEN, FLOOR_DUE and FLOOR_WINDOW_CLOSE run once where they are due: the opening as `floorOpen` says, once the window before has closed; after the due frame each context that is due is owed, or was due before; the close leaves none owed or due. Hawk's service pass follows the last of them. -/
def Obligations.Admission : Prop :=
  (∀ (s : State) (f : Nat), s.alive = true → f < 4 →
    (let u := s.floorSettle.settle f
     let cand := parts.filter fun p => !(u.serving p f).isEmpty && !(u.offers p f).isEmpty
     (u.cycleFor f cand = none → exec (.admissionCycle f) s = .next u) ∧
     (∀ p spare, u.cycleFor f cand = some (p, spare) →
       (let a := if spare = true then u.spareTurn f p cand else u
        let t := (cand.filter fun q => q != p && decide ((u.pfieldAt q f).used < u.cycleGuar q f)).foldl (fun t q =>
          t.modPfield q f fun x => { x with denied := x.denied + 1 }) a
        let o := t.admitOne p f (t.offers p f)
        (o.2 = false → exec (.admissionCycle f) s = .next o.1.floorSettle) ∧
        (o.2 = true → spare = false → exec (.admissionCycle f) s =
          .next ((o.1.modPfield p f fun x => { x with used := satAdd 16 x.used 1, spare := x.spare + 0 }).settlePart p f)) ∧
        (o.2 = true → spare = true → exec (.admissionCycle f) s =
          .next (((o.1.modPfield p f fun x => { x with used := satAdd 16 x.used 1, spare := x.spare + 1 }).countGlob (8 * f + 5) 1).settlePart p f)))))) ∧
  (∀ (s : State) (f : Nat), 4 ≤ f → exec (.admissionCycle f) s = .next s) ∧
  (∀ s : State, s.alive = true → 5 ∈ s.beat.due → 50 ∉ s.beat.due →
    exec .floorWindowOpen s = .next (floorOpen { s with beat := { s.beat with due := s.beat.due.filter fun x => x != 5 } }).servicePass) ∧
  (∀ s : State, s.alive = true → 50 ∈ s.beat.due → exec .floorWindowOpen s = .next s) ∧
  (∀ s : State, s.alive = true → 51 ∈ s.beat.due → ∃ t : State, exec .floorDue s = .next t.servicePass ∧ t.org.winStep = 1 ∧
    t.beat = { s.beat with due := s.beat.due.filter fun x => x != 51 } ∧ (Tab.wf CtxField.init s.ten.ctxf = true →
      ∀ c f, (t.ctxfAt c f).due = true → (t.ctxfAt c f).owed = true ∨ (s.ctxfAt c f).due = true)) ∧
  (∀ s : State, s.alive = true → 50 ∈ s.beat.due → ∃ t : State, exec .floorWindowClose s = .next t.servicePass ∧ t.org.winStep = 0 ∧ t.beat.due = s.beat.due.filter (fun x => x != 50) ∧
    ∀ c f, (t.ctxfAt c f).owed = false ∧ (t.ctxfAt c f).due = false)

/-! ### The beat (03_beat_and_frames) -/

/-- FRAME_BOUNDARY and HOLD_RELEASE. A FRAME_BOUNDARY takes a counter that runs to its next multiple of 8,192 (`runTo`, once Lendor has marked which contexts have waited through the frame) and runs the boundary there (`runBoundary`). In RESYNC an error of more than a frame behind the beat makes the counter step to a later boundary, and one of more than a frame ahead of it holds the counter at the next boundary and fires
nothing; a fire that a hold has left comes first. HOLD_RELEASE in RESYNC fires the held boundary with no error left. A counter that does not run, or that is held, has no boundary, and one that is not held has no release. -/
def Obligations.FrameBoundaries : Prop :=
  (∀ (s : State) (env : FrameEnv), (s.beat.run = false ∨ s.beat.hold = true) → exec (.frameBoundary env) s = .next s) ∧
  (∀ (s : State) (env : FrameEnv), s.alive = true → s.beat.run = true → s.beat.hold = false →
    (s.beat.fire = true → exec (.frameBoundary env) s = .next ((s.modBeat fun b => { b with fire := false }).runBoundary env)) ∧
    (s.beat.fire = false → s.beat.plumb ≠ .resync → ∃ t, exec (.frameBoundary env) s = .next t ∧
      t = ((s.markWaits.arrive s.nextBoundary s.beat.err).runBoundary env).checkResync ∧ t.beat.tick = BitVec.ofNat 64 s.nextBoundary) ∧
    (s.beat.fire = false → s.beat.plumb = .resync → s.beat.err.natAbs ≤ 4 * 8192 → exec (.frameBoundary env) s =
      .next (((s.markWaits.runTo s.nextBoundary).runBoundary env).checkResync) ∧
      (slewPoints s.beat.tick.toNat s.nextBoundary < s.beat.need →
        s.markWaits.runTo s.nextBoundary = s.markWaits.arrive s.nextBoundary (s.beat.slewed (slewPoints s.beat.tick.toNat s.nextBoundary)))) ∧
    (s.beat.fire = false → s.beat.plumb = .resync → s.beat.err < -(4 * 8192) →
      (let land := (4 * (s.nextBoundary : Int) - s.beat.err).toNat / 4 / 8192 * 8192
       land % 8192 = 0 ∧ s.nextBoundary + 8192 ≤ land ∧ exec (.frameBoundary env) s =
         .next (((s.markWaits.stepTo land (s.beat.err + 4 * ((land : Int) - s.nextBoundary))).runBoundary env).checkResync))) ∧
    (s.beat.fire = false → s.beat.plumb = .resync → 4 * 8192 < s.beat.err → ∃ t, exec (.frameBoundary env) s = .next t ∧ t.beat.hold = true ∧
      t = { s with beat := { s.beat with tick := BitVec.ofNat 64 s.nextBoundary, hold := true }, org := { s.org with skewed := true },
                   ten := { s.ten with waits := t.ten.waits } })) ∧
  (∀ (s : State) (env : FrameEnv), s.alive = true → s.beat.hold = true → s.beat.plumb = .resync → exec (.holdRelease env) s =
    .next (((s.modBeat fun b => { b with hold := false, err := 0 }).runBoundary env).checkResync)) ∧
  (∀ (s : State) (env : FrameEnv), s.beat.hold = false → exec (.holdRelease env) s = .next s)

/-- THERMAL_WINDOW_CLOSE, EPOCH_BOUNDARY, MAINTENANCE_SLOT and SHARED_POISON_REWRITE. The actions of a boundary that are due happen once, in their order: the thermal window after the floor window (with the hottest of the diodes that serve, where one does), the epoch after both, and the maintenance slot after the
epoch, in which the activities that have finished end and those that may start begin, but not while a dump runs; Hawk's service pass follows the last. Where the action is not due, or an earlier one still is, nothing changes. A SHARED_POISON_REWRITE that waits goes from the waiting list, and writes its block from the copy where every line of that is good; where not, an ACTIVE slot is degraded and its members are lost. -/
def Obligations.BoundaryActions : Prop :=
  (∀ (s : State) (onDie : List Nat), s.alive = true → s.coreStopped 5 = false → 6 ∈ s.beat.due → 5 ∉ s.beat.due → 50 ∉ s.beat.due →
    exec (.thermalWindowClose onDie) s = .next (thermalWindowClose onDie { s with beat := { s.beat with due := s.beat.due.filter fun x => x != 6 } }).servicePass) ∧
  (∀ (s : State) (onDie : List Nat), (6 ∉ s.beat.due ∨ 5 ∈ s.beat.due ∨ 50 ∈ s.beat.due) → exec (.thermalWindowClose onDie) s = .next s) ∧
  (∀ (s : State) (onDie : List Nat) (d : Nat), d < 4 → ((s.pairAt (13 + d)).code = 0 ∨ (s.pairAt (13 + d)).code = 5) →
    ∃ k, k < 4 ∧ ((s.pairAt (13 + k)).code = 0 ∨ (s.pairAt (13 + k)).code = 5) ∧ s.board.diode.get 0 d ≤ s.board.diode.get 0 k ∧
      thermalWindowClose onDie s = (s.modBoard fun b => { b with onDie := false }).thermalClose (s.board.diode.get 0 k) k) ∧
  (∀ (s : State) (flashOk : Bool), s.alive = true → 7 ∈ s.beat.due → 5 ∉ s.beat.due → 50 ∉ s.beat.due → (6 ∉ s.beat.due ∨ s.coreStopped 5 = true) →
    exec (.epochBoundary flashOk) s = .next (epochBoundary flashOk { s with beat := { s.beat with due := s.beat.due.filter fun x => x != 7 } }).servicePass) ∧
  (∀ (s : State) (flashOk : Bool), (5 ∈ s.beat.due ∨ 50 ∈ s.beat.due ∨ 7 ∉ s.beat.due) → exec (.epochBoundary flashOk) s = .next s) ∧
  (∀ (s : State) (bad : List (Nat × EccEvent)), s.alive = true → 8 ∈ s.beat.due → 7 ∉ s.beat.due → s.epochWaits = false →
    (let u : State := { s with beat := { s.beat with due := s.beat.due.filter fun x => x != 8 } }
     (s.log.run ≠ none → exec (.maintenanceSlot bad) s = .next u.servicePass) ∧
     (s.log.run = none → (let t := (s.mem.acts.map Activity.id).foldl (fun t i => t.endActivity bad i) u
       exec (.maintenanceSlot bad) s = .next (((sortOn (fun (a : Activity) => (a.code : Int)) t.mem.acts).map Activity.id).foldl State.beginActivity t).servicePass)))) ∧
  (∀ (s : State) (bad : List (Nat × EccEvent)), (8 ∉ s.beat.due ∨ 7 ∈ s.beat.due ∨ s.epochWaits = true) → exec (.maintenanceSlot bad) s = .next s) ∧
  (∀ (s : State) (g n block : Nat) (ecc : EccEvent) (w : Rewrite), s.alive = true →
    s.mem.rewrites.find? (fun w => w.group == g && w.slot == n && w.block == block) = some w →
    (let sl := (s.groupAt g).slot n
     let u := { s with mem := { s.mem with rewrites := s.mem.rewrites.filter fun x => x != w } }
     let o := u.copyLines w.part (sl.copy + 4096 * block) ecc (List.range 32)
     (∀ ls, o.2 = some ls → exec (.sharedPoisonRewrite g n block ecc) s = .next
       (((ls.zipIdx.foldl (fun (t : State) (x : LineData × Nat) => match t.zeroPlace w.part (sl.fast + 4096 * block + 128 * x.2) with
         | some (_, a, key) => t.copyWrite false w.part key a (tweakOf 1 w.part) (some x.1)
         | none => t) o.1).logRec { kind := 0x0009, part := w.part, a := g, b := w.addr, c := 0 }).partEvent w.part)) ∧
     (o.2 = none → sl.st = .active → exec (.sharedPoisonRewrite g n block ecc) s = .next
       (((o.1.degrade w.part g n).loseMembers g).logRec { kind := 0x0009, part := w.part, a := g, b := w.addr, c := 1 })) ∧
     (o.2 = none → sl.st ≠ .active → exec (.sharedPoisonRewrite g n block ecc) s = .next o.1)))

/-- MARKER_WORD, BEAT_SOURCE_LOSS, ACQUIRE_TIMEOUT, FREE_RUN_EXPIRY, SLEW_ADJUST and OFFSET_PASS. In ACQUIRE the second good marker of two blocks in a row at the pin locks the counter on the pin and opens the window; a word before that phase, or from a source that Plumb does not listen to, does nothing. A source that goes quiet leaves LOCKED for FREE_RUN, and ACQUIRE
without a source ends in DRIFTING with the window open; 1,024 boundaries in FREE_RUN end in DRIFTING with an event, and before that nothing changes. While the counter slews it is corrected where bits [9:0] are 0x200, and moves on by one tick or by two; elsewhere a SLEW_ADJUST does nothing. RESYNC ends in LOCKED when the error is within one tick. An OFFSET_PASS of 16 exchanges that is due keeps the offset and the round trip of the exchange with the least round trip, and changes no other port. -/
def Obligations.PlumbSteps : Prop :=
  (∀ (s : State) (w : BitVec 96) (lag : Nat), s.alive = true → s.chip.phase = 4 → s.chip.failed = false → s.beat.plumb = .acquire → w.toNat / 2 ^ 80 = 0xA5C3 →
    (s.pairAt 0).code = 0 → markerGood w = true → 40960 ≤ markerTick w → s.beat.seen.get none 0 = some (markerTick w - 40960) → ∃ t,
    exec (.markerWord .pin w lag false) s = .next t ∧ t.beat.plumb = .locked ∧ t.beat.source = some .pin ∧ t.beat.run = true ∧ t.chip.opened = true ∧ t.chip.phase = 5 ∧
    t.beat.tick = BitVec.ofNat 64 ((((4 * (markerTick w + lag) : Nat) : Int) + signed 16 s.beat.trim.toNat) / 4).toNat) ∧
  (∀ (s : State) (src : BeatSource) (w : BitVec 96) (lag : Nat) (inverted : Bool), (s.chip.phase < 4 ∨ s.chip.failed = true ∨ s.listens src = false) →
    exec (.markerWord src w lag inverted) s = .next s) ∧
  (∀ s : State, s.alive = true → s.beat.plumb = .locked → ∃ t, exec .beatSourceLoss s = .next t ∧ s.beat.faults.toNat ≤ t.beat.faults.toNat ∧
    t = { s with beat := { s.beat with plumb := .freeRun, source := none, freerun := 0, bad := 0, seen := [], faults := t.beat.faults } }) ∧
  (∀ s : State, s.alive = true → s.beat.plumb = .acquire → s.chip.phase = 4 → s.chip.failed = false → ∃ t, exec .acquireTimeout s = .next t ∧
    t.beat.plumb = .drifting ∧ t.beat.drift = true ∧ t.beat.run = true ∧ t.beat.tick = 0 ∧ t.beat.never = true ∧ t.chip = { s.chip with opened := true, phase := 5 }) ∧
  (∀ s : State, s.alive = true → s.beat.plumb = .freeRun → (s.beat.freerun < 1024 → exec .freeRunExpiry s = .next s) ∧
    (1024 ≤ s.beat.freerun → ∃ t, exec .freeRunExpiry s = .next t ∧ t.beat = { s.beat with plumb := .drifting, drift := true } ∧
      t = ((s.modBeat fun x => { x with plumb := .drifting }).setDrift true).chipEvent)) ∧
  (∀ s : State, s.alive = true → s.beat.slews = true → s.beat.tick.toNat % 1024 = 0x200 →
    (0 < s.beat.err → exec .slewAdjust s = .next (s.modBeat fun x => { x with tick := x.tick + 1, err := x.err - 4 }).checkResync) ∧
    (s.beat.err < 0 → exec .slewAdjust s = .next (s.modBeat fun x => { x with tick := x.tick + 2, err := x.err + 4 }).checkResync)) ∧
  (∀ s : State, (s.beat.slews = false ∨ s.beat.tick.toNat % 1024 ≠ 0x200) → exec .slewAdjust s = .next s) ∧
  (∀ (s : State) (src : BeatSource), s.beat.source = some src → s.beat.plumb = .resync → s.beat.err.natAbs ≤ 4 → s.beat.hold = false →
    s.checkResync.beat.plumb = .locked ∧ s.checkResync.beat.drift = false ∧ s.checkResync.beat.tick = s.beat.tick ∧ s.checkResync.beat.lastLock = s.beat.tick) ∧
  (∀ (s : State) (p : Nat) (l : List Exchange), s.alive = true → l.length = 16 → (s.portAt p).up = true → (s.portAt p).due = true → s.coreStopped 6 = false → ∃ x t, x ∈ l ∧
    (∀ y ∈ l, roundTrip x ≤ roundTrip y) ∧ exec (.offsetPass p l) s = .next t ∧
    t.portAt p = { s.portAt p with due := false, valid := true, offset := clampInt 16 (((x.t2 - x.t1) - (x.t4 - x.t3)) / 2), rtt := min (roundTrip x).toNat 65535 } ∧
    t.net.measured = s.beat.tick ∧ (∀ q, q ≠ p → t.portAt q = s.portAt q) ∧ t.beat = s.beat)

/-! ### Links and peers -/

/-- LINK_TRAINED, LINK_DOWN, PEER_UNREACHABLE_EXPIRY, RESET_NOTICE, PEER_DRIFT_ADVERTISEMENT and LINK_RESPONSE. Once the incarnation is written, a port that trains at level 2 or above is up with what its peer said and an offset pass due, its node is neither reset nor gone, and no other port changes; with a lower level it stays down with an event; before, nothing changes. LINK_DOWN takes an up port down and ends what waits for its answers (`endPort`), and
where no other link leads to its node marks the node as gone and ends the imports that wait for it; 64 boundaries later its PROXY fences are abandoned. A RESET_NOTICE about another chip's new incarnation is forwarded and acted upon once, with a record. A peer's
advertisement is kept for its port, and Plumb leaves a port that it uses and that qualifies no longer. A LINK_RESPONSE answers a write of Lendor's own (`writeAnswered`) or a tile's remote access: one that fails ends the tile (`remoteFail`), one that is OK counts a read's bytes, gives the credit back and ends the tile with its last access. -/
def Obligations.LinkSteps : Prop :=
  (∀ (s : State) (p : Nat) (r : TrainReport), s.alive = true → p < 18 → s.landed = true → s.coreStopped 6 = false → 3 ≤ s.chip.phase →
    (r.level < 2 → exec (.linkTrained p r) s = .next (s.modPort p fun x => { x with up := false }).chipEvent) ∧
    (2 ≤ r.level → ∃ t, exec (.linkTrained p r) s = .next t ∧ t.portAt p = ⟨true, r.node, r.incarnation, decide (r.level = 2), r.plumb, r.pin, r.drift, false, 0, 0, true⟩ ∧
      (∀ q, q ≠ p → t.portAt q = s.portAt q) ∧ t.net.reset = s.net.reset.drop r.node ∧ t.net.gone = s.net.gone.drop r.node)) ∧
  (∀ (s : State) (p : Nat) (r : TrainReport), (18 ≤ p ∨ s.landed = false ∨ s.chip.phase < 3) → exec (.linkTrained p r) s = .next s) ∧
  (∀ (s : State) (p : Nat), s.alive = true → (s.portAt p).up = true →
    (let t := (s.dropPort p).endPort p
     ((t.net.ports.any fun e => e.2.up && e.2.node == (s.portAt p).node) = true → exec (.linkDown p) s = .next t) ∧
     ((t.net.ports.any fun e => e.2.up && e.2.node == (s.portAt p).node) = false → exec (.linkDown p) s =
       .next (({ t with net := { t.net with gone := t.net.gone.put none (s.portAt p).node (some 0) } } : State).endImports (s.portAt p).node)) ∧
     ((s.dropPort p).portAt p).up = false)) ∧
  (∀ (s : State) (node n : Nat), s.alive = true → s.net.gone.get none node = some n → (n < 64 → exec (.peerUnreachableExpiry node) s = .next s) ∧
    (64 ≤ n → exec (.peerUnreachableExpiry node) s = .next (({ s with net := { s.net with gone := s.net.gone.drop node } } : State).abandonProxies node))) ∧
  (∀ (s : State) (p node : Nat) (inc : W32), s.alive = true → (s.portAt p).up = true → node ≠ s.ownNode →
    (s.net.reset.get none node = some inc → exec (.resetNotice p node inc) s = .next s) ∧
    (s.net.reset.get none node ≠ some inc →
      (let t := (List.range 18).foldl (fun t q => if q ≠ p ∧ (t.portAt q).up = true then t.linkSend (.resetNotice q node inc) else t) (s.countMsg p 6 false)
       let t := (List.range 18).foldl (fun t q => if (t.portAt q).up = true ∧ (t.portAt q).node = node then t.dropPort q else t) t
       let t := { t with net := { t.net with reset := t.net.reset.put none node (some inc) } }
       exec (.resetNotice p node inc) s = .next (((((t.endAccesses node).abandonProxies node).dropSubs node).endImports node).logRec
         { kind := 0x0007, part := 0xFF, place := p, a := node, b := inc.toNat, c := (s.remoteTiles node).length })))) ∧
  (∀ (s : State) (p plumb : Nat) (pin drift : Bool), s.alive = true → (s.portAt p).up = true →
    (let t := (s.countMsg p 7 false).modPort p fun x => { x with plumb := plumb % 8, pin := pin, drift := drift }
     ((s.beat.source ≠ some (.port p) ∨ t.portQualifies p = true) → exec (.peerDriftAdvertisement p ⟨plumb, pin⟩ drift) s = .next t) ∧
     (s.beat.source = some (.port p) → t.portQualifies p = false → exec (.peerDriftAdvertisement p ⟨plumb, pin⟩ drift) s = .next t.beatSourceLoss))) ∧
  (∀ (s : State) (p id : Nat) (a : PeerAnswer) (w : RemoteWrite), s.alive = true → (s.portAt p).up = true → s.net.writes.find? (fun w => w.id == id) = some w →
    exec (.linkResponse p id a) s = .next (s.writeAnswered w (a.status == .ok))) ∧
  (∀ (s : State) (p id : Nat) (a : PeerAnswer) (x : TileRun), s.alive = true → s.net.writes.find? (fun w => w.id == id) = none → s.xl.tiles.get none id = some x →
    (s.portAt p).up = true → x.st = .moving → x.left ≠ [] →
    (a.status ≠ .ok → exec (.linkResponse p id a) s = .next (s.remoteFail id x a)) ∧
    (let n := s.remoteBytes x
     let t := if x.req.write then s else s.countLink x.part n.1 p n.2 false
     (a.status = .ok → x.left.length = 1 → exec (.linkResponse p id a) s = .next ((t.dropTile id).freeCredit4 id)) ∧
     (a.status = .ok → 2 ≤ x.left.length → exec (.linkResponse p id a) s = .next ((t.putTile id { x with left := x.left.drop 1 }).freeCredit4 id))))

/-! ### Starts and power (18, 20) -/

/-- CHIP_RESET, POWER_ON, PCIE_RESET and POWER_LOSS. A chip reset that is due on a part with power is no longer due, and leaves nothing of the mailboxes, pending sets, partitions, contexts and rings, fences, regulation, translation, counters and the watch, of power but the rail targets of the start, and of memory but the lines of the dump region, the saved slots and which lane serves a line; the counter stands at 0 in ACQUIRE, the fused state is in effect, and the certificate, the grant and the challenge are gone. Where no image is
usable it stops, with a failed start but in SCRAP; where one is, that image runs; where training fails it stops at the unit named; else it ends in phase 4 with the next incarnation and the targets of all rails. Each writes its record. Where power is lost as the root is generated the part stands without power. Without a reset due nothing changes. POWER_ON makes one
due on a part without power, PCIE_RESET with its cause on one that serves; POWER_LOSS leaves a part without power, without key slots, log, memory or tenants, and with its fuses, its certificate and its flash copy as they were. -/
def Obligations.StartOfTheChip : Prop :=
  (∀ (s : State) (env : StartEnv), s.chip.pending = none → exec (.chipReset env) s = .next s) ∧
  (∀ (s : State) (env : StartEnv) (cause unit : Nat), s.chip.powered = true → s.chip.pending = some (cause, unit) →
    (let sec := s.cleared.sec.begin_ env s.chip.serial
     let started : Prop := (sec.chooseImage env.imageA env.imageB).isSome = true ∧ env.failUnit = none
     ∃ t, exec (.chipReset env) s = .next t ∧ t.chip.pending = none ∧ t.chip.opened = false ∧ t.pending = s.pending ∧
      t.box.mbx = [] ∧ t.box.sets = [] ∧ t.org = Org.init ∧ t.ten = Tenant.init ∧ t.fen = FenceUnit.init ∧ t.reg = Reg.init ∧ t.xl = Xlate.init ∧
      t.beat.tick = 0 ∧ t.beat.plumb = .acquire ∧ t.sec.fuse = sec.fuse ∧ t.sec.lc = sec.fuse ∧ t.sec.cert = none ∧ t.sec.grant = none ∧ t.sec.challenge = none ∧
      t.obs = Obs.init ∧ t.watch = { Watch.init with core := t.watch.core } ∧
      (s.cleared.sec.rootLost env = true → t.chip.powered = false ∧ t.sec.slots = [] ∧ t.log.recs = [] ∧ t.mem = { Mem.init with laneOf := s.mem.laneOf }) ∧
      (s.cleared.sec.rootLost env = false → t.chip.powered = true ∧ t.sec.slots = sec.slots ∧
        t.mem = { Mem.init with laneOf := s.mem.laneOf, saves := s.mem.saves, line := s.mem.line.filter fun e => inDump (e.1 * 128) } ∧
        (started → t.pwr = { Power.init with targets := t.pwr.targets } ∧ (∀ rail, rail < 8 → t.pwr.targets.get 0 rail = Config.railTarget rail)) ∧
        (¬started → t.pwr = Power.init) ∧
        (∃ r ∈ t.log.recs, r.kind = 0x0006 ∧ r.a = cause ∧ r.b = unit ∧ r.inc = t.log.inc) ∧
        (sec.chooseImage env.imageA env.imageB = none → t.chip.secOnly = true ∧ t.chip.phase = 0 ∧ (t.chip.failed = true ↔ sec.lc ≠ .scrap)) ∧
        (∀ image signed_, sec.chooseImage env.imageA env.imageB = some (image, signed_) → t.sec.signed = signed_ ∧ t.chip.build = image.build ∧
          t.chip.version = image.security ∧
          (∀ u, env.failUnit = some u → t.chip.phase = 2 ∧ t.chip.failed = true ∧ t.chip.failUnit = u ∧ t.chip.secOnly = true) ∧
          (env.failUnit = none → t.chip.phase = 4 ∧ t.chip.failed = false ∧ t.chip.secOnly = false ∧ t.coh.cap = env.nativeCap ∧
            t.log.inc = ({ s.log with flash := if s.cleared.sec.erases then 0 else s.log.flash } : Log).newInc))))) ∧
  (∀ s : State, (s.chip.powered = true → exec .powerOn s = .next s) ∧ (s.chip.powered = false →
    exec .powerOn s = .next { s with chip := { s.chip with powered := true, pending := some (8, 0) } })) ∧
  (∀ s : State, s.alive = true → exec .pcieReset s = .next { s with chip := { s.chip with pending := some (7, 0) } }) ∧
  (∀ s : State, s.chip.powered = false → exec .powerLoss s = .next s) ∧
  (∀ s : State, s.chip.powered = true → ∃ t, exec .powerLoss s = .next t ∧ t.chip.powered = false ∧ t.alive = false ∧ t.pending = s.pending ∧ t.sec.slots = [] ∧
    t.sec.measured = none ∧ t.sec.fuse = s.sec.fuse ∧ t.sec.burned = s.sec.burned ∧ t.sec.marks = s.sec.marks ∧ t.sec.rowA = s.sec.rowA ∧ t.sec.rowB = s.sec.rowB ∧
    t.sec.saved = s.sec.saved ∧ t.log.flash = s.log.flash ∧ t.log.recs = [] ∧ t.mem = { Mem.init with laneOf := s.mem.laneOf } ∧ t.org = Org.init ∧ t.ten = Tenant.init)

/-! ### The board side and the TAP (16, 20) -/

/-- The board side. BOARD_STATUS only answers. Over I3C an address is taken with ENTDAA or, where there is a static one, SETDASA, and lost with a stuck line, which counts; the reading of a sensor that exists is returned while the target has an address, and
MCTP control messages, GET_PDR and SET_EVENT_RECEIVER change nothing of Lendor. SENSE_FAULT shows the code of every sense pair, takes no write and is 0 at reset (R574). -/
def Obligations.BoardSide : Prop :=
  (∀ (s : State) (k : Take) (c : Cmd), s.serves k 0x1101 = some c → 64 ≤ c.space →
    (let u := s.takeSlot c.ref
     let b := u.board
     Answers (.boardStatus k) s c u ([(32, u.beatTraceReg), (32, u.senseReg), (32, u.diodeReg), (32, u.boardMisc), (32, b.changes.toNat), (32, b.stuck.toNat),
       (64, b.changed.toNat)] ++ ((List.range 8).map fun p => sat 16 (b.sense.get 0 p)) ++
       ((List.range 4).map fun d => (16, unsigned 16 (u.diodeShown d))) ++ [(64, 0)]))) ∧
  (∀ s : State, s.alive = true → exec .sdaStuck s = .next { s with board := { s.board with active := false, addr := 0, stuck := inc32 s.board.stuck } }) ∧
  (∀ (s : State) (a : BitVec 7), s.alive = true → exec (.entdaa a) s = .next { s with board := { s.board with active := true, addr := a } }) ∧
  (∀ s : State, s.alive = true → (s.board.static_ = 0 → exec .setdasa s = .next s) ∧
    (s.board.static_ ≠ 0 → exec .setdasa s = .next { s with board := { s.board with active := true, addr := s.board.static_ } })) ∧
  (∀ s : State, exec .mctpControl s = .next s ∧ exec .getPdr s = .next s ∧ exec .setEventReceiver s = .next s) ∧
  (∀ (s : State) (n : Nat), s.alive = true →
    (∀ x, s.numericSensor n = some x → s.board.active = true →
      exec (.getSensorReading n) s = .next { s with out := { s.out with pldm := s.out.pldm ++ [(n, x)] } }) ∧
    ((s.numericSensor n = none ∨ s.board.active = false) → exec (.getSensorReading n) s = .next s) ∧
    (∀ x, s.stateSensor n = some x → s.board.active = true →
      exec (.getStateSensorReadings n) s = .next { s with out := { s.out with pldm := s.out.pldm ++ [(n, x)] } }) ∧
    ((s.stateSensor n = none ∨ s.board.active = false) → exec (.getStateSensorReadings n) s = .next s)) ∧
  (∀ (s : State) (r p : Nat), s.reaches = true → s.chip.opened = true → p < 8 → s.readWindow r 32 0xC4 / 2 ^ (3 * p) % 8 = (s.pairAt (5 + p)).code % 8 ∧
    s.readWindow r 32 0xC4 < 2 ^ 24) ∧
  (∀ (s : State) (v : W32), exec (.registerWrite 0xC4 32 v) s = .next s) ∧ (∀ p, (State.reset.pairAt p).code = 0)

/-- The TAP while no scan runs. BYPASS and IDCODE shift out their bits, SAMPLE_PRELOAD and EXTEST cells whose values are open, and a TAP reset selects IDCODE; INTEST and INTERNAL_SCAN stop the clocks; where scan does not serve, EXTEST, INTEST and INTERNAL_SCAN are taken for BYPASS. MBX_ACCESS where the page answers (`tapPage`: the debug mailbox is open, or the part is in SCRAP) is a host access to the debug mailbox's page, whether or not the window is open. After a scan, BYPASS, IDCODE and a TAP reset leave it, and a chip reset of cause 6 is due; the clocks stay stopped only where the new instruction stops them too. MEM_ACCESS where it does
not serve is taken for BYPASS; where it serves, it reads 0 and writes nothing in a range, the control region or the dump region, and elsewhere in memory a read gives the word that was written, and no other line changes. -/
def Obligations.TapCommands : Prop :=
  (∀ s : State, s.tapOn = true → s.board.tap ≠ .intest → s.board.tap ≠ .scan →
    (let at_ := fun (ir : TapIr) => ({ s with board := { s.board with tap := ir } } : State)
     let out := fun (t : State) (v : Nat) => ({ t with out := { t.out with tdo := t.out.tdo ++ [v] } } : State)
     let open_ := fun (t : State) => out { t with free := t.free + 1 } (Config.scanOut t.free).toNat
     exec .bypass s = .next (out (at_ .bypass) 0) ∧ exec .idcode s = .next (out (at_ .idcode) Config.idcode.toNat) ∧ exec .tapReset s = .next (at_ .idcode) ∧
     exec .samplePreload s = .next (open_ (at_ .sample)) ∧
     (s.scanServes = true → exec .extest s = .next (open_ (at_ .extest)) ∧
       (∃ t, exec .intest s = .next t ∧ t.chip = { s.chip with stopped := true } ∧ t.alive = false ∧ t.board = { s.board with tap := .intest } ∧ t.tapOn = true) ∧
       (∃ t, exec .internalScan s = .next t ∧ t.chip = { s.chip with stopped := true } ∧ t.alive = false ∧ t.board = { s.board with tap := .scan } ∧ t.tapOn = true)) ∧
     (s.scanServes = false → exec .extest s = exec .bypass s ∧ exec .intest s = exec .bypass s ∧ exec .internalScan s = exec .bypass s) ∧
     (∀ (o : Nat) (v : W32), s.tapPage = true → o < 4096 → exec (.mbxAccess true o v) s = .next ((at_ .mbxAccess).tapWrite o v) ∧
       exec (.mbxAccess false o v) s = .next (out (at_ .mbxAccess) (s.mailboxPage .debug o))))) ∧
  (∀ (s : State) (ir : TapIr), s.tapOn = true → (s.board.tap = .intest ∨ s.board.tap = .scan) → ir ≠ s.board.tap → ∃ t, s.leaveScan ir = t ∧
    t.chip = { s.chip with stopped := ir.stops, pending := some (6, 0) } ∧ t.board = { s.board with tap := ir } ∧ t.tapOn = false ∧
    exec .bypass s = .next (s.leaveScan .bypass) ∧ exec .idcode s = .next (s.leaveScan .idcode) ∧ exec .tapReset s = .next (s.leaveScan .idcode)) ∧
  (∀ (s : State) (a : Nat) (w : Bool) (v : W32), s.memServes = false → exec (.memAccess a w v) s = exec .bypass s) ∧
  (∀ (s : State) (a : Nat) (v : W32), s.memServes = true → s.tapOn = true → s.board.tap ≠ .intest → s.board.tap ≠ .scan → a % 4 = 0 → (localTier a).isSome = true →
    ((s.rangeSpan a).isSome = true ∨ inControl a = true ∨ inDump a = true) → ∃ t u, exec (.memAccess a true v) s = .next t ∧ exec (.memAccess a false v) s = .next u ∧
      t.mem.line = s.mem.line ∧ u.mem.line = s.mem.line ∧ u.out.tdo = s.out.tdo ++ [0]) ∧
  (∀ (s : State) (a : Nat) (v : W32), s.memServes = true → s.tapOn = true → s.board.tap ≠ .intest → s.board.tap ≠ .scan → a % 4 = 0 → (localTier a).isSome = true →
    s.rangeSpan a = none → inControl a = false → inDump a = false → ∃ t, exec (.memAccess a true v) s = .next t ∧
      ((t.lineAt (a / 128)).data.toNat / 2 ^ (8 * (a % 128))) % 2 ^ 32 = v.toNat ∧ (∀ l, l ≠ a / 128 → t.lineAt l = s.lineAt l) ∧
      ∀ v', ∃ u, exec (.memAccess a false v') t = .next u ∧ u.out.tdo = t.out.tdo ++ [v.toNat] ∧ u.mem = t.mem)

/-! ### What every step keeps -/

/-- Fuses never go back (R450, R466): whatever step the machine takes, the burned life-cycle states, the marks of transitions, the anti-rollback version, the revocation level and the bits of both root
rows stay burned, and the hash of the maker's key stays as it is. -/
def Obligations.FusesOnlyBurn : Prop := ∀ s t : State, step s = .next t → t.sec.burnedFrom s.sec

/-- The tick counter never runs backward (R84). Outside ACQUIRE, where a lock or its time limit sets the counter, and short of the end of its 64 bits, every step leaves the counter where it was or moves it on. -/
def Obligations.CounterRunsForward : Prop :=
  ∀ s t : State, step s = .next t → s.beat.plumb ≠ .acquire → t.beat.plumb ≠ .acquire → s.beat.tick.toNat + s.beat.err.natAbs + 16384 < 2 ^ 64 →
    s.beat.tick.toNat ≤ t.beat.tick.toNat

/-- The stored lines keep their canonical form: every step leaves line numbers strictly rising and no line listed that reads as an unwritten one, so that equal memories are equal data. -/
def Obligations.LinesStayCanonical : Prop := ∀ s t : State, step s = .next t → s.linesWf = true → t.linesWf = true
end

