-- ==== Sys2Proof/Laws/Tab.lean ====
section
/-! SUPPORT. The laws of tables: a read after a write, and the canonical form under every operation. -/

namespace Sys2Proof.Machine

variable {α : Type}

theorem Tab.get_drop_self (d : α) (t : Tab α) (n : Nat) : (t.drop n).get d n = d := by
  induction t with
  | nil => rfl
  | cons e t ih =>
    obtain ⟨k, v⟩ := e
    by_cases h : k = n
    · simpa [Tab.drop, h] using ih
    · simpa [Tab.drop, h, Tab.get] using ih

theorem Tab.get_drop_ne (d : α) (t : Tab α) {n m : Nat} (h : n ≠ m) : (t.drop n).get d m = t.get d m := by
  induction t with
  | nil => rfl
  | cons e t ih =>
    obtain ⟨k, v⟩ := e
    by_cases hk : k = n
    · have : ¬ k = m := fun x => h (hk ▸ x)
      simp only [Tab.drop, hk] at ih ⊢
      simpa [Tab.get, h] using ih
    · by_cases hm : k = m
      · simp [Tab.drop, Tab.get, hm, Ne.symm h]
      · simpa [Tab.drop, hk, Tab.get, hm] using ih

theorem Tab.get_insert_self (d : α) (t : Tab α) (n : Nat) (v : α) (h : ∀ e ∈ t, e.1 ≠ n) : (Tab.insert n v t).get d n = v := by
  induction t with
  | nil => simp [Tab.insert, Tab.get]
  | cons e t ih =>
    obtain ⟨k, w⟩ := e
    have hk : k ≠ n := h (k, w) (by simp)
    unfold Tab.insert
    split
    · simp [Tab.get]
    · simp only [Tab.get, hk, if_false]
      exact ih fun e he => h e (by simp [he])

theorem Tab.get_insert_ne (d : α) (t : Tab α) {n m : Nat} (v : α) (h : n ≠ m) : (Tab.insert n v t).get d m = t.get d m := by
  induction t with
  | nil => simp [Tab.insert, Tab.get, h]
  | cons e t ih =>
    obtain ⟨k, w⟩ := e
    unfold Tab.insert
    split
    · simp [Tab.get, h]
    · simp only [Tab.get, ih]

theorem Tab.mem_drop {t : Tab α} {n : Nat} {e : Nat × α} : e ∈ t.drop n ↔ e ∈ t ∧ e.1 ≠ n := by
  simp [Tab.drop, List.mem_filter]

/-- A read after a write. -/
theorem Tab.get_put [DecidableEq α] (d : α) (t : Tab α) (n m : Nat) (v : α) :
    (t.put d n v).get d m = if n = m then v else t.get d m := by
  unfold Tab.put
  by_cases hm : n = m
  · subst hm
    split
    · next h => simp [Tab.get_drop_self, h]
    · simp [Tab.get_insert_self d (t.drop n) n v fun e he => (Tab.mem_drop.1 he).2]
  · split
    · simp [Tab.get_drop_ne d t hm]
    · simp [Tab.get_insert_ne d _ v hm, Tab.get_drop_ne d t hm]

@[simp] theorem Tab.get_put_self [DecidableEq α] (d : α) (t : Tab α) (n : Nat) (v : α) : (t.put d n v).get d n = v := by
  simp [Tab.get_put]

theorem Tab.get_put_ne [DecidableEq α] (d : α) (t : Tab α) {n m : Nat} (v : α) (h : n ≠ m) : (t.put d n v).get d m = t.get d m := by
  simp [Tab.get_put, h]

/-- A read after a change of one key. -/
theorem Tab.get_upd [DecidableEq α] (d : α) (t : Tab α) (n m : Nat) (f : α → α) :
    (t.upd d n f).get d m = if n = m then f (t.get d n) else t.get d m := by
  simp [Tab.upd, Tab.get_put]

@[simp] theorem Tab.get_upd_self [DecidableEq α] (d : α) (t : Tab α) (n : Nat) (f : α → α) : (t.upd d n f).get d n = f (t.get d n) := by
  simp [Tab.get_upd]

theorem Tab.get_upd_ne [DecidableEq α] (d : α) (t : Tab α) {n m : Nat} (f : α → α) (h : n ≠ m) : (t.upd d n f).get d m = t.get d m := by
  simp [Tab.get_upd, h]

@[simp] theorem Tab.get_nil (d : α) (n : Nat) : Tab.get d ([] : Tab α) n = d := rfl

/-! ### The canonical form -/

theorem Tab.wf_iff [DecidableEq α] {d : α} {t : Tab α} : Tab.wf d t = true ↔ t.Pairwise (fun a b => a.1 < b.1) ∧ ∀ e ∈ t, e.2 ≠ d := by
  simp [Tab.wf, List.pairwise_map]

@[simp] theorem Tab.wf_nil [DecidableEq α] (d : α) : Tab.wf d ([] : Tab α) = true := rfl

/-- Leaving entries out keeps the form. -/
theorem Tab.wf_filter [DecidableEq α] {d : α} {t : Tab α} (p : Nat × α → Bool) (h : Tab.wf d t = true) : Tab.wf d (t.filter p : Tab α) = true := by
  rw [Tab.wf_iff] at h ⊢
  exact ⟨h.1.filter p, fun e he => h.2 e (List.mem_filter.1 he).1⟩

theorem Tab.mem_insert {n : Nat} {v : α} {t : Tab α} {e : Nat × α} : e ∈ Tab.insert n v t → e = (n, v) ∨ e ∈ t := by
  induction t with
  | nil => simp [Tab.insert]
  | cons x t ih =>
    unfold Tab.insert
    split
    · simp
    · intro h
      rcases List.mem_cons.1 h with h | h
      · simp [h]
      · rcases ih h with h | h <;> simp [h]

theorem Tab.pairwise_insert {n : Nat} {v : α} {t : Tab α} (h : t.Pairwise fun a b => a.1 < b.1) (hn : ∀ e ∈ t, e.1 ≠ n) :
    (Tab.insert n v t).Pairwise fun a b => a.1 < b.1 := by
  induction t with
  | nil => simp [Tab.insert]
  | cons x t ih =>
    obtain ⟨k, w⟩ := x
    rw [List.pairwise_cons] at h
    unfold Tab.insert
    split
    · next hk =>
      refine List.pairwise_cons.2 ⟨fun e he => ?_, List.pairwise_cons.2 h⟩
      rcases List.mem_cons.1 he with he | he
      · simpa [he] using hk
      · exact Nat.lt_trans hk (h.1 e he)
    · next hk =>
      have hkn : k ≠ n := hn (k, w) (by simp)
      refine List.pairwise_cons.2 ⟨fun e he => ?_, ih h.2 fun e he => hn e (by simp [he])⟩
      rcases Tab.mem_insert he with he | he
      · subst he; exact Nat.lt_of_le_of_ne (Nat.not_lt.1 hk) hkn
      · exact h.1 e he

/-- A write keeps the form. -/
theorem Tab.wf_put [DecidableEq α] {d : α} {t : Tab α} (n : Nat) (v : α) (h : Tab.wf d t = true) : Tab.wf d (t.put d n v) = true := by
  unfold Tab.put
  split
  · exact Tab.wf_filter _ h
  · next hv =>
    have h' := Tab.wf_filter (fun e => e.1 != n) h
    rw [Tab.wf_iff] at h' ⊢
    refine ⟨Tab.pairwise_insert h'.1 fun e he => (Tab.mem_drop.1 he).2, fun e he => ?_⟩
    rcases Tab.mem_insert he with he | he
    · simpa [he] using hv
    · exact h'.2 e he

theorem Tab.wf_upd [DecidableEq α] {d : α} {t : Tab α} (n : Nat) (f : α → α) (h : Tab.wf d t = true) : Tab.wf d (t.upd d n f) = true :=
  Tab.wf_put n _ h

theorem Tab.wf_drop [DecidableEq α] {d : α} {t : Tab α} (n : Nat) (h : Tab.wf d t = true) : Tab.wf d (t.drop n) = true := Tab.wf_filter _ h

/-- A change of every entry keeps the form. -/
theorem Tab.wf_mapAll [DecidableEq α] {d : α} {t : Tab α} (f : Nat → α → α) (h : Tab.wf d t = true) : Tab.wf d (t.mapAll d f) = true := by
  rw [Tab.wf_iff] at h ⊢
  refine ⟨List.Pairwise.filter _ (List.pairwise_map.2 h.1), fun e he => ?_⟩
  simpa using (List.mem_filter.1 he).2

theorem Tab.get_eq_default [DecidableEq α] {d : α} {t : Tab α} {n : Nat} (h : ∀ e ∈ t, e.1 ≠ n) : t.get d n = d := by
  induction t with
  | nil => rfl
  | cons e t ih =>
    obtain ⟨k, v⟩ := e
    simp only [Tab.get, h (k, v) (by simp), if_false]
    exact ih fun e he => h e (by simp [he])

/-- What a key reads as after a change of every entry, in a table of the canonical form. -/
theorem Tab.get_mapAll [DecidableEq α] {d : α} {t : Tab α} (f : Nat → α → α) (n : Nat) (hd : f n d = d) (h : Tab.wf d t = true) :
    (t.mapAll d f).get d n = f n (t.get d n) := by
  rw [Tab.wf_iff] at h
  induction t with
  | nil => simpa [Tab.mapAll] using hd.symm
  | cons e t ih =>
    obtain ⟨k, v⟩ := e
    obtain ⟨h1, h2⟩ := h
    rw [List.pairwise_cons] at h1
    have ih' := ih ⟨h1.2, fun e he => h2 e (by simp [he])⟩
    by_cases hk : k = n
    · subst hk
      have hne : ∀ e ∈ Tab.mapAll d t f, e.1 ≠ k := by
        intro e he
        obtain ⟨x, hx, rfl⟩ := List.mem_map.1 (List.mem_filter.1 he).1
        exact Nat.ne_of_gt (h1.1 x hx)
      by_cases hf : f k v = d
      · simpa [Tab.mapAll, hf, Tab.get] using Tab.get_eq_default hne
      · simp [Tab.mapAll, hf, Tab.get]
    · by_cases hf : f k v = d
      · simpa [Tab.mapAll, hf, Tab.get, hk] using ih'
      · simpa [Tab.mapAll, hf, Tab.get, hk] using ih'

end Sys2Proof.Machine
end

