-- ==== Sys2Proof/Laws/State.lean ====
section
/-! SUPPORT. One lemma per field of State and named update: an update changes its own unit only, and a read after a change of one
object gives the changed object there and the old one elsewhere. -/

namespace Sys2Proof.Machine

variable (s : State)

@[simp] theorem State.modPart_pending (n : Nat) (f : Part → Part) : (s.modPart n f).pending = s.pending := rfl
@[simp] theorem State.modPart_chip (n : Nat) (f : Part → Part) : (s.modPart n f).chip = s.chip := rfl
@[simp] theorem State.modPart_beat (n : Nat) (f : Part → Part) : (s.modPart n f).beat = s.beat := rfl
@[simp] theorem State.modPart_box (n : Nat) (f : Part → Part) : (s.modPart n f).box = s.box := rfl
@[simp] theorem State.modPart_ten (n : Nat) (f : Part → Part) : (s.modPart n f).ten = s.ten := rfl
@[simp] theorem State.modPart_fen (n : Nat) (f : Part → Part) : (s.modPart n f).fen = s.fen := rfl
@[simp] theorem State.modPart_eng (n : Nat) (f : Part → Part) : (s.modPart n f).eng = s.eng := rfl
@[simp] theorem State.modPart_reg (n : Nat) (f : Part → Part) : (s.modPart n f).reg = s.reg := rfl
@[simp] theorem State.modPart_xl (n : Nat) (f : Part → Part) : (s.modPart n f).xl = s.xl := rfl
@[simp] theorem State.modPart_mem (n : Nat) (f : Part → Part) : (s.modPart n f).mem = s.mem := rfl
@[simp] theorem State.modPart_coh (n : Nat) (f : Part → Part) : (s.modPart n f).coh = s.coh := rfl
@[simp] theorem State.modPart_sec (n : Nat) (f : Part → Part) : (s.modPart n f).sec = s.sec := rfl
@[simp] theorem State.modPart_net (n : Nat) (f : Part → Part) : (s.modPart n f).net = s.net := rfl
@[simp] theorem State.modPart_pwr (n : Nat) (f : Part → Part) : (s.modPart n f).pwr = s.pwr := rfl
@[simp] theorem State.modPart_watch (n : Nat) (f : Part → Part) : (s.modPart n f).watch = s.watch := rfl
@[simp] theorem State.modPart_log (n : Nat) (f : Part → Part) : (s.modPart n f).log = s.log := rfl
@[simp] theorem State.modPart_obs (n : Nat) (f : Part → Part) : (s.modPart n f).obs = s.obs := rfl
@[simp] theorem State.modPart_board (n : Nat) (f : Part → Part) : (s.modPart n f).board = s.board := rfl
@[simp] theorem State.modPart_free (n : Nat) (f : Part → Part) : (s.modPart n f).free = s.free := rfl
@[simp] theorem State.modPart_out (n : Nat) (f : Part → Part) : (s.modPart n f).out = s.out := rfl

@[simp] theorem State.modPfield_pending (p i : Nat) (f : PField → PField) : (s.modPfield p i f).pending = s.pending := rfl
@[simp] theorem State.modPfield_chip (p i : Nat) (f : PField → PField) : (s.modPfield p i f).chip = s.chip := rfl
@[simp] theorem State.modPfield_beat (p i : Nat) (f : PField → PField) : (s.modPfield p i f).beat = s.beat := rfl
@[simp] theorem State.modPfield_box (p i : Nat) (f : PField → PField) : (s.modPfield p i f).box = s.box := rfl
@[simp] theorem State.modPfield_ten (p i : Nat) (f : PField → PField) : (s.modPfield p i f).ten = s.ten := rfl
@[simp] theorem State.modPfield_fen (p i : Nat) (f : PField → PField) : (s.modPfield p i f).fen = s.fen := rfl
@[simp] theorem State.modPfield_eng (p i : Nat) (f : PField → PField) : (s.modPfield p i f).eng = s.eng := rfl
@[simp] theorem State.modPfield_reg (p i : Nat) (f : PField → PField) : (s.modPfield p i f).reg = s.reg := rfl
@[simp] theorem State.modPfield_xl (p i : Nat) (f : PField → PField) : (s.modPfield p i f).xl = s.xl := rfl
@[simp] theorem State.modPfield_mem (p i : Nat) (f : PField → PField) : (s.modPfield p i f).mem = s.mem := rfl
@[simp] theorem State.modPfield_coh (p i : Nat) (f : PField → PField) : (s.modPfield p i f).coh = s.coh := rfl
@[simp] theorem State.modPfield_sec (p i : Nat) (f : PField → PField) : (s.modPfield p i f).sec = s.sec := rfl
@[simp] theorem State.modPfield_net (p i : Nat) (f : PField → PField) : (s.modPfield p i f).net = s.net := rfl
@[simp] theorem State.modPfield_pwr (p i : Nat) (f : PField → PField) : (s.modPfield p i f).pwr = s.pwr := rfl
@[simp] theorem State.modPfield_watch (p i : Nat) (f : PField → PField) : (s.modPfield p i f).watch = s.watch := rfl
@[simp] theorem State.modPfield_log (p i : Nat) (f : PField → PField) : (s.modPfield p i f).log = s.log := rfl
@[simp] theorem State.modPfield_obs (p i : Nat) (f : PField → PField) : (s.modPfield p i f).obs = s.obs := rfl
@[simp] theorem State.modPfield_board (p i : Nat) (f : PField → PField) : (s.modPfield p i f).board = s.board := rfl
@[simp] theorem State.modPfield_free (p i : Nat) (f : PField → PField) : (s.modPfield p i f).free = s.free := rfl
@[simp] theorem State.modPfield_out (p i : Nat) (f : PField → PField) : (s.modPfield p i f).out = s.out := rfl

@[simp] theorem State.modSched_pending (p : Nat) (f : SchedPol → SchedPol) : (s.modSched p f).pending = s.pending := rfl
@[simp] theorem State.modSched_chip (p : Nat) (f : SchedPol → SchedPol) : (s.modSched p f).chip = s.chip := rfl
@[simp] theorem State.modSched_beat (p : Nat) (f : SchedPol → SchedPol) : (s.modSched p f).beat = s.beat := rfl
@[simp] theorem State.modSched_box (p : Nat) (f : SchedPol → SchedPol) : (s.modSched p f).box = s.box := rfl
@[simp] theorem State.modSched_ten (p : Nat) (f : SchedPol → SchedPol) : (s.modSched p f).ten = s.ten := rfl
@[simp] theorem State.modSched_fen (p : Nat) (f : SchedPol → SchedPol) : (s.modSched p f).fen = s.fen := rfl
@[simp] theorem State.modSched_eng (p : Nat) (f : SchedPol → SchedPol) : (s.modSched p f).eng = s.eng := rfl
@[simp] theorem State.modSched_reg (p : Nat) (f : SchedPol → SchedPol) : (s.modSched p f).reg = s.reg := rfl
@[simp] theorem State.modSched_xl (p : Nat) (f : SchedPol → SchedPol) : (s.modSched p f).xl = s.xl := rfl
@[simp] theorem State.modSched_mem (p : Nat) (f : SchedPol → SchedPol) : (s.modSched p f).mem = s.mem := rfl
@[simp] theorem State.modSched_coh (p : Nat) (f : SchedPol → SchedPol) : (s.modSched p f).coh = s.coh := rfl
@[simp] theorem State.modSched_sec (p : Nat) (f : SchedPol → SchedPol) : (s.modSched p f).sec = s.sec := rfl
@[simp] theorem State.modSched_net (p : Nat) (f : SchedPol → SchedPol) : (s.modSched p f).net = s.net := rfl
@[simp] theorem State.modSched_pwr (p : Nat) (f : SchedPol → SchedPol) : (s.modSched p f).pwr = s.pwr := rfl
@[simp] theorem State.modSched_watch (p : Nat) (f : SchedPol → SchedPol) : (s.modSched p f).watch = s.watch := rfl
@[simp] theorem State.modSched_log (p : Nat) (f : SchedPol → SchedPol) : (s.modSched p f).log = s.log := rfl
@[simp] theorem State.modSched_obs (p : Nat) (f : SchedPol → SchedPol) : (s.modSched p f).obs = s.obs := rfl
@[simp] theorem State.modSched_board (p : Nat) (f : SchedPol → SchedPol) : (s.modSched p f).board = s.board := rfl
@[simp] theorem State.modSched_free (p : Nat) (f : SchedPol → SchedPol) : (s.modSched p f).free = s.free := rfl
@[simp] theorem State.modSched_out (p : Nat) (f : SchedPol → SchedPol) : (s.modSched p f).out = s.out := rfl

@[simp] theorem State.modCtx_pending (n : Nat) (f : Ctx → Ctx) : (s.modCtx n f).pending = s.pending := rfl
@[simp] theorem State.modCtx_chip (n : Nat) (f : Ctx → Ctx) : (s.modCtx n f).chip = s.chip := rfl
@[simp] theorem State.modCtx_beat (n : Nat) (f : Ctx → Ctx) : (s.modCtx n f).beat = s.beat := rfl
@[simp] theorem State.modCtx_box (n : Nat) (f : Ctx → Ctx) : (s.modCtx n f).box = s.box := rfl
@[simp] theorem State.modCtx_org (n : Nat) (f : Ctx → Ctx) : (s.modCtx n f).org = s.org := rfl
@[simp] theorem State.modCtx_fen (n : Nat) (f : Ctx → Ctx) : (s.modCtx n f).fen = s.fen := rfl
@[simp] theorem State.modCtx_eng (n : Nat) (f : Ctx → Ctx) : (s.modCtx n f).eng = s.eng := rfl
@[simp] theorem State.modCtx_reg (n : Nat) (f : Ctx → Ctx) : (s.modCtx n f).reg = s.reg := rfl
@[simp] theorem State.modCtx_xl (n : Nat) (f : Ctx → Ctx) : (s.modCtx n f).xl = s.xl := rfl
@[simp] theorem State.modCtx_mem (n : Nat) (f : Ctx → Ctx) : (s.modCtx n f).mem = s.mem := rfl
@[simp] theorem State.modCtx_coh (n : Nat) (f : Ctx → Ctx) : (s.modCtx n f).coh = s.coh := rfl
@[simp] theorem State.modCtx_sec (n : Nat) (f : Ctx → Ctx) : (s.modCtx n f).sec = s.sec := rfl
@[simp] theorem State.modCtx_net (n : Nat) (f : Ctx → Ctx) : (s.modCtx n f).net = s.net := rfl
@[simp] theorem State.modCtx_pwr (n : Nat) (f : Ctx → Ctx) : (s.modCtx n f).pwr = s.pwr := rfl
@[simp] theorem State.modCtx_watch (n : Nat) (f : Ctx → Ctx) : (s.modCtx n f).watch = s.watch := rfl
@[simp] theorem State.modCtx_log (n : Nat) (f : Ctx → Ctx) : (s.modCtx n f).log = s.log := rfl
@[simp] theorem State.modCtx_obs (n : Nat) (f : Ctx → Ctx) : (s.modCtx n f).obs = s.obs := rfl
@[simp] theorem State.modCtx_board (n : Nat) (f : Ctx → Ctx) : (s.modCtx n f).board = s.board := rfl
@[simp] theorem State.modCtx_free (n : Nat) (f : Ctx → Ctx) : (s.modCtx n f).free = s.free := rfl
@[simp] theorem State.modCtx_out (n : Nat) (f : Ctx → Ctx) : (s.modCtx n f).out = s.out := rfl

@[simp] theorem State.modCtxf_pending (c i : Nat) (f : CtxField → CtxField) : (s.modCtxf c i f).pending = s.pending := rfl
@[simp] theorem State.modCtxf_chip (c i : Nat) (f : CtxField → CtxField) : (s.modCtxf c i f).chip = s.chip := rfl
@[simp] theorem State.modCtxf_beat (c i : Nat) (f : CtxField → CtxField) : (s.modCtxf c i f).beat = s.beat := rfl
@[simp] theorem State.modCtxf_box (c i : Nat) (f : CtxField → CtxField) : (s.modCtxf c i f).box = s.box := rfl
@[simp] theorem State.modCtxf_org (c i : Nat) (f : CtxField → CtxField) : (s.modCtxf c i f).org = s.org := rfl
@[simp] theorem State.modCtxf_fen (c i : Nat) (f : CtxField → CtxField) : (s.modCtxf c i f).fen = s.fen := rfl
@[simp] theorem State.modCtxf_eng (c i : Nat) (f : CtxField → CtxField) : (s.modCtxf c i f).eng = s.eng := rfl
@[simp] theorem State.modCtxf_reg (c i : Nat) (f : CtxField → CtxField) : (s.modCtxf c i f).reg = s.reg := rfl
@[simp] theorem State.modCtxf_xl (c i : Nat) (f : CtxField → CtxField) : (s.modCtxf c i f).xl = s.xl := rfl
@[simp] theorem State.modCtxf_mem (c i : Nat) (f : CtxField → CtxField) : (s.modCtxf c i f).mem = s.mem := rfl
@[simp] theorem State.modCtxf_coh (c i : Nat) (f : CtxField → CtxField) : (s.modCtxf c i f).coh = s.coh := rfl
@[simp] theorem State.modCtxf_sec (c i : Nat) (f : CtxField → CtxField) : (s.modCtxf c i f).sec = s.sec := rfl
@[simp] theorem State.modCtxf_net (c i : Nat) (f : CtxField → CtxField) : (s.modCtxf c i f).net = s.net := rfl
@[simp] theorem State.modCtxf_pwr (c i : Nat) (f : CtxField → CtxField) : (s.modCtxf c i f).pwr = s.pwr := rfl
@[simp] theorem State.modCtxf_watch (c i : Nat) (f : CtxField → CtxField) : (s.modCtxf c i f).watch = s.watch := rfl
@[simp] theorem State.modCtxf_log (c i : Nat) (f : CtxField → CtxField) : (s.modCtxf c i f).log = s.log := rfl
@[simp] theorem State.modCtxf_obs (c i : Nat) (f : CtxField → CtxField) : (s.modCtxf c i f).obs = s.obs := rfl
@[simp] theorem State.modCtxf_board (c i : Nat) (f : CtxField → CtxField) : (s.modCtxf c i f).board = s.board := rfl
@[simp] theorem State.modCtxf_free (c i : Nat) (f : CtxField → CtxField) : (s.modCtxf c i f).free = s.free := rfl
@[simp] theorem State.modCtxf_out (c i : Nat) (f : CtxField → CtxField) : (s.modCtxf c i f).out = s.out := rfl

@[simp] theorem State.modRing_pending (n : Nat) (f : Ring → Ring) : (s.modRing n f).pending = s.pending := rfl
@[simp] theorem State.modRing_chip (n : Nat) (f : Ring → Ring) : (s.modRing n f).chip = s.chip := rfl
@[simp] theorem State.modRing_beat (n : Nat) (f : Ring → Ring) : (s.modRing n f).beat = s.beat := rfl
@[simp] theorem State.modRing_box (n : Nat) (f : Ring → Ring) : (s.modRing n f).box = s.box := rfl
@[simp] theorem State.modRing_org (n : Nat) (f : Ring → Ring) : (s.modRing n f).org = s.org := rfl
@[simp] theorem State.modRing_fen (n : Nat) (f : Ring → Ring) : (s.modRing n f).fen = s.fen := rfl
@[simp] theorem State.modRing_eng (n : Nat) (f : Ring → Ring) : (s.modRing n f).eng = s.eng := rfl
@[simp] theorem State.modRing_reg (n : Nat) (f : Ring → Ring) : (s.modRing n f).reg = s.reg := rfl
@[simp] theorem State.modRing_xl (n : Nat) (f : Ring → Ring) : (s.modRing n f).xl = s.xl := rfl
@[simp] theorem State.modRing_mem (n : Nat) (f : Ring → Ring) : (s.modRing n f).mem = s.mem := rfl
@[simp] theorem State.modRing_coh (n : Nat) (f : Ring → Ring) : (s.modRing n f).coh = s.coh := rfl
@[simp] theorem State.modRing_sec (n : Nat) (f : Ring → Ring) : (s.modRing n f).sec = s.sec := rfl
@[simp] theorem State.modRing_net (n : Nat) (f : Ring → Ring) : (s.modRing n f).net = s.net := rfl
@[simp] theorem State.modRing_pwr (n : Nat) (f : Ring → Ring) : (s.modRing n f).pwr = s.pwr := rfl
@[simp] theorem State.modRing_watch (n : Nat) (f : Ring → Ring) : (s.modRing n f).watch = s.watch := rfl
@[simp] theorem State.modRing_log (n : Nat) (f : Ring → Ring) : (s.modRing n f).log = s.log := rfl
@[simp] theorem State.modRing_obs (n : Nat) (f : Ring → Ring) : (s.modRing n f).obs = s.obs := rfl
@[simp] theorem State.modRing_board (n : Nat) (f : Ring → Ring) : (s.modRing n f).board = s.board := rfl
@[simp] theorem State.modRing_free (n : Nat) (f : Ring → Ring) : (s.modRing n f).free = s.free := rfl
@[simp] theorem State.modRing_out (n : Nat) (f : Ring → Ring) : (s.modRing n f).out = s.out := rfl

@[simp] theorem State.modSeq_pending (n : Nat) (f : Seq → Seq) : (s.modSeq n f).pending = s.pending := rfl
@[simp] theorem State.modSeq_chip (n : Nat) (f : Seq → Seq) : (s.modSeq n f).chip = s.chip := rfl
@[simp] theorem State.modSeq_beat (n : Nat) (f : Seq → Seq) : (s.modSeq n f).beat = s.beat := rfl
@[simp] theorem State.modSeq_box (n : Nat) (f : Seq → Seq) : (s.modSeq n f).box = s.box := rfl
@[simp] theorem State.modSeq_org (n : Nat) (f : Seq → Seq) : (s.modSeq n f).org = s.org := rfl
@[simp] theorem State.modSeq_fen (n : Nat) (f : Seq → Seq) : (s.modSeq n f).fen = s.fen := rfl
@[simp] theorem State.modSeq_eng (n : Nat) (f : Seq → Seq) : (s.modSeq n f).eng = s.eng := rfl
@[simp] theorem State.modSeq_reg (n : Nat) (f : Seq → Seq) : (s.modSeq n f).reg = s.reg := rfl
@[simp] theorem State.modSeq_xl (n : Nat) (f : Seq → Seq) : (s.modSeq n f).xl = s.xl := rfl
@[simp] theorem State.modSeq_mem (n : Nat) (f : Seq → Seq) : (s.modSeq n f).mem = s.mem := rfl
@[simp] theorem State.modSeq_coh (n : Nat) (f : Seq → Seq) : (s.modSeq n f).coh = s.coh := rfl
@[simp] theorem State.modSeq_sec (n : Nat) (f : Seq → Seq) : (s.modSeq n f).sec = s.sec := rfl
@[simp] theorem State.modSeq_net (n : Nat) (f : Seq → Seq) : (s.modSeq n f).net = s.net := rfl
@[simp] theorem State.modSeq_pwr (n : Nat) (f : Seq → Seq) : (s.modSeq n f).pwr = s.pwr := rfl
@[simp] theorem State.modSeq_watch (n : Nat) (f : Seq → Seq) : (s.modSeq n f).watch = s.watch := rfl
@[simp] theorem State.modSeq_log (n : Nat) (f : Seq → Seq) : (s.modSeq n f).log = s.log := rfl
@[simp] theorem State.modSeq_obs (n : Nat) (f : Seq → Seq) : (s.modSeq n f).obs = s.obs := rfl
@[simp] theorem State.modSeq_board (n : Nat) (f : Seq → Seq) : (s.modSeq n f).board = s.board := rfl
@[simp] theorem State.modSeq_free (n : Nat) (f : Seq → Seq) : (s.modSeq n f).free = s.free := rfl
@[simp] theorem State.modSeq_out (n : Nat) (f : Seq → Seq) : (s.modSeq n f).out = s.out := rfl

@[simp] theorem State.modReserve_pending (n : Nat) (f : Reserve → Reserve) : (s.modReserve n f).pending = s.pending := rfl
@[simp] theorem State.modReserve_chip (n : Nat) (f : Reserve → Reserve) : (s.modReserve n f).chip = s.chip := rfl
@[simp] theorem State.modReserve_beat (n : Nat) (f : Reserve → Reserve) : (s.modReserve n f).beat = s.beat := rfl
@[simp] theorem State.modReserve_box (n : Nat) (f : Reserve → Reserve) : (s.modReserve n f).box = s.box := rfl
@[simp] theorem State.modReserve_org (n : Nat) (f : Reserve → Reserve) : (s.modReserve n f).org = s.org := rfl
@[simp] theorem State.modReserve_fen (n : Nat) (f : Reserve → Reserve) : (s.modReserve n f).fen = s.fen := rfl
@[simp] theorem State.modReserve_eng (n : Nat) (f : Reserve → Reserve) : (s.modReserve n f).eng = s.eng := rfl
@[simp] theorem State.modReserve_reg (n : Nat) (f : Reserve → Reserve) : (s.modReserve n f).reg = s.reg := rfl
@[simp] theorem State.modReserve_xl (n : Nat) (f : Reserve → Reserve) : (s.modReserve n f).xl = s.xl := rfl
@[simp] theorem State.modReserve_mem (n : Nat) (f : Reserve → Reserve) : (s.modReserve n f).mem = s.mem := rfl
@[simp] theorem State.modReserve_coh (n : Nat) (f : Reserve → Reserve) : (s.modReserve n f).coh = s.coh := rfl
@[simp] theorem State.modReserve_sec (n : Nat) (f : Reserve → Reserve) : (s.modReserve n f).sec = s.sec := rfl
@[simp] theorem State.modReserve_net (n : Nat) (f : Reserve → Reserve) : (s.modReserve n f).net = s.net := rfl
@[simp] theorem State.modReserve_pwr (n : Nat) (f : Reserve → Reserve) : (s.modReserve n f).pwr = s.pwr := rfl
@[simp] theorem State.modReserve_watch (n : Nat) (f : Reserve → Reserve) : (s.modReserve n f).watch = s.watch := rfl
@[simp] theorem State.modReserve_log (n : Nat) (f : Reserve → Reserve) : (s.modReserve n f).log = s.log := rfl
@[simp] theorem State.modReserve_obs (n : Nat) (f : Reserve → Reserve) : (s.modReserve n f).obs = s.obs := rfl
@[simp] theorem State.modReserve_board (n : Nat) (f : Reserve → Reserve) : (s.modReserve n f).board = s.board := rfl
@[simp] theorem State.modReserve_free (n : Nat) (f : Reserve → Reserve) : (s.modReserve n f).free = s.free := rfl
@[simp] theorem State.modReserve_out (n : Nat) (f : Reserve → Reserve) : (s.modReserve n f).out = s.out := rfl

@[simp] theorem State.modGroup_pending (n : Nat) (f : Group → Group) : (s.modGroup n f).pending = s.pending := rfl
@[simp] theorem State.modGroup_chip (n : Nat) (f : Group → Group) : (s.modGroup n f).chip = s.chip := rfl
@[simp] theorem State.modGroup_beat (n : Nat) (f : Group → Group) : (s.modGroup n f).beat = s.beat := rfl
@[simp] theorem State.modGroup_box (n : Nat) (f : Group → Group) : (s.modGroup n f).box = s.box := rfl
@[simp] theorem State.modGroup_org (n : Nat) (f : Group → Group) : (s.modGroup n f).org = s.org := rfl
@[simp] theorem State.modGroup_fen (n : Nat) (f : Group → Group) : (s.modGroup n f).fen = s.fen := rfl
@[simp] theorem State.modGroup_eng (n : Nat) (f : Group → Group) : (s.modGroup n f).eng = s.eng := rfl
@[simp] theorem State.modGroup_reg (n : Nat) (f : Group → Group) : (s.modGroup n f).reg = s.reg := rfl
@[simp] theorem State.modGroup_xl (n : Nat) (f : Group → Group) : (s.modGroup n f).xl = s.xl := rfl
@[simp] theorem State.modGroup_mem (n : Nat) (f : Group → Group) : (s.modGroup n f).mem = s.mem := rfl
@[simp] theorem State.modGroup_coh (n : Nat) (f : Group → Group) : (s.modGroup n f).coh = s.coh := rfl
@[simp] theorem State.modGroup_sec (n : Nat) (f : Group → Group) : (s.modGroup n f).sec = s.sec := rfl
@[simp] theorem State.modGroup_net (n : Nat) (f : Group → Group) : (s.modGroup n f).net = s.net := rfl
@[simp] theorem State.modGroup_pwr (n : Nat) (f : Group → Group) : (s.modGroup n f).pwr = s.pwr := rfl
@[simp] theorem State.modGroup_watch (n : Nat) (f : Group → Group) : (s.modGroup n f).watch = s.watch := rfl
@[simp] theorem State.modGroup_log (n : Nat) (f : Group → Group) : (s.modGroup n f).log = s.log := rfl
@[simp] theorem State.modGroup_obs (n : Nat) (f : Group → Group) : (s.modGroup n f).obs = s.obs := rfl
@[simp] theorem State.modGroup_board (n : Nat) (f : Group → Group) : (s.modGroup n f).board = s.board := rfl
@[simp] theorem State.modGroup_free (n : Nat) (f : Group → Group) : (s.modGroup n f).free = s.free := rfl
@[simp] theorem State.modGroup_out (n : Nat) (f : Group → Group) : (s.modGroup n f).out = s.out := rfl

@[simp] theorem State.tickOrder_pending : (s.tickOrder).pending = s.pending := rfl
@[simp] theorem State.tickOrder_chip : (s.tickOrder).chip = s.chip := rfl
@[simp] theorem State.tickOrder_beat : (s.tickOrder).beat = s.beat := rfl
@[simp] theorem State.tickOrder_box : (s.tickOrder).box = s.box := rfl
@[simp] theorem State.tickOrder_org : (s.tickOrder).org = s.org := rfl
@[simp] theorem State.tickOrder_fen : (s.tickOrder).fen = s.fen := rfl
@[simp] theorem State.tickOrder_eng : (s.tickOrder).eng = s.eng := rfl
@[simp] theorem State.tickOrder_reg : (s.tickOrder).reg = s.reg := rfl
@[simp] theorem State.tickOrder_xl : (s.tickOrder).xl = s.xl := rfl
@[simp] theorem State.tickOrder_mem : (s.tickOrder).mem = s.mem := rfl
@[simp] theorem State.tickOrder_coh : (s.tickOrder).coh = s.coh := rfl
@[simp] theorem State.tickOrder_sec : (s.tickOrder).sec = s.sec := rfl
@[simp] theorem State.tickOrder_net : (s.tickOrder).net = s.net := rfl
@[simp] theorem State.tickOrder_pwr : (s.tickOrder).pwr = s.pwr := rfl
@[simp] theorem State.tickOrder_watch : (s.tickOrder).watch = s.watch := rfl
@[simp] theorem State.tickOrder_log : (s.tickOrder).log = s.log := rfl
@[simp] theorem State.tickOrder_obs : (s.tickOrder).obs = s.obs := rfl
@[simp] theorem State.tickOrder_board : (s.tickOrder).board = s.board := rfl
@[simp] theorem State.tickOrder_free : (s.tickOrder).free = s.free := rfl
@[simp] theorem State.tickOrder_out : (s.tickOrder).out = s.out := rfl

@[simp] theorem State.modEng_pending (n : Nat) (f : Engine → Engine) : (s.modEng n f).pending = s.pending := rfl
@[simp] theorem State.modEng_chip (n : Nat) (f : Engine → Engine) : (s.modEng n f).chip = s.chip := rfl
@[simp] theorem State.modEng_beat (n : Nat) (f : Engine → Engine) : (s.modEng n f).beat = s.beat := rfl
@[simp] theorem State.modEng_box (n : Nat) (f : Engine → Engine) : (s.modEng n f).box = s.box := rfl
@[simp] theorem State.modEng_org (n : Nat) (f : Engine → Engine) : (s.modEng n f).org = s.org := rfl
@[simp] theorem State.modEng_ten (n : Nat) (f : Engine → Engine) : (s.modEng n f).ten = s.ten := rfl
@[simp] theorem State.modEng_fen (n : Nat) (f : Engine → Engine) : (s.modEng n f).fen = s.fen := rfl
@[simp] theorem State.modEng_reg (n : Nat) (f : Engine → Engine) : (s.modEng n f).reg = s.reg := rfl
@[simp] theorem State.modEng_xl (n : Nat) (f : Engine → Engine) : (s.modEng n f).xl = s.xl := rfl
@[simp] theorem State.modEng_mem (n : Nat) (f : Engine → Engine) : (s.modEng n f).mem = s.mem := rfl
@[simp] theorem State.modEng_coh (n : Nat) (f : Engine → Engine) : (s.modEng n f).coh = s.coh := rfl
@[simp] theorem State.modEng_sec (n : Nat) (f : Engine → Engine) : (s.modEng n f).sec = s.sec := rfl
@[simp] theorem State.modEng_net (n : Nat) (f : Engine → Engine) : (s.modEng n f).net = s.net := rfl
@[simp] theorem State.modEng_pwr (n : Nat) (f : Engine → Engine) : (s.modEng n f).pwr = s.pwr := rfl
@[simp] theorem State.modEng_watch (n : Nat) (f : Engine → Engine) : (s.modEng n f).watch = s.watch := rfl
@[simp] theorem State.modEng_log (n : Nat) (f : Engine → Engine) : (s.modEng n f).log = s.log := rfl
@[simp] theorem State.modEng_obs (n : Nat) (f : Engine → Engine) : (s.modEng n f).obs = s.obs := rfl
@[simp] theorem State.modEng_board (n : Nat) (f : Engine → Engine) : (s.modEng n f).board = s.board := rfl
@[simp] theorem State.modEng_free (n : Nat) (f : Engine → Engine) : (s.modEng n f).free = s.free := rfl
@[simp] theorem State.modEng_out (n : Nat) (f : Engine → Engine) : (s.modEng n f).out = s.out := rfl

@[simp] theorem State.modFence_pending (n : Nat) (f : Fence → Fence) : (s.modFence n f).pending = s.pending := rfl
@[simp] theorem State.modFence_chip (n : Nat) (f : Fence → Fence) : (s.modFence n f).chip = s.chip := rfl
@[simp] theorem State.modFence_beat (n : Nat) (f : Fence → Fence) : (s.modFence n f).beat = s.beat := rfl
@[simp] theorem State.modFence_box (n : Nat) (f : Fence → Fence) : (s.modFence n f).box = s.box := rfl
@[simp] theorem State.modFence_org (n : Nat) (f : Fence → Fence) : (s.modFence n f).org = s.org := rfl
@[simp] theorem State.modFence_ten (n : Nat) (f : Fence → Fence) : (s.modFence n f).ten = s.ten := rfl
@[simp] theorem State.modFence_eng (n : Nat) (f : Fence → Fence) : (s.modFence n f).eng = s.eng := rfl
@[simp] theorem State.modFence_reg (n : Nat) (f : Fence → Fence) : (s.modFence n f).reg = s.reg := rfl
@[simp] theorem State.modFence_xl (n : Nat) (f : Fence → Fence) : (s.modFence n f).xl = s.xl := rfl
@[simp] theorem State.modFence_mem (n : Nat) (f : Fence → Fence) : (s.modFence n f).mem = s.mem := rfl
@[simp] theorem State.modFence_coh (n : Nat) (f : Fence → Fence) : (s.modFence n f).coh = s.coh := rfl
@[simp] theorem State.modFence_sec (n : Nat) (f : Fence → Fence) : (s.modFence n f).sec = s.sec := rfl
@[simp] theorem State.modFence_net (n : Nat) (f : Fence → Fence) : (s.modFence n f).net = s.net := rfl
@[simp] theorem State.modFence_pwr (n : Nat) (f : Fence → Fence) : (s.modFence n f).pwr = s.pwr := rfl
@[simp] theorem State.modFence_watch (n : Nat) (f : Fence → Fence) : (s.modFence n f).watch = s.watch := rfl
@[simp] theorem State.modFence_log (n : Nat) (f : Fence → Fence) : (s.modFence n f).log = s.log := rfl
@[simp] theorem State.modFence_obs (n : Nat) (f : Fence → Fence) : (s.modFence n f).obs = s.obs := rfl
@[simp] theorem State.modFence_board (n : Nat) (f : Fence → Fence) : (s.modFence n f).board = s.board := rfl
@[simp] theorem State.modFence_free (n : Nat) (f : Fence → Fence) : (s.modFence n f).free = s.free := rfl
@[simp] theorem State.modFence_out (n : Nat) (f : Fence → Fence) : (s.modFence n f).out = s.out := rfl

@[simp] theorem State.modSeg_pending (n : Nat) (f : Seg → Seg) : (s.modSeg n f).pending = s.pending := rfl
@[simp] theorem State.modSeg_chip (n : Nat) (f : Seg → Seg) : (s.modSeg n f).chip = s.chip := rfl
@[simp] theorem State.modSeg_beat (n : Nat) (f : Seg → Seg) : (s.modSeg n f).beat = s.beat := rfl
@[simp] theorem State.modSeg_box (n : Nat) (f : Seg → Seg) : (s.modSeg n f).box = s.box := rfl
@[simp] theorem State.modSeg_org (n : Nat) (f : Seg → Seg) : (s.modSeg n f).org = s.org := rfl
@[simp] theorem State.modSeg_ten (n : Nat) (f : Seg → Seg) : (s.modSeg n f).ten = s.ten := rfl
@[simp] theorem State.modSeg_fen (n : Nat) (f : Seg → Seg) : (s.modSeg n f).fen = s.fen := rfl
@[simp] theorem State.modSeg_eng (n : Nat) (f : Seg → Seg) : (s.modSeg n f).eng = s.eng := rfl
@[simp] theorem State.modSeg_reg (n : Nat) (f : Seg → Seg) : (s.modSeg n f).reg = s.reg := rfl
@[simp] theorem State.modSeg_mem (n : Nat) (f : Seg → Seg) : (s.modSeg n f).mem = s.mem := rfl
@[simp] theorem State.modSeg_coh (n : Nat) (f : Seg → Seg) : (s.modSeg n f).coh = s.coh := rfl
@[simp] theorem State.modSeg_sec (n : Nat) (f : Seg → Seg) : (s.modSeg n f).sec = s.sec := rfl
@[simp] theorem State.modSeg_net (n : Nat) (f : Seg → Seg) : (s.modSeg n f).net = s.net := rfl
@[simp] theorem State.modSeg_pwr (n : Nat) (f : Seg → Seg) : (s.modSeg n f).pwr = s.pwr := rfl
@[simp] theorem State.modSeg_watch (n : Nat) (f : Seg → Seg) : (s.modSeg n f).watch = s.watch := rfl
@[simp] theorem State.modSeg_log (n : Nat) (f : Seg → Seg) : (s.modSeg n f).log = s.log := rfl
@[simp] theorem State.modSeg_obs (n : Nat) (f : Seg → Seg) : (s.modSeg n f).obs = s.obs := rfl
@[simp] theorem State.modSeg_board (n : Nat) (f : Seg → Seg) : (s.modSeg n f).board = s.board := rfl
@[simp] theorem State.modSeg_free (n : Nat) (f : Seg → Seg) : (s.modSeg n f).free = s.free := rfl
@[simp] theorem State.modSeg_out (n : Nat) (f : Seg → Seg) : (s.modSeg n f).out = s.out := rfl

@[simp] theorem State.modMigrate_pending (n : Nat) (f : Migrate → Migrate) : (s.modMigrate n f).pending = s.pending := rfl
@[simp] theorem State.modMigrate_chip (n : Nat) (f : Migrate → Migrate) : (s.modMigrate n f).chip = s.chip := rfl
@[simp] theorem State.modMigrate_beat (n : Nat) (f : Migrate → Migrate) : (s.modMigrate n f).beat = s.beat := rfl
@[simp] theorem State.modMigrate_box (n : Nat) (f : Migrate → Migrate) : (s.modMigrate n f).box = s.box := rfl
@[simp] theorem State.modMigrate_org (n : Nat) (f : Migrate → Migrate) : (s.modMigrate n f).org = s.org := rfl
@[simp] theorem State.modMigrate_ten (n : Nat) (f : Migrate → Migrate) : (s.modMigrate n f).ten = s.ten := rfl
@[simp] theorem State.modMigrate_fen (n : Nat) (f : Migrate → Migrate) : (s.modMigrate n f).fen = s.fen := rfl
@[simp] theorem State.modMigrate_eng (n : Nat) (f : Migrate → Migrate) : (s.modMigrate n f).eng = s.eng := rfl
@[simp] theorem State.modMigrate_reg (n : Nat) (f : Migrate → Migrate) : (s.modMigrate n f).reg = s.reg := rfl
@[simp] theorem State.modMigrate_mem (n : Nat) (f : Migrate → Migrate) : (s.modMigrate n f).mem = s.mem := rfl
@[simp] theorem State.modMigrate_coh (n : Nat) (f : Migrate → Migrate) : (s.modMigrate n f).coh = s.coh := rfl
@[simp] theorem State.modMigrate_sec (n : Nat) (f : Migrate → Migrate) : (s.modMigrate n f).sec = s.sec := rfl
@[simp] theorem State.modMigrate_net (n : Nat) (f : Migrate → Migrate) : (s.modMigrate n f).net = s.net := rfl
@[simp] theorem State.modMigrate_pwr (n : Nat) (f : Migrate → Migrate) : (s.modMigrate n f).pwr = s.pwr := rfl
@[simp] theorem State.modMigrate_watch (n : Nat) (f : Migrate → Migrate) : (s.modMigrate n f).watch = s.watch := rfl
@[simp] theorem State.modMigrate_log (n : Nat) (f : Migrate → Migrate) : (s.modMigrate n f).log = s.log := rfl
@[simp] theorem State.modMigrate_obs (n : Nat) (f : Migrate → Migrate) : (s.modMigrate n f).obs = s.obs := rfl
@[simp] theorem State.modMigrate_board (n : Nat) (f : Migrate → Migrate) : (s.modMigrate n f).board = s.board := rfl
@[simp] theorem State.modMigrate_free (n : Nat) (f : Migrate → Migrate) : (s.modMigrate n f).free = s.free := rfl
@[simp] theorem State.modMigrate_out (n : Nat) (f : Migrate → Migrate) : (s.modMigrate n f).out = s.out := rfl

@[simp] theorem State.putTile_pending (n : Nat) (v : TileRun) : (s.putTile n v).pending = s.pending := rfl
@[simp] theorem State.putTile_chip (n : Nat) (v : TileRun) : (s.putTile n v).chip = s.chip := rfl
@[simp] theorem State.putTile_beat (n : Nat) (v : TileRun) : (s.putTile n v).beat = s.beat := rfl
@[simp] theorem State.putTile_box (n : Nat) (v : TileRun) : (s.putTile n v).box = s.box := rfl
@[simp] theorem State.putTile_org (n : Nat) (v : TileRun) : (s.putTile n v).org = s.org := rfl
@[simp] theorem State.putTile_ten (n : Nat) (v : TileRun) : (s.putTile n v).ten = s.ten := rfl
@[simp] theorem State.putTile_fen (n : Nat) (v : TileRun) : (s.putTile n v).fen = s.fen := rfl
@[simp] theorem State.putTile_eng (n : Nat) (v : TileRun) : (s.putTile n v).eng = s.eng := rfl
@[simp] theorem State.putTile_reg (n : Nat) (v : TileRun) : (s.putTile n v).reg = s.reg := rfl
@[simp] theorem State.putTile_mem (n : Nat) (v : TileRun) : (s.putTile n v).mem = s.mem := rfl
@[simp] theorem State.putTile_coh (n : Nat) (v : TileRun) : (s.putTile n v).coh = s.coh := rfl
@[simp] theorem State.putTile_sec (n : Nat) (v : TileRun) : (s.putTile n v).sec = s.sec := rfl
@[simp] theorem State.putTile_net (n : Nat) (v : TileRun) : (s.putTile n v).net = s.net := rfl
@[simp] theorem State.putTile_pwr (n : Nat) (v : TileRun) : (s.putTile n v).pwr = s.pwr := rfl
@[simp] theorem State.putTile_watch (n : Nat) (v : TileRun) : (s.putTile n v).watch = s.watch := rfl
@[simp] theorem State.putTile_log (n : Nat) (v : TileRun) : (s.putTile n v).log = s.log := rfl
@[simp] theorem State.putTile_obs (n : Nat) (v : TileRun) : (s.putTile n v).obs = s.obs := rfl
@[simp] theorem State.putTile_board (n : Nat) (v : TileRun) : (s.putTile n v).board = s.board := rfl
@[simp] theorem State.putTile_free (n : Nat) (v : TileRun) : (s.putTile n v).free = s.free := rfl
@[simp] theorem State.putTile_out (n : Nat) (v : TileRun) : (s.putTile n v).out = s.out := rfl

@[simp] theorem State.modRange_pending (n : Nat) (f : Range → Range) : (s.modRange n f).pending = s.pending := rfl
@[simp] theorem State.modRange_chip (n : Nat) (f : Range → Range) : (s.modRange n f).chip = s.chip := rfl
@[simp] theorem State.modRange_beat (n : Nat) (f : Range → Range) : (s.modRange n f).beat = s.beat := rfl
@[simp] theorem State.modRange_box (n : Nat) (f : Range → Range) : (s.modRange n f).box = s.box := rfl
@[simp] theorem State.modRange_org (n : Nat) (f : Range → Range) : (s.modRange n f).org = s.org := rfl
@[simp] theorem State.modRange_ten (n : Nat) (f : Range → Range) : (s.modRange n f).ten = s.ten := rfl
@[simp] theorem State.modRange_fen (n : Nat) (f : Range → Range) : (s.modRange n f).fen = s.fen := rfl
@[simp] theorem State.modRange_eng (n : Nat) (f : Range → Range) : (s.modRange n f).eng = s.eng := rfl
@[simp] theorem State.modRange_reg (n : Nat) (f : Range → Range) : (s.modRange n f).reg = s.reg := rfl
@[simp] theorem State.modRange_xl (n : Nat) (f : Range → Range) : (s.modRange n f).xl = s.xl := rfl
@[simp] theorem State.modRange_coh (n : Nat) (f : Range → Range) : (s.modRange n f).coh = s.coh := rfl
@[simp] theorem State.modRange_sec (n : Nat) (f : Range → Range) : (s.modRange n f).sec = s.sec := rfl
@[simp] theorem State.modRange_net (n : Nat) (f : Range → Range) : (s.modRange n f).net = s.net := rfl
@[simp] theorem State.modRange_pwr (n : Nat) (f : Range → Range) : (s.modRange n f).pwr = s.pwr := rfl
@[simp] theorem State.modRange_watch (n : Nat) (f : Range → Range) : (s.modRange n f).watch = s.watch := rfl
@[simp] theorem State.modRange_log (n : Nat) (f : Range → Range) : (s.modRange n f).log = s.log := rfl
@[simp] theorem State.modRange_obs (n : Nat) (f : Range → Range) : (s.modRange n f).obs = s.obs := rfl
@[simp] theorem State.modRange_board (n : Nat) (f : Range → Range) : (s.modRange n f).board = s.board := rfl
@[simp] theorem State.modRange_free (n : Nat) (f : Range → Range) : (s.modRange n f).free = s.free := rfl
@[simp] theorem State.modRange_out (n : Nat) (f : Range → Range) : (s.modRange n f).out = s.out := rfl

@[simp] theorem State.putLine_pending (n : Nat) (v : Line) : (s.putLine n v).pending = s.pending := rfl
@[simp] theorem State.putLine_chip (n : Nat) (v : Line) : (s.putLine n v).chip = s.chip := rfl
@[simp] theorem State.putLine_beat (n : Nat) (v : Line) : (s.putLine n v).beat = s.beat := rfl
@[simp] theorem State.putLine_box (n : Nat) (v : Line) : (s.putLine n v).box = s.box := rfl
@[simp] theorem State.putLine_org (n : Nat) (v : Line) : (s.putLine n v).org = s.org := rfl
@[simp] theorem State.putLine_ten (n : Nat) (v : Line) : (s.putLine n v).ten = s.ten := rfl
@[simp] theorem State.putLine_fen (n : Nat) (v : Line) : (s.putLine n v).fen = s.fen := rfl
@[simp] theorem State.putLine_eng (n : Nat) (v : Line) : (s.putLine n v).eng = s.eng := rfl
@[simp] theorem State.putLine_reg (n : Nat) (v : Line) : (s.putLine n v).reg = s.reg := rfl
@[simp] theorem State.putLine_xl (n : Nat) (v : Line) : (s.putLine n v).xl = s.xl := rfl
@[simp] theorem State.putLine_coh (n : Nat) (v : Line) : (s.putLine n v).coh = s.coh := rfl
@[simp] theorem State.putLine_sec (n : Nat) (v : Line) : (s.putLine n v).sec = s.sec := rfl
@[simp] theorem State.putLine_net (n : Nat) (v : Line) : (s.putLine n v).net = s.net := rfl
@[simp] theorem State.putLine_pwr (n : Nat) (v : Line) : (s.putLine n v).pwr = s.pwr := rfl
@[simp] theorem State.putLine_watch (n : Nat) (v : Line) : (s.putLine n v).watch = s.watch := rfl
@[simp] theorem State.putLine_log (n : Nat) (v : Line) : (s.putLine n v).log = s.log := rfl
@[simp] theorem State.putLine_obs (n : Nat) (v : Line) : (s.putLine n v).obs = s.obs := rfl
@[simp] theorem State.putLine_board (n : Nat) (v : Line) : (s.putLine n v).board = s.board := rfl
@[simp] theorem State.putLine_free (n : Nat) (v : Line) : (s.putLine n v).free = s.free := rfl
@[simp] theorem State.putLine_out (n : Nat) (v : Line) : (s.putLine n v).out = s.out := rfl

@[simp] theorem State.modAct_pending (n : Nat) (f : Activity → Activity) : (s.modAct n f).pending = s.pending := rfl
@[simp] theorem State.modAct_chip (n : Nat) (f : Activity → Activity) : (s.modAct n f).chip = s.chip := rfl
@[simp] theorem State.modAct_beat (n : Nat) (f : Activity → Activity) : (s.modAct n f).beat = s.beat := rfl
@[simp] theorem State.modAct_box (n : Nat) (f : Activity → Activity) : (s.modAct n f).box = s.box := rfl
@[simp] theorem State.modAct_org (n : Nat) (f : Activity → Activity) : (s.modAct n f).org = s.org := rfl
@[simp] theorem State.modAct_ten (n : Nat) (f : Activity → Activity) : (s.modAct n f).ten = s.ten := rfl
@[simp] theorem State.modAct_fen (n : Nat) (f : Activity → Activity) : (s.modAct n f).fen = s.fen := rfl
@[simp] theorem State.modAct_eng (n : Nat) (f : Activity → Activity) : (s.modAct n f).eng = s.eng := rfl
@[simp] theorem State.modAct_reg (n : Nat) (f : Activity → Activity) : (s.modAct n f).reg = s.reg := rfl
@[simp] theorem State.modAct_xl (n : Nat) (f : Activity → Activity) : (s.modAct n f).xl = s.xl := rfl
@[simp] theorem State.modAct_coh (n : Nat) (f : Activity → Activity) : (s.modAct n f).coh = s.coh := rfl
@[simp] theorem State.modAct_sec (n : Nat) (f : Activity → Activity) : (s.modAct n f).sec = s.sec := rfl
@[simp] theorem State.modAct_net (n : Nat) (f : Activity → Activity) : (s.modAct n f).net = s.net := rfl
@[simp] theorem State.modAct_pwr (n : Nat) (f : Activity → Activity) : (s.modAct n f).pwr = s.pwr := rfl
@[simp] theorem State.modAct_watch (n : Nat) (f : Activity → Activity) : (s.modAct n f).watch = s.watch := rfl
@[simp] theorem State.modAct_log (n : Nat) (f : Activity → Activity) : (s.modAct n f).log = s.log := rfl
@[simp] theorem State.modAct_obs (n : Nat) (f : Activity → Activity) : (s.modAct n f).obs = s.obs := rfl
@[simp] theorem State.modAct_board (n : Nat) (f : Activity → Activity) : (s.modAct n f).board = s.board := rfl
@[simp] theorem State.modAct_free (n : Nat) (f : Activity → Activity) : (s.modAct n f).free = s.free := rfl
@[simp] theorem State.modAct_out (n : Nat) (f : Activity → Activity) : (s.modAct n f).out = s.out := rfl

@[simp] theorem State.modPow_pending (n : Nat) (f : PowPart → PowPart) : (s.modPow n f).pending = s.pending := rfl
@[simp] theorem State.modPow_chip (n : Nat) (f : PowPart → PowPart) : (s.modPow n f).chip = s.chip := rfl
@[simp] theorem State.modPow_beat (n : Nat) (f : PowPart → PowPart) : (s.modPow n f).beat = s.beat := rfl
@[simp] theorem State.modPow_box (n : Nat) (f : PowPart → PowPart) : (s.modPow n f).box = s.box := rfl
@[simp] theorem State.modPow_org (n : Nat) (f : PowPart → PowPart) : (s.modPow n f).org = s.org := rfl
@[simp] theorem State.modPow_ten (n : Nat) (f : PowPart → PowPart) : (s.modPow n f).ten = s.ten := rfl
@[simp] theorem State.modPow_fen (n : Nat) (f : PowPart → PowPart) : (s.modPow n f).fen = s.fen := rfl
@[simp] theorem State.modPow_eng (n : Nat) (f : PowPart → PowPart) : (s.modPow n f).eng = s.eng := rfl
@[simp] theorem State.modPow_reg (n : Nat) (f : PowPart → PowPart) : (s.modPow n f).reg = s.reg := rfl
@[simp] theorem State.modPow_xl (n : Nat) (f : PowPart → PowPart) : (s.modPow n f).xl = s.xl := rfl
@[simp] theorem State.modPow_mem (n : Nat) (f : PowPart → PowPart) : (s.modPow n f).mem = s.mem := rfl
@[simp] theorem State.modPow_coh (n : Nat) (f : PowPart → PowPart) : (s.modPow n f).coh = s.coh := rfl
@[simp] theorem State.modPow_sec (n : Nat) (f : PowPart → PowPart) : (s.modPow n f).sec = s.sec := rfl
@[simp] theorem State.modPow_net (n : Nat) (f : PowPart → PowPart) : (s.modPow n f).net = s.net := rfl
@[simp] theorem State.modPow_watch (n : Nat) (f : PowPart → PowPart) : (s.modPow n f).watch = s.watch := rfl
@[simp] theorem State.modPow_log (n : Nat) (f : PowPart → PowPart) : (s.modPow n f).log = s.log := rfl
@[simp] theorem State.modPow_obs (n : Nat) (f : PowPart → PowPart) : (s.modPow n f).obs = s.obs := rfl
@[simp] theorem State.modPow_board (n : Nat) (f : PowPart → PowPart) : (s.modPow n f).board = s.board := rfl
@[simp] theorem State.modPow_free (n : Nat) (f : PowPart → PowPart) : (s.modPow n f).free = s.free := rfl
@[simp] theorem State.modPow_out (n : Nat) (f : PowPart → PowPart) : (s.modPow n f).out = s.out := rfl

@[simp] theorem State.countGlob_pending (i n : Nat) : (s.countGlob i n).pending = s.pending := rfl
@[simp] theorem State.countGlob_chip (i n : Nat) : (s.countGlob i n).chip = s.chip := rfl
@[simp] theorem State.countGlob_beat (i n : Nat) : (s.countGlob i n).beat = s.beat := rfl
@[simp] theorem State.countGlob_box (i n : Nat) : (s.countGlob i n).box = s.box := rfl
@[simp] theorem State.countGlob_org (i n : Nat) : (s.countGlob i n).org = s.org := rfl
@[simp] theorem State.countGlob_ten (i n : Nat) : (s.countGlob i n).ten = s.ten := rfl
@[simp] theorem State.countGlob_fen (i n : Nat) : (s.countGlob i n).fen = s.fen := rfl
@[simp] theorem State.countGlob_eng (i n : Nat) : (s.countGlob i n).eng = s.eng := rfl
@[simp] theorem State.countGlob_reg (i n : Nat) : (s.countGlob i n).reg = s.reg := rfl
@[simp] theorem State.countGlob_xl (i n : Nat) : (s.countGlob i n).xl = s.xl := rfl
@[simp] theorem State.countGlob_mem (i n : Nat) : (s.countGlob i n).mem = s.mem := rfl
@[simp] theorem State.countGlob_coh (i n : Nat) : (s.countGlob i n).coh = s.coh := rfl
@[simp] theorem State.countGlob_sec (i n : Nat) : (s.countGlob i n).sec = s.sec := rfl
@[simp] theorem State.countGlob_net (i n : Nat) : (s.countGlob i n).net = s.net := rfl
@[simp] theorem State.countGlob_pwr (i n : Nat) : (s.countGlob i n).pwr = s.pwr := rfl
@[simp] theorem State.countGlob_watch (i n : Nat) : (s.countGlob i n).watch = s.watch := rfl
@[simp] theorem State.countGlob_log (i n : Nat) : (s.countGlob i n).log = s.log := rfl
@[simp] theorem State.countGlob_board (i n : Nat) : (s.countGlob i n).board = s.board := rfl
@[simp] theorem State.countGlob_free (i n : Nat) : (s.countGlob i n).free = s.free := rfl
@[simp] theorem State.countGlob_out (i n : Nat) : (s.countGlob i n).out = s.out := rfl

@[simp] theorem State.modRegField_pending (p i : Nat) (f : RegField → RegField) : (s.modRegField p i f).pending = s.pending := rfl
@[simp] theorem State.modRegField_chip (p i : Nat) (f : RegField → RegField) : (s.modRegField p i f).chip = s.chip := rfl
@[simp] theorem State.modRegField_beat (p i : Nat) (f : RegField → RegField) : (s.modRegField p i f).beat = s.beat := rfl
@[simp] theorem State.modRegField_box (p i : Nat) (f : RegField → RegField) : (s.modRegField p i f).box = s.box := rfl
@[simp] theorem State.modRegField_org (p i : Nat) (f : RegField → RegField) : (s.modRegField p i f).org = s.org := rfl
@[simp] theorem State.modRegField_ten (p i : Nat) (f : RegField → RegField) : (s.modRegField p i f).ten = s.ten := rfl
@[simp] theorem State.modRegField_fen (p i : Nat) (f : RegField → RegField) : (s.modRegField p i f).fen = s.fen := rfl
@[simp] theorem State.modRegField_eng (p i : Nat) (f : RegField → RegField) : (s.modRegField p i f).eng = s.eng := rfl
@[simp] theorem State.modRegField_xl (p i : Nat) (f : RegField → RegField) : (s.modRegField p i f).xl = s.xl := rfl
@[simp] theorem State.modRegField_mem (p i : Nat) (f : RegField → RegField) : (s.modRegField p i f).mem = s.mem := rfl
@[simp] theorem State.modRegField_coh (p i : Nat) (f : RegField → RegField) : (s.modRegField p i f).coh = s.coh := rfl
@[simp] theorem State.modRegField_sec (p i : Nat) (f : RegField → RegField) : (s.modRegField p i f).sec = s.sec := rfl
@[simp] theorem State.modRegField_net (p i : Nat) (f : RegField → RegField) : (s.modRegField p i f).net = s.net := rfl
@[simp] theorem State.modRegField_pwr (p i : Nat) (f : RegField → RegField) : (s.modRegField p i f).pwr = s.pwr := rfl
@[simp] theorem State.modRegField_watch (p i : Nat) (f : RegField → RegField) : (s.modRegField p i f).watch = s.watch := rfl
@[simp] theorem State.modRegField_log (p i : Nat) (f : RegField → RegField) : (s.modRegField p i f).log = s.log := rfl
@[simp] theorem State.modRegField_obs (p i : Nat) (f : RegField → RegField) : (s.modRegField p i f).obs = s.obs := rfl
@[simp] theorem State.modRegField_board (p i : Nat) (f : RegField → RegField) : (s.modRegField p i f).board = s.board := rfl
@[simp] theorem State.modRegField_free (p i : Nat) (f : RegField → RegField) : (s.modRegField p i f).free = s.free := rfl
@[simp] theorem State.modRegField_out (p i : Nat) (f : RegField → RegField) : (s.modRegField p i f).out = s.out := rfl

@[simp] theorem State.modRegClass_pending (p i k : Nat) (f : RegClass → RegClass) : (s.modRegClass p i k f).pending = s.pending := rfl
@[simp] theorem State.modRegClass_chip (p i k : Nat) (f : RegClass → RegClass) : (s.modRegClass p i k f).chip = s.chip := rfl
@[simp] theorem State.modRegClass_beat (p i k : Nat) (f : RegClass → RegClass) : (s.modRegClass p i k f).beat = s.beat := rfl
@[simp] theorem State.modRegClass_box (p i k : Nat) (f : RegClass → RegClass) : (s.modRegClass p i k f).box = s.box := rfl
@[simp] theorem State.modRegClass_org (p i k : Nat) (f : RegClass → RegClass) : (s.modRegClass p i k f).org = s.org := rfl
@[simp] theorem State.modRegClass_ten (p i k : Nat) (f : RegClass → RegClass) : (s.modRegClass p i k f).ten = s.ten := rfl
@[simp] theorem State.modRegClass_fen (p i k : Nat) (f : RegClass → RegClass) : (s.modRegClass p i k f).fen = s.fen := rfl
@[simp] theorem State.modRegClass_eng (p i k : Nat) (f : RegClass → RegClass) : (s.modRegClass p i k f).eng = s.eng := rfl
@[simp] theorem State.modRegClass_xl (p i k : Nat) (f : RegClass → RegClass) : (s.modRegClass p i k f).xl = s.xl := rfl
@[simp] theorem State.modRegClass_mem (p i k : Nat) (f : RegClass → RegClass) : (s.modRegClass p i k f).mem = s.mem := rfl
@[simp] theorem State.modRegClass_coh (p i k : Nat) (f : RegClass → RegClass) : (s.modRegClass p i k f).coh = s.coh := rfl
@[simp] theorem State.modRegClass_sec (p i k : Nat) (f : RegClass → RegClass) : (s.modRegClass p i k f).sec = s.sec := rfl
@[simp] theorem State.modRegClass_net (p i k : Nat) (f : RegClass → RegClass) : (s.modRegClass p i k f).net = s.net := rfl
@[simp] theorem State.modRegClass_pwr (p i k : Nat) (f : RegClass → RegClass) : (s.modRegClass p i k f).pwr = s.pwr := rfl
@[simp] theorem State.modRegClass_watch (p i k : Nat) (f : RegClass → RegClass) : (s.modRegClass p i k f).watch = s.watch := rfl
@[simp] theorem State.modRegClass_log (p i k : Nat) (f : RegClass → RegClass) : (s.modRegClass p i k f).log = s.log := rfl
@[simp] theorem State.modRegClass_obs (p i k : Nat) (f : RegClass → RegClass) : (s.modRegClass p i k f).obs = s.obs := rfl
@[simp] theorem State.modRegClass_board (p i k : Nat) (f : RegClass → RegClass) : (s.modRegClass p i k f).board = s.board := rfl
@[simp] theorem State.modRegClass_free (p i k : Nat) (f : RegClass → RegClass) : (s.modRegClass p i k f).free = s.free := rfl
@[simp] theorem State.modRegClass_out (p i k : Nat) (f : RegClass → RegClass) : (s.modRegClass p i k f).out = s.out := rfl

@[simp] theorem State.modBucket_pending (k : Nat) (f : Bucket → Bucket) : (s.modBucket k f).pending = s.pending := rfl
@[simp] theorem State.modBucket_chip (k : Nat) (f : Bucket → Bucket) : (s.modBucket k f).chip = s.chip := rfl
@[simp] theorem State.modBucket_beat (k : Nat) (f : Bucket → Bucket) : (s.modBucket k f).beat = s.beat := rfl
@[simp] theorem State.modBucket_box (k : Nat) (f : Bucket → Bucket) : (s.modBucket k f).box = s.box := rfl
@[simp] theorem State.modBucket_org (k : Nat) (f : Bucket → Bucket) : (s.modBucket k f).org = s.org := rfl
@[simp] theorem State.modBucket_ten (k : Nat) (f : Bucket → Bucket) : (s.modBucket k f).ten = s.ten := rfl
@[simp] theorem State.modBucket_fen (k : Nat) (f : Bucket → Bucket) : (s.modBucket k f).fen = s.fen := rfl
@[simp] theorem State.modBucket_eng (k : Nat) (f : Bucket → Bucket) : (s.modBucket k f).eng = s.eng := rfl
@[simp] theorem State.modBucket_xl (k : Nat) (f : Bucket → Bucket) : (s.modBucket k f).xl = s.xl := rfl
@[simp] theorem State.modBucket_mem (k : Nat) (f : Bucket → Bucket) : (s.modBucket k f).mem = s.mem := rfl
@[simp] theorem State.modBucket_coh (k : Nat) (f : Bucket → Bucket) : (s.modBucket k f).coh = s.coh := rfl
@[simp] theorem State.modBucket_sec (k : Nat) (f : Bucket → Bucket) : (s.modBucket k f).sec = s.sec := rfl
@[simp] theorem State.modBucket_net (k : Nat) (f : Bucket → Bucket) : (s.modBucket k f).net = s.net := rfl
@[simp] theorem State.modBucket_pwr (k : Nat) (f : Bucket → Bucket) : (s.modBucket k f).pwr = s.pwr := rfl
@[simp] theorem State.modBucket_watch (k : Nat) (f : Bucket → Bucket) : (s.modBucket k f).watch = s.watch := rfl
@[simp] theorem State.modBucket_log (k : Nat) (f : Bucket → Bucket) : (s.modBucket k f).log = s.log := rfl
@[simp] theorem State.modBucket_obs (k : Nat) (f : Bucket → Bucket) : (s.modBucket k f).obs = s.obs := rfl
@[simp] theorem State.modBucket_board (k : Nat) (f : Bucket → Bucket) : (s.modBucket k f).board = s.board := rfl
@[simp] theorem State.modBucket_free (k : Nat) (f : Bucket → Bucket) : (s.modBucket k f).free = s.free := rfl
@[simp] theorem State.modBucket_out (k : Nat) (f : Bucket → Bucket) : (s.modBucket k f).out = s.out := rfl

@[simp] theorem State.modCore_pending (n : Nat) (f : Core → Core) : (s.modCore n f).pending = s.pending := rfl
@[simp] theorem State.modCore_chip (n : Nat) (f : Core → Core) : (s.modCore n f).chip = s.chip := rfl
@[simp] theorem State.modCore_beat (n : Nat) (f : Core → Core) : (s.modCore n f).beat = s.beat := rfl
@[simp] theorem State.modCore_box (n : Nat) (f : Core → Core) : (s.modCore n f).box = s.box := rfl
@[simp] theorem State.modCore_org (n : Nat) (f : Core → Core) : (s.modCore n f).org = s.org := rfl
@[simp] theorem State.modCore_ten (n : Nat) (f : Core → Core) : (s.modCore n f).ten = s.ten := rfl
@[simp] theorem State.modCore_fen (n : Nat) (f : Core → Core) : (s.modCore n f).fen = s.fen := rfl
@[simp] theorem State.modCore_eng (n : Nat) (f : Core → Core) : (s.modCore n f).eng = s.eng := rfl
@[simp] theorem State.modCore_reg (n : Nat) (f : Core → Core) : (s.modCore n f).reg = s.reg := rfl
@[simp] theorem State.modCore_xl (n : Nat) (f : Core → Core) : (s.modCore n f).xl = s.xl := rfl
@[simp] theorem State.modCore_mem (n : Nat) (f : Core → Core) : (s.modCore n f).mem = s.mem := rfl
@[simp] theorem State.modCore_coh (n : Nat) (f : Core → Core) : (s.modCore n f).coh = s.coh := rfl
@[simp] theorem State.modCore_sec (n : Nat) (f : Core → Core) : (s.modCore n f).sec = s.sec := rfl
@[simp] theorem State.modCore_net (n : Nat) (f : Core → Core) : (s.modCore n f).net = s.net := rfl
@[simp] theorem State.modCore_pwr (n : Nat) (f : Core → Core) : (s.modCore n f).pwr = s.pwr := rfl
@[simp] theorem State.modCore_log (n : Nat) (f : Core → Core) : (s.modCore n f).log = s.log := rfl
@[simp] theorem State.modCore_obs (n : Nat) (f : Core → Core) : (s.modCore n f).obs = s.obs := rfl
@[simp] theorem State.modCore_board (n : Nat) (f : Core → Core) : (s.modCore n f).board = s.board := rfl
@[simp] theorem State.modCore_free (n : Nat) (f : Core → Core) : (s.modCore n f).free = s.free := rfl
@[simp] theorem State.modCore_out (n : Nat) (f : Core → Core) : (s.modCore n f).out = s.out := rfl

@[simp] theorem State.modWin_pending (p w : Nat) (f : Win → Win) : (s.modWin p w f).pending = s.pending := rfl
@[simp] theorem State.modWin_chip (p w : Nat) (f : Win → Win) : (s.modWin p w f).chip = s.chip := rfl
@[simp] theorem State.modWin_beat (p w : Nat) (f : Win → Win) : (s.modWin p w f).beat = s.beat := rfl
@[simp] theorem State.modWin_box (p w : Nat) (f : Win → Win) : (s.modWin p w f).box = s.box := rfl
@[simp] theorem State.modWin_org (p w : Nat) (f : Win → Win) : (s.modWin p w f).org = s.org := rfl
@[simp] theorem State.modWin_ten (p w : Nat) (f : Win → Win) : (s.modWin p w f).ten = s.ten := rfl
@[simp] theorem State.modWin_fen (p w : Nat) (f : Win → Win) : (s.modWin p w f).fen = s.fen := rfl
@[simp] theorem State.modWin_eng (p w : Nat) (f : Win → Win) : (s.modWin p w f).eng = s.eng := rfl
@[simp] theorem State.modWin_reg (p w : Nat) (f : Win → Win) : (s.modWin p w f).reg = s.reg := rfl
@[simp] theorem State.modWin_xl (p w : Nat) (f : Win → Win) : (s.modWin p w f).xl = s.xl := rfl
@[simp] theorem State.modWin_mem (p w : Nat) (f : Win → Win) : (s.modWin p w f).mem = s.mem := rfl
@[simp] theorem State.modWin_coh (p w : Nat) (f : Win → Win) : (s.modWin p w f).coh = s.coh := rfl
@[simp] theorem State.modWin_sec (p w : Nat) (f : Win → Win) : (s.modWin p w f).sec = s.sec := rfl
@[simp] theorem State.modWin_net (p w : Nat) (f : Win → Win) : (s.modWin p w f).net = s.net := rfl
@[simp] theorem State.modWin_pwr (p w : Nat) (f : Win → Win) : (s.modWin p w f).pwr = s.pwr := rfl
@[simp] theorem State.modWin_log (p w : Nat) (f : Win → Win) : (s.modWin p w f).log = s.log := rfl
@[simp] theorem State.modWin_obs (p w : Nat) (f : Win → Win) : (s.modWin p w f).obs = s.obs := rfl
@[simp] theorem State.modWin_board (p w : Nat) (f : Win → Win) : (s.modWin p w f).board = s.board := rfl
@[simp] theorem State.modWin_free (p w : Nat) (f : Win → Win) : (s.modWin p w f).free = s.free := rfl
@[simp] theorem State.modWin_out (p w : Nat) (f : Win → Win) : (s.modWin p w f).out = s.out := rfl

@[simp] theorem State.modDirty_pending (p : Nat) (f : DirtyLog → DirtyLog) : (s.modDirty p f).pending = s.pending := rfl
@[simp] theorem State.modDirty_chip (p : Nat) (f : DirtyLog → DirtyLog) : (s.modDirty p f).chip = s.chip := rfl
@[simp] theorem State.modDirty_beat (p : Nat) (f : DirtyLog → DirtyLog) : (s.modDirty p f).beat = s.beat := rfl
@[simp] theorem State.modDirty_box (p : Nat) (f : DirtyLog → DirtyLog) : (s.modDirty p f).box = s.box := rfl
@[simp] theorem State.modDirty_org (p : Nat) (f : DirtyLog → DirtyLog) : (s.modDirty p f).org = s.org := rfl
@[simp] theorem State.modDirty_ten (p : Nat) (f : DirtyLog → DirtyLog) : (s.modDirty p f).ten = s.ten := rfl
@[simp] theorem State.modDirty_fen (p : Nat) (f : DirtyLog → DirtyLog) : (s.modDirty p f).fen = s.fen := rfl
@[simp] theorem State.modDirty_eng (p : Nat) (f : DirtyLog → DirtyLog) : (s.modDirty p f).eng = s.eng := rfl
@[simp] theorem State.modDirty_reg (p : Nat) (f : DirtyLog → DirtyLog) : (s.modDirty p f).reg = s.reg := rfl
@[simp] theorem State.modDirty_xl (p : Nat) (f : DirtyLog → DirtyLog) : (s.modDirty p f).xl = s.xl := rfl
@[simp] theorem State.modDirty_mem (p : Nat) (f : DirtyLog → DirtyLog) : (s.modDirty p f).mem = s.mem := rfl
@[simp] theorem State.modDirty_coh (p : Nat) (f : DirtyLog → DirtyLog) : (s.modDirty p f).coh = s.coh := rfl
@[simp] theorem State.modDirty_sec (p : Nat) (f : DirtyLog → DirtyLog) : (s.modDirty p f).sec = s.sec := rfl
@[simp] theorem State.modDirty_net (p : Nat) (f : DirtyLog → DirtyLog) : (s.modDirty p f).net = s.net := rfl
@[simp] theorem State.modDirty_pwr (p : Nat) (f : DirtyLog → DirtyLog) : (s.modDirty p f).pwr = s.pwr := rfl
@[simp] theorem State.modDirty_log (p : Nat) (f : DirtyLog → DirtyLog) : (s.modDirty p f).log = s.log := rfl
@[simp] theorem State.modDirty_obs (p : Nat) (f : DirtyLog → DirtyLog) : (s.modDirty p f).obs = s.obs := rfl
@[simp] theorem State.modDirty_board (p : Nat) (f : DirtyLog → DirtyLog) : (s.modDirty p f).board = s.board := rfl
@[simp] theorem State.modDirty_free (p : Nat) (f : DirtyLog → DirtyLog) : (s.modDirty p f).free = s.free := rfl
@[simp] theorem State.modDirty_out (p : Nat) (f : DirtyLog → DirtyLog) : (s.modDirty p f).out = s.out := rfl

@[simp] theorem State.modProbe_pending (p i : Nat) (f : Probe → Probe) : (s.modProbe p i f).pending = s.pending := rfl
@[simp] theorem State.modProbe_chip (p i : Nat) (f : Probe → Probe) : (s.modProbe p i f).chip = s.chip := rfl
@[simp] theorem State.modProbe_beat (p i : Nat) (f : Probe → Probe) : (s.modProbe p i f).beat = s.beat := rfl
@[simp] theorem State.modProbe_box (p i : Nat) (f : Probe → Probe) : (s.modProbe p i f).box = s.box := rfl
@[simp] theorem State.modProbe_org (p i : Nat) (f : Probe → Probe) : (s.modProbe p i f).org = s.org := rfl
@[simp] theorem State.modProbe_ten (p i : Nat) (f : Probe → Probe) : (s.modProbe p i f).ten = s.ten := rfl
@[simp] theorem State.modProbe_fen (p i : Nat) (f : Probe → Probe) : (s.modProbe p i f).fen = s.fen := rfl
@[simp] theorem State.modProbe_eng (p i : Nat) (f : Probe → Probe) : (s.modProbe p i f).eng = s.eng := rfl
@[simp] theorem State.modProbe_reg (p i : Nat) (f : Probe → Probe) : (s.modProbe p i f).reg = s.reg := rfl
@[simp] theorem State.modProbe_xl (p i : Nat) (f : Probe → Probe) : (s.modProbe p i f).xl = s.xl := rfl
@[simp] theorem State.modProbe_mem (p i : Nat) (f : Probe → Probe) : (s.modProbe p i f).mem = s.mem := rfl
@[simp] theorem State.modProbe_coh (p i : Nat) (f : Probe → Probe) : (s.modProbe p i f).coh = s.coh := rfl
@[simp] theorem State.modProbe_sec (p i : Nat) (f : Probe → Probe) : (s.modProbe p i f).sec = s.sec := rfl
@[simp] theorem State.modProbe_net (p i : Nat) (f : Probe → Probe) : (s.modProbe p i f).net = s.net := rfl
@[simp] theorem State.modProbe_pwr (p i : Nat) (f : Probe → Probe) : (s.modProbe p i f).pwr = s.pwr := rfl
@[simp] theorem State.modProbe_log (p i : Nat) (f : Probe → Probe) : (s.modProbe p i f).log = s.log := rfl
@[simp] theorem State.modProbe_obs (p i : Nat) (f : Probe → Probe) : (s.modProbe p i f).obs = s.obs := rfl
@[simp] theorem State.modProbe_board (p i : Nat) (f : Probe → Probe) : (s.modProbe p i f).board = s.board := rfl
@[simp] theorem State.modProbe_free (p i : Nat) (f : Probe → Probe) : (s.modProbe p i f).free = s.free := rfl
@[simp] theorem State.modProbe_out (p i : Nat) (f : Probe → Probe) : (s.modProbe p i f).out = s.out := rfl

@[simp] theorem State.modTrace_pending (f : Trace → Trace) : (s.modTrace f).pending = s.pending := rfl
@[simp] theorem State.modTrace_chip (f : Trace → Trace) : (s.modTrace f).chip = s.chip := rfl
@[simp] theorem State.modTrace_beat (f : Trace → Trace) : (s.modTrace f).beat = s.beat := rfl
@[simp] theorem State.modTrace_box (f : Trace → Trace) : (s.modTrace f).box = s.box := rfl
@[simp] theorem State.modTrace_org (f : Trace → Trace) : (s.modTrace f).org = s.org := rfl
@[simp] theorem State.modTrace_ten (f : Trace → Trace) : (s.modTrace f).ten = s.ten := rfl
@[simp] theorem State.modTrace_fen (f : Trace → Trace) : (s.modTrace f).fen = s.fen := rfl
@[simp] theorem State.modTrace_eng (f : Trace → Trace) : (s.modTrace f).eng = s.eng := rfl
@[simp] theorem State.modTrace_reg (f : Trace → Trace) : (s.modTrace f).reg = s.reg := rfl
@[simp] theorem State.modTrace_xl (f : Trace → Trace) : (s.modTrace f).xl = s.xl := rfl
@[simp] theorem State.modTrace_mem (f : Trace → Trace) : (s.modTrace f).mem = s.mem := rfl
@[simp] theorem State.modTrace_coh (f : Trace → Trace) : (s.modTrace f).coh = s.coh := rfl
@[simp] theorem State.modTrace_sec (f : Trace → Trace) : (s.modTrace f).sec = s.sec := rfl
@[simp] theorem State.modTrace_net (f : Trace → Trace) : (s.modTrace f).net = s.net := rfl
@[simp] theorem State.modTrace_pwr (f : Trace → Trace) : (s.modTrace f).pwr = s.pwr := rfl
@[simp] theorem State.modTrace_log (f : Trace → Trace) : (s.modTrace f).log = s.log := rfl
@[simp] theorem State.modTrace_obs (f : Trace → Trace) : (s.modTrace f).obs = s.obs := rfl
@[simp] theorem State.modTrace_board (f : Trace → Trace) : (s.modTrace f).board = s.board := rfl
@[simp] theorem State.modTrace_free (f : Trace → Trace) : (s.modTrace f).free = s.free := rfl
@[simp] theorem State.modTrace_out (f : Trace → Trace) : (s.modTrace f).out = s.out := rfl

@[simp] theorem State.modMb_pending (m : Mailbox) (f : Mbx → Mbx) : (s.modMb m f).pending = s.pending := rfl
@[simp] theorem State.modMb_chip (m : Mailbox) (f : Mbx → Mbx) : (s.modMb m f).chip = s.chip := rfl
@[simp] theorem State.modMb_beat (m : Mailbox) (f : Mbx → Mbx) : (s.modMb m f).beat = s.beat := rfl
@[simp] theorem State.modMb_org (m : Mailbox) (f : Mbx → Mbx) : (s.modMb m f).org = s.org := rfl
@[simp] theorem State.modMb_ten (m : Mailbox) (f : Mbx → Mbx) : (s.modMb m f).ten = s.ten := rfl
@[simp] theorem State.modMb_fen (m : Mailbox) (f : Mbx → Mbx) : (s.modMb m f).fen = s.fen := rfl
@[simp] theorem State.modMb_eng (m : Mailbox) (f : Mbx → Mbx) : (s.modMb m f).eng = s.eng := rfl
@[simp] theorem State.modMb_reg (m : Mailbox) (f : Mbx → Mbx) : (s.modMb m f).reg = s.reg := rfl
@[simp] theorem State.modMb_xl (m : Mailbox) (f : Mbx → Mbx) : (s.modMb m f).xl = s.xl := rfl
@[simp] theorem State.modMb_mem (m : Mailbox) (f : Mbx → Mbx) : (s.modMb m f).mem = s.mem := rfl
@[simp] theorem State.modMb_coh (m : Mailbox) (f : Mbx → Mbx) : (s.modMb m f).coh = s.coh := rfl
@[simp] theorem State.modMb_sec (m : Mailbox) (f : Mbx → Mbx) : (s.modMb m f).sec = s.sec := rfl
@[simp] theorem State.modMb_net (m : Mailbox) (f : Mbx → Mbx) : (s.modMb m f).net = s.net := rfl
@[simp] theorem State.modMb_pwr (m : Mailbox) (f : Mbx → Mbx) : (s.modMb m f).pwr = s.pwr := rfl
@[simp] theorem State.modMb_watch (m : Mailbox) (f : Mbx → Mbx) : (s.modMb m f).watch = s.watch := rfl
@[simp] theorem State.modMb_log (m : Mailbox) (f : Mbx → Mbx) : (s.modMb m f).log = s.log := rfl
@[simp] theorem State.modMb_obs (m : Mailbox) (f : Mbx → Mbx) : (s.modMb m f).obs = s.obs := rfl
@[simp] theorem State.modMb_board (m : Mailbox) (f : Mbx → Mbx) : (s.modMb m f).board = s.board := rfl
@[simp] theorem State.modMb_free (m : Mailbox) (f : Mbx → Mbx) : (s.modMb m f).free = s.free := rfl
@[simp] theorem State.modMb_out (m : Mailbox) (f : Mbx → Mbx) : (s.modMb m f).out = s.out := rfl

@[simp] theorem State.takeSlot_pending (r : SlotRef) : (s.takeSlot r).pending = s.pending := rfl
@[simp] theorem State.takeSlot_chip (r : SlotRef) : (s.takeSlot r).chip = s.chip := rfl
@[simp] theorem State.takeSlot_beat (r : SlotRef) : (s.takeSlot r).beat = s.beat := rfl
@[simp] theorem State.takeSlot_org (r : SlotRef) : (s.takeSlot r).org = s.org := rfl
@[simp] theorem State.takeSlot_ten (r : SlotRef) : (s.takeSlot r).ten = s.ten := rfl
@[simp] theorem State.takeSlot_fen (r : SlotRef) : (s.takeSlot r).fen = s.fen := rfl
@[simp] theorem State.takeSlot_eng (r : SlotRef) : (s.takeSlot r).eng = s.eng := rfl
@[simp] theorem State.takeSlot_reg (r : SlotRef) : (s.takeSlot r).reg = s.reg := rfl
@[simp] theorem State.takeSlot_xl (r : SlotRef) : (s.takeSlot r).xl = s.xl := rfl
@[simp] theorem State.takeSlot_mem (r : SlotRef) : (s.takeSlot r).mem = s.mem := rfl
@[simp] theorem State.takeSlot_coh (r : SlotRef) : (s.takeSlot r).coh = s.coh := rfl
@[simp] theorem State.takeSlot_sec (r : SlotRef) : (s.takeSlot r).sec = s.sec := rfl
@[simp] theorem State.takeSlot_net (r : SlotRef) : (s.takeSlot r).net = s.net := rfl
@[simp] theorem State.takeSlot_pwr (r : SlotRef) : (s.takeSlot r).pwr = s.pwr := rfl
@[simp] theorem State.takeSlot_watch (r : SlotRef) : (s.takeSlot r).watch = s.watch := rfl
@[simp] theorem State.takeSlot_log (r : SlotRef) : (s.takeSlot r).log = s.log := rfl
@[simp] theorem State.takeSlot_obs (r : SlotRef) : (s.takeSlot r).obs = s.obs := rfl
@[simp] theorem State.takeSlot_board (r : SlotRef) : (s.takeSlot r).board = s.board := rfl
@[simp] theorem State.takeSlot_free (r : SlotRef) : (s.takeSlot r).free = s.free := rfl
@[simp] theorem State.takeSlot_out (r : SlotRef) : (s.takeSlot r).out = s.out := rfl

@[simp] theorem State.modBeat_pending (f : Beat → Beat) : (s.modBeat f).pending = s.pending := rfl
@[simp] theorem State.modBeat_chip (f : Beat → Beat) : (s.modBeat f).chip = s.chip := rfl
@[simp] theorem State.modBeat_box (f : Beat → Beat) : (s.modBeat f).box = s.box := rfl
@[simp] theorem State.modBeat_org (f : Beat → Beat) : (s.modBeat f).org = s.org := rfl
@[simp] theorem State.modBeat_ten (f : Beat → Beat) : (s.modBeat f).ten = s.ten := rfl
@[simp] theorem State.modBeat_fen (f : Beat → Beat) : (s.modBeat f).fen = s.fen := rfl
@[simp] theorem State.modBeat_eng (f : Beat → Beat) : (s.modBeat f).eng = s.eng := rfl
@[simp] theorem State.modBeat_reg (f : Beat → Beat) : (s.modBeat f).reg = s.reg := rfl
@[simp] theorem State.modBeat_xl (f : Beat → Beat) : (s.modBeat f).xl = s.xl := rfl
@[simp] theorem State.modBeat_mem (f : Beat → Beat) : (s.modBeat f).mem = s.mem := rfl
@[simp] theorem State.modBeat_coh (f : Beat → Beat) : (s.modBeat f).coh = s.coh := rfl
@[simp] theorem State.modBeat_sec (f : Beat → Beat) : (s.modBeat f).sec = s.sec := rfl
@[simp] theorem State.modBeat_net (f : Beat → Beat) : (s.modBeat f).net = s.net := rfl
@[simp] theorem State.modBeat_pwr (f : Beat → Beat) : (s.modBeat f).pwr = s.pwr := rfl
@[simp] theorem State.modBeat_watch (f : Beat → Beat) : (s.modBeat f).watch = s.watch := rfl
@[simp] theorem State.modBeat_log (f : Beat → Beat) : (s.modBeat f).log = s.log := rfl
@[simp] theorem State.modBeat_obs (f : Beat → Beat) : (s.modBeat f).obs = s.obs := rfl
@[simp] theorem State.modBeat_board (f : Beat → Beat) : (s.modBeat f).board = s.board := rfl
@[simp] theorem State.modBeat_free (f : Beat → Beat) : (s.modBeat f).free = s.free := rfl
@[simp] theorem State.modBeat_out (f : Beat → Beat) : (s.modBeat f).out = s.out := rfl

@[simp] theorem State.modPort_pending (n : Nat) (f : Port → Port) : (s.modPort n f).pending = s.pending := rfl
@[simp] theorem State.modPort_chip (n : Nat) (f : Port → Port) : (s.modPort n f).chip = s.chip := rfl
@[simp] theorem State.modPort_beat (n : Nat) (f : Port → Port) : (s.modPort n f).beat = s.beat := rfl
@[simp] theorem State.modPort_box (n : Nat) (f : Port → Port) : (s.modPort n f).box = s.box := rfl
@[simp] theorem State.modPort_org (n : Nat) (f : Port → Port) : (s.modPort n f).org = s.org := rfl
@[simp] theorem State.modPort_ten (n : Nat) (f : Port → Port) : (s.modPort n f).ten = s.ten := rfl
@[simp] theorem State.modPort_fen (n : Nat) (f : Port → Port) : (s.modPort n f).fen = s.fen := rfl
@[simp] theorem State.modPort_eng (n : Nat) (f : Port → Port) : (s.modPort n f).eng = s.eng := rfl
@[simp] theorem State.modPort_reg (n : Nat) (f : Port → Port) : (s.modPort n f).reg = s.reg := rfl
@[simp] theorem State.modPort_xl (n : Nat) (f : Port → Port) : (s.modPort n f).xl = s.xl := rfl
@[simp] theorem State.modPort_mem (n : Nat) (f : Port → Port) : (s.modPort n f).mem = s.mem := rfl
@[simp] theorem State.modPort_coh (n : Nat) (f : Port → Port) : (s.modPort n f).coh = s.coh := rfl
@[simp] theorem State.modPort_sec (n : Nat) (f : Port → Port) : (s.modPort n f).sec = s.sec := rfl
@[simp] theorem State.modPort_pwr (n : Nat) (f : Port → Port) : (s.modPort n f).pwr = s.pwr := rfl
@[simp] theorem State.modPort_watch (n : Nat) (f : Port → Port) : (s.modPort n f).watch = s.watch := rfl
@[simp] theorem State.modPort_log (n : Nat) (f : Port → Port) : (s.modPort n f).log = s.log := rfl
@[simp] theorem State.modPort_obs (n : Nat) (f : Port → Port) : (s.modPort n f).obs = s.obs := rfl
@[simp] theorem State.modPort_board (n : Nat) (f : Port → Port) : (s.modPort n f).board = s.board := rfl
@[simp] theorem State.modPort_free (n : Nat) (f : Port → Port) : (s.modPort n f).free = s.free := rfl
@[simp] theorem State.modPort_out (n : Nat) (f : Port → Port) : (s.modPort n f).out = s.out := rfl

@[simp] theorem State.modBoard_pending (f : Board → Board) : (s.modBoard f).pending = s.pending := rfl
@[simp] theorem State.modBoard_chip (f : Board → Board) : (s.modBoard f).chip = s.chip := rfl
@[simp] theorem State.modBoard_beat (f : Board → Board) : (s.modBoard f).beat = s.beat := rfl
@[simp] theorem State.modBoard_box (f : Board → Board) : (s.modBoard f).box = s.box := rfl
@[simp] theorem State.modBoard_org (f : Board → Board) : (s.modBoard f).org = s.org := rfl
@[simp] theorem State.modBoard_ten (f : Board → Board) : (s.modBoard f).ten = s.ten := rfl
@[simp] theorem State.modBoard_fen (f : Board → Board) : (s.modBoard f).fen = s.fen := rfl
@[simp] theorem State.modBoard_eng (f : Board → Board) : (s.modBoard f).eng = s.eng := rfl
@[simp] theorem State.modBoard_reg (f : Board → Board) : (s.modBoard f).reg = s.reg := rfl
@[simp] theorem State.modBoard_xl (f : Board → Board) : (s.modBoard f).xl = s.xl := rfl
@[simp] theorem State.modBoard_mem (f : Board → Board) : (s.modBoard f).mem = s.mem := rfl
@[simp] theorem State.modBoard_coh (f : Board → Board) : (s.modBoard f).coh = s.coh := rfl
@[simp] theorem State.modBoard_sec (f : Board → Board) : (s.modBoard f).sec = s.sec := rfl
@[simp] theorem State.modBoard_net (f : Board → Board) : (s.modBoard f).net = s.net := rfl
@[simp] theorem State.modBoard_pwr (f : Board → Board) : (s.modBoard f).pwr = s.pwr := rfl
@[simp] theorem State.modBoard_watch (f : Board → Board) : (s.modBoard f).watch = s.watch := rfl
@[simp] theorem State.modBoard_log (f : Board → Board) : (s.modBoard f).log = s.log := rfl
@[simp] theorem State.modBoard_obs (f : Board → Board) : (s.modBoard f).obs = s.obs := rfl
@[simp] theorem State.modBoard_free (f : Board → Board) : (s.modBoard f).free = s.free := rfl
@[simp] theorem State.modBoard_out (f : Board → Board) : (s.modBoard f).out = s.out := rfl

@[simp] theorem State.putCopies_pending (l : Nat) (c : List Copy) : (s.putCopies l c).pending = s.pending := rfl
@[simp] theorem State.putCopies_chip (l : Nat) (c : List Copy) : (s.putCopies l c).chip = s.chip := rfl
@[simp] theorem State.putCopies_beat (l : Nat) (c : List Copy) : (s.putCopies l c).beat = s.beat := rfl
@[simp] theorem State.putCopies_box (l : Nat) (c : List Copy) : (s.putCopies l c).box = s.box := rfl
@[simp] theorem State.putCopies_org (l : Nat) (c : List Copy) : (s.putCopies l c).org = s.org := rfl
@[simp] theorem State.putCopies_ten (l : Nat) (c : List Copy) : (s.putCopies l c).ten = s.ten := rfl
@[simp] theorem State.putCopies_fen (l : Nat) (c : List Copy) : (s.putCopies l c).fen = s.fen := rfl
@[simp] theorem State.putCopies_eng (l : Nat) (c : List Copy) : (s.putCopies l c).eng = s.eng := rfl
@[simp] theorem State.putCopies_reg (l : Nat) (c : List Copy) : (s.putCopies l c).reg = s.reg := rfl
@[simp] theorem State.putCopies_xl (l : Nat) (c : List Copy) : (s.putCopies l c).xl = s.xl := rfl
@[simp] theorem State.putCopies_mem (l : Nat) (c : List Copy) : (s.putCopies l c).mem = s.mem := rfl
@[simp] theorem State.putCopies_sec (l : Nat) (c : List Copy) : (s.putCopies l c).sec = s.sec := rfl
@[simp] theorem State.putCopies_net (l : Nat) (c : List Copy) : (s.putCopies l c).net = s.net := rfl
@[simp] theorem State.putCopies_pwr (l : Nat) (c : List Copy) : (s.putCopies l c).pwr = s.pwr := rfl
@[simp] theorem State.putCopies_watch (l : Nat) (c : List Copy) : (s.putCopies l c).watch = s.watch := rfl
@[simp] theorem State.putCopies_log (l : Nat) (c : List Copy) : (s.putCopies l c).log = s.log := rfl
@[simp] theorem State.putCopies_obs (l : Nat) (c : List Copy) : (s.putCopies l c).obs = s.obs := rfl
@[simp] theorem State.putCopies_board (l : Nat) (c : List Copy) : (s.putCopies l c).board = s.board := rfl
@[simp] theorem State.putCopies_free (l : Nat) (c : List Copy) : (s.putCopies l c).free = s.free := rfl
@[simp] theorem State.putCopies_out (l : Nat) (c : List Copy) : (s.putCopies l c).out = s.out := rfl

@[simp] theorem State.hostWrite_pending (a : Nat) (q : Option Nat) (b d : Nat) : (s.hostWrite a q b d).pending = s.pending := rfl
@[simp] theorem State.hostWrite_chip (a : Nat) (q : Option Nat) (b d : Nat) : (s.hostWrite a q b d).chip = s.chip := rfl
@[simp] theorem State.hostWrite_beat (a : Nat) (q : Option Nat) (b d : Nat) : (s.hostWrite a q b d).beat = s.beat := rfl
@[simp] theorem State.hostWrite_box (a : Nat) (q : Option Nat) (b d : Nat) : (s.hostWrite a q b d).box = s.box := rfl
@[simp] theorem State.hostWrite_org (a : Nat) (q : Option Nat) (b d : Nat) : (s.hostWrite a q b d).org = s.org := rfl
@[simp] theorem State.hostWrite_ten (a : Nat) (q : Option Nat) (b d : Nat) : (s.hostWrite a q b d).ten = s.ten := rfl
@[simp] theorem State.hostWrite_fen (a : Nat) (q : Option Nat) (b d : Nat) : (s.hostWrite a q b d).fen = s.fen := rfl
@[simp] theorem State.hostWrite_eng (a : Nat) (q : Option Nat) (b d : Nat) : (s.hostWrite a q b d).eng = s.eng := rfl
@[simp] theorem State.hostWrite_reg (a : Nat) (q : Option Nat) (b d : Nat) : (s.hostWrite a q b d).reg = s.reg := rfl
@[simp] theorem State.hostWrite_xl (a : Nat) (q : Option Nat) (b d : Nat) : (s.hostWrite a q b d).xl = s.xl := rfl
@[simp] theorem State.hostWrite_mem (a : Nat) (q : Option Nat) (b d : Nat) : (s.hostWrite a q b d).mem = s.mem := rfl
@[simp] theorem State.hostWrite_coh (a : Nat) (q : Option Nat) (b d : Nat) : (s.hostWrite a q b d).coh = s.coh := rfl
@[simp] theorem State.hostWrite_sec (a : Nat) (q : Option Nat) (b d : Nat) : (s.hostWrite a q b d).sec = s.sec := rfl
@[simp] theorem State.hostWrite_net (a : Nat) (q : Option Nat) (b d : Nat) : (s.hostWrite a q b d).net = s.net := rfl
@[simp] theorem State.hostWrite_pwr (a : Nat) (q : Option Nat) (b d : Nat) : (s.hostWrite a q b d).pwr = s.pwr := rfl
@[simp] theorem State.hostWrite_watch (a : Nat) (q : Option Nat) (b d : Nat) : (s.hostWrite a q b d).watch = s.watch := rfl
@[simp] theorem State.hostWrite_log (a : Nat) (q : Option Nat) (b d : Nat) : (s.hostWrite a q b d).log = s.log := rfl
@[simp] theorem State.hostWrite_obs (a : Nat) (q : Option Nat) (b d : Nat) : (s.hostWrite a q b d).obs = s.obs := rfl
@[simp] theorem State.hostWrite_board (a : Nat) (q : Option Nat) (b d : Nat) : (s.hostWrite a q b d).board = s.board := rfl
@[simp] theorem State.hostWrite_free (a : Nat) (q : Option Nat) (b d : Nat) : (s.hostWrite a q b d).free = s.free := rfl

@[simp] theorem State.linkSend_pending (m : LinkMsg) : (s.linkSend m).pending = s.pending := rfl
@[simp] theorem State.linkSend_chip (m : LinkMsg) : (s.linkSend m).chip = s.chip := rfl
@[simp] theorem State.linkSend_beat (m : LinkMsg) : (s.linkSend m).beat = s.beat := rfl
@[simp] theorem State.linkSend_box (m : LinkMsg) : (s.linkSend m).box = s.box := rfl
@[simp] theorem State.linkSend_org (m : LinkMsg) : (s.linkSend m).org = s.org := rfl
@[simp] theorem State.linkSend_ten (m : LinkMsg) : (s.linkSend m).ten = s.ten := rfl
@[simp] theorem State.linkSend_fen (m : LinkMsg) : (s.linkSend m).fen = s.fen := rfl
@[simp] theorem State.linkSend_eng (m : LinkMsg) : (s.linkSend m).eng = s.eng := rfl
@[simp] theorem State.linkSend_reg (m : LinkMsg) : (s.linkSend m).reg = s.reg := rfl
@[simp] theorem State.linkSend_xl (m : LinkMsg) : (s.linkSend m).xl = s.xl := rfl
@[simp] theorem State.linkSend_mem (m : LinkMsg) : (s.linkSend m).mem = s.mem := rfl
@[simp] theorem State.linkSend_coh (m : LinkMsg) : (s.linkSend m).coh = s.coh := rfl
@[simp] theorem State.linkSend_sec (m : LinkMsg) : (s.linkSend m).sec = s.sec := rfl
@[simp] theorem State.linkSend_net (m : LinkMsg) : (s.linkSend m).net = s.net := rfl
@[simp] theorem State.linkSend_pwr (m : LinkMsg) : (s.linkSend m).pwr = s.pwr := rfl
@[simp] theorem State.linkSend_watch (m : LinkMsg) : (s.linkSend m).watch = s.watch := rfl
@[simp] theorem State.linkSend_log (m : LinkMsg) : (s.linkSend m).log = s.log := rfl
@[simp] theorem State.linkSend_board (m : LinkMsg) : (s.linkSend m).board = s.board := rfl
@[simp] theorem State.linkSend_free (m : LinkMsg) : (s.linkSend m).free = s.free := rfl

@[simp] theorem State.logRec_pending (r : RecBody) : (s.logRec r).pending = s.pending := rfl
@[simp] theorem State.logRec_chip (r : RecBody) : (s.logRec r).chip = s.chip := rfl
@[simp] theorem State.logRec_beat (r : RecBody) : (s.logRec r).beat = s.beat := rfl
@[simp] theorem State.logRec_box (r : RecBody) : (s.logRec r).box = s.box := rfl
@[simp] theorem State.logRec_org (r : RecBody) : (s.logRec r).org = s.org := rfl
@[simp] theorem State.logRec_ten (r : RecBody) : (s.logRec r).ten = s.ten := rfl
@[simp] theorem State.logRec_fen (r : RecBody) : (s.logRec r).fen = s.fen := rfl
@[simp] theorem State.logRec_eng (r : RecBody) : (s.logRec r).eng = s.eng := rfl
@[simp] theorem State.logRec_reg (r : RecBody) : (s.logRec r).reg = s.reg := rfl
@[simp] theorem State.logRec_xl (r : RecBody) : (s.logRec r).xl = s.xl := rfl
@[simp] theorem State.logRec_mem (r : RecBody) : (s.logRec r).mem = s.mem := rfl
@[simp] theorem State.logRec_coh (r : RecBody) : (s.logRec r).coh = s.coh := rfl
@[simp] theorem State.logRec_sec (r : RecBody) : (s.logRec r).sec = s.sec := rfl
@[simp] theorem State.logRec_net (r : RecBody) : (s.logRec r).net = s.net := rfl
@[simp] theorem State.logRec_pwr (r : RecBody) : (s.logRec r).pwr = s.pwr := rfl
@[simp] theorem State.logRec_watch (r : RecBody) : (s.logRec r).watch = s.watch := rfl
@[simp] theorem State.logRec_obs (r : RecBody) : (s.logRec r).obs = s.obs := rfl
@[simp] theorem State.logRec_board (r : RecBody) : (s.logRec r).board = s.board := rfl
@[simp] theorem State.logRec_free (r : RecBody) : (s.logRec r).free = s.free := rfl
@[simp] theorem State.logRec_out (r : RecBody) : (s.logRec r).out = s.out := rfl

@[simp] theorem State.countMsg_pending (p k : Nat) (tx : Bool) : (s.countMsg p k tx).pending = s.pending := rfl
@[simp] theorem State.countMsg_chip (p k : Nat) (tx : Bool) : (s.countMsg p k tx).chip = s.chip := rfl
@[simp] theorem State.countMsg_beat (p k : Nat) (tx : Bool) : (s.countMsg p k tx).beat = s.beat := rfl
@[simp] theorem State.countMsg_box (p k : Nat) (tx : Bool) : (s.countMsg p k tx).box = s.box := rfl
@[simp] theorem State.countMsg_org (p k : Nat) (tx : Bool) : (s.countMsg p k tx).org = s.org := rfl
@[simp] theorem State.countMsg_ten (p k : Nat) (tx : Bool) : (s.countMsg p k tx).ten = s.ten := rfl
@[simp] theorem State.countMsg_fen (p k : Nat) (tx : Bool) : (s.countMsg p k tx).fen = s.fen := rfl
@[simp] theorem State.countMsg_eng (p k : Nat) (tx : Bool) : (s.countMsg p k tx).eng = s.eng := rfl
@[simp] theorem State.countMsg_reg (p k : Nat) (tx : Bool) : (s.countMsg p k tx).reg = s.reg := rfl
@[simp] theorem State.countMsg_xl (p k : Nat) (tx : Bool) : (s.countMsg p k tx).xl = s.xl := rfl
@[simp] theorem State.countMsg_mem (p k : Nat) (tx : Bool) : (s.countMsg p k tx).mem = s.mem := rfl
@[simp] theorem State.countMsg_coh (p k : Nat) (tx : Bool) : (s.countMsg p k tx).coh = s.coh := rfl
@[simp] theorem State.countMsg_sec (p k : Nat) (tx : Bool) : (s.countMsg p k tx).sec = s.sec := rfl
@[simp] theorem State.countMsg_net (p k : Nat) (tx : Bool) : (s.countMsg p k tx).net = s.net := rfl
@[simp] theorem State.countMsg_pwr (p k : Nat) (tx : Bool) : (s.countMsg p k tx).pwr = s.pwr := rfl
@[simp] theorem State.countMsg_watch (p k : Nat) (tx : Bool) : (s.countMsg p k tx).watch = s.watch := rfl
@[simp] theorem State.countMsg_log (p k : Nat) (tx : Bool) : (s.countMsg p k tx).log = s.log := rfl
@[simp] theorem State.countMsg_board (p k : Nat) (tx : Bool) : (s.countMsg p k tx).board = s.board := rfl
@[simp] theorem State.countMsg_free (p k : Nat) (tx : Bool) : (s.countMsg p k tx).free = s.free := rfl
@[simp] theorem State.countMsg_out (p k : Nat) (tx : Bool) : (s.countMsg p k tx).out = s.out := rfl

@[simp] theorem State.markSlot_pending (e : Nat) (v : Option (Nat × Nat)) : (s.markSlot e v).pending = s.pending := rfl
@[simp] theorem State.markSlot_chip (e : Nat) (v : Option (Nat × Nat)) : (s.markSlot e v).chip = s.chip := rfl
@[simp] theorem State.markSlot_beat (e : Nat) (v : Option (Nat × Nat)) : (s.markSlot e v).beat = s.beat := rfl
@[simp] theorem State.markSlot_box (e : Nat) (v : Option (Nat × Nat)) : (s.markSlot e v).box = s.box := rfl
@[simp] theorem State.markSlot_org (e : Nat) (v : Option (Nat × Nat)) : (s.markSlot e v).org = s.org := rfl
@[simp] theorem State.markSlot_ten (e : Nat) (v : Option (Nat × Nat)) : (s.markSlot e v).ten = s.ten := rfl
@[simp] theorem State.markSlot_fen (e : Nat) (v : Option (Nat × Nat)) : (s.markSlot e v).fen = s.fen := rfl
@[simp] theorem State.markSlot_eng (e : Nat) (v : Option (Nat × Nat)) : (s.markSlot e v).eng = s.eng := rfl
@[simp] theorem State.markSlot_reg (e : Nat) (v : Option (Nat × Nat)) : (s.markSlot e v).reg = s.reg := rfl
@[simp] theorem State.markSlot_xl (e : Nat) (v : Option (Nat × Nat)) : (s.markSlot e v).xl = s.xl := rfl
@[simp] theorem State.markSlot_coh (e : Nat) (v : Option (Nat × Nat)) : (s.markSlot e v).coh = s.coh := rfl
@[simp] theorem State.markSlot_sec (e : Nat) (v : Option (Nat × Nat)) : (s.markSlot e v).sec = s.sec := rfl
@[simp] theorem State.markSlot_net (e : Nat) (v : Option (Nat × Nat)) : (s.markSlot e v).net = s.net := rfl
@[simp] theorem State.markSlot_pwr (e : Nat) (v : Option (Nat × Nat)) : (s.markSlot e v).pwr = s.pwr := rfl
@[simp] theorem State.markSlot_watch (e : Nat) (v : Option (Nat × Nat)) : (s.markSlot e v).watch = s.watch := rfl
@[simp] theorem State.markSlot_log (e : Nat) (v : Option (Nat × Nat)) : (s.markSlot e v).log = s.log := rfl
@[simp] theorem State.markSlot_obs (e : Nat) (v : Option (Nat × Nat)) : (s.markSlot e v).obs = s.obs := rfl
@[simp] theorem State.markSlot_board (e : Nat) (v : Option (Nat × Nat)) : (s.markSlot e v).board = s.board := rfl
@[simp] theorem State.markSlot_free (e : Nat) (v : Option (Nat × Nat)) : (s.markSlot e v).free = s.free := rfl
@[simp] theorem State.markSlot_out (e : Nat) (v : Option (Nat × Nat)) : (s.markSlot e v).out = s.out := rfl

theorem State.partAt_modPart (n k : Nat) (f : Part → Part) : (s.modPart n f).partAt k = if n = k then f (s.partAt n) else s.partAt k := Tab.get_upd ..
@[simp] theorem State.partAt_modPart_self (n : Nat) (f : Part → Part) : (s.modPart n f).partAt n = f (s.partAt n) := Tab.get_upd_self ..
theorem State.ctxAt_modCtx (n k : Nat) (f : Ctx → Ctx) : (s.modCtx n f).ctxAt k = if n = k then f (s.ctxAt n) else s.ctxAt k := Tab.get_upd ..
@[simp] theorem State.ctxAt_modCtx_self (n : Nat) (f : Ctx → Ctx) : (s.modCtx n f).ctxAt n = f (s.ctxAt n) := Tab.get_upd_self ..
theorem State.ringAt_modRing (n k : Nat) (f : Ring → Ring) : (s.modRing n f).ringAt k = if n = k then f (s.ringAt n) else s.ringAt k := Tab.get_upd ..
@[simp] theorem State.ringAt_modRing_self (n : Nat) (f : Ring → Ring) : (s.modRing n f).ringAt n = f (s.ringAt n) := Tab.get_upd_self ..
theorem State.seqAt_modSeq (n k : Nat) (f : Seq → Seq) : (s.modSeq n f).seqAt k = if n = k then f (s.seqAt n) else s.seqAt k := Tab.get_upd ..
@[simp] theorem State.seqAt_modSeq_self (n : Nat) (f : Seq → Seq) : (s.modSeq n f).seqAt n = f (s.seqAt n) := Tab.get_upd_self ..
theorem State.reserveAt_modReserve (n k : Nat) (f : Reserve → Reserve) : (s.modReserve n f).reserveAt k = if n = k then f (s.reserveAt n) else s.reserveAt k := Tab.get_upd ..
@[simp] theorem State.reserveAt_modReserve_self (n : Nat) (f : Reserve → Reserve) : (s.modReserve n f).reserveAt n = f (s.reserveAt n) := Tab.get_upd_self ..
theorem State.groupAt_modGroup (n k : Nat) (f : Group → Group) : (s.modGroup n f).groupAt k = if n = k then f (s.groupAt n) else s.groupAt k := Tab.get_upd ..
@[simp] theorem State.groupAt_modGroup_self (n : Nat) (f : Group → Group) : (s.modGroup n f).groupAt n = f (s.groupAt n) := Tab.get_upd_self ..
theorem State.engAt_modEng (n k : Nat) (f : Engine → Engine) : (s.modEng n f).engAt k = if n = k then f (s.engAt n) else s.engAt k := Tab.get_upd ..
@[simp] theorem State.engAt_modEng_self (n : Nat) (f : Engine → Engine) : (s.modEng n f).engAt n = f (s.engAt n) := Tab.get_upd_self ..
theorem State.fenceAt_modFence (n k : Nat) (f : Fence → Fence) : (s.modFence n f).fenceAt k = if n = k then f (s.fenceAt n) else s.fenceAt k := Tab.get_upd ..
@[simp] theorem State.fenceAt_modFence_self (n : Nat) (f : Fence → Fence) : (s.modFence n f).fenceAt n = f (s.fenceAt n) := Tab.get_upd_self ..
theorem State.segAt_modSeg (n k : Nat) (f : Seg → Seg) : (s.modSeg n f).segAt k = if n = k then f (s.segAt n) else s.segAt k := Tab.get_upd ..
@[simp] theorem State.segAt_modSeg_self (n : Nat) (f : Seg → Seg) : (s.modSeg n f).segAt n = f (s.segAt n) := Tab.get_upd_self ..
theorem State.migrateAt_modMigrate (n k : Nat) (f : Migrate → Migrate) : (s.modMigrate n f).migrateAt k = if n = k then f (s.migrateAt n) else s.migrateAt k := Tab.get_upd ..
@[simp] theorem State.migrateAt_modMigrate_self (n : Nat) (f : Migrate → Migrate) : (s.modMigrate n f).migrateAt n = f (s.migrateAt n) := Tab.get_upd_self ..
theorem State.rangeAt_modRange (n k : Nat) (f : Range → Range) : (s.modRange n f).rangeAt k = if n = k then f (s.rangeAt n) else s.rangeAt k := Tab.get_upd ..
@[simp] theorem State.rangeAt_modRange_self (n : Nat) (f : Range → Range) : (s.modRange n f).rangeAt n = f (s.rangeAt n) := Tab.get_upd_self ..
theorem State.powAt_modPow (n k : Nat) (f : PowPart → PowPart) : (s.modPow n f).powAt k = if n = k then f (s.powAt n) else s.powAt k := Tab.get_upd ..
@[simp] theorem State.powAt_modPow_self (n : Nat) (f : PowPart → PowPart) : (s.modPow n f).powAt n = f (s.powAt n) := Tab.get_upd_self ..
theorem State.coreAt_modCore (n k : Nat) (f : Core → Core) : (s.modCore n f).coreAt k = if n = k then f (s.coreAt n) else s.coreAt k := Tab.get_upd ..
@[simp] theorem State.coreAt_modCore_self (n : Nat) (f : Core → Core) : (s.modCore n f).coreAt n = f (s.coreAt n) := Tab.get_upd_self ..
theorem State.portAt_modPort (n k : Nat) (f : Port → Port) : (s.modPort n f).portAt k = if n = k then f (s.portAt n) else s.portAt k := Tab.get_upd ..
@[simp] theorem State.portAt_modPort_self (n : Nat) (f : Port → Port) : (s.modPort n f).portAt n = f (s.portAt n) := Tab.get_upd_self ..
theorem State.schedAt_modSched (n k : Nat) (f : SchedPol → SchedPol) : (s.modSched n f).schedAt k = if n = k then f (s.schedAt n) else s.schedAt k := Tab.get_upd ..
@[simp] theorem State.schedAt_modSched_self (n : Nat) (f : SchedPol → SchedPol) : (s.modSched n f).schedAt n = f (s.schedAt n) := Tab.get_upd_self ..

/-- A read of a line after a write of a line. -/
theorem State.lineAt_putLine (n k : Nat) (v : Line) : (s.putLine n v).lineAt k = if n = k then v else s.lineAt k := Tab.get_put ..

theorem State.mbAt_modMb (m k : Mailbox) (f : Mbx → Mbx) :
    (s.modMb m f).mbAt k = if mbNum m = mbNum k then f (s.mbAt m) else s.mbAt k := Tab.get_upd ..
@[simp] theorem State.mbAt_modMb_self (m : Mailbox) (f : Mbx → Mbx) : (s.modMb m f).mbAt m = f (s.mbAt m) := Tab.get_upd_self ..
theorem Mbx.slotAt_modSlot (b : Mbx) (n k : Nat) (f : Slot → Slot) :
    (b.modSlot n f).slotAt k = if n = k then f (b.slotAt n) else b.slotAt k := Tab.get_upd ..
@[simp] theorem Mbx.slotAt_modSlot_self (b : Mbx) (n : Nat) (f : Slot → Slot) : (b.modSlot n f).slotAt n = f (b.slotAt n) := Tab.get_upd_self ..
@[simp] theorem State.modMb_sessions (m : Mailbox) (f : Mbx → Mbx) : (s.modMb m f).box.sessions = s.box.sessions := rfl
@[simp] theorem State.modMb_tickets (m : Mailbox) (f : Mbx → Mbx) : (s.modMb m f).box.tickets = s.box.tickets := rfl
@[simp] theorem State.modMb_sets (m : Mailbox) (f : Mbx → Mbx) : (s.modMb m f).box.sets = s.box.sets := rfl
@[simp] theorem State.logRec_next (r : RecBody) : (s.logRec r).log.next = s.log.next + 1 := rfl
@[simp] theorem State.logRec_inc (r : RecBody) : (s.logRec r).log.inc = s.log.inc := rfl

end Sys2Proof.Machine
end

