-- ==== Sys2Proof/Laws/Mailbox.lean ====
section
/-! SUPPORT. What taking a slot and writing a response do: the one lemma through which the statements about mailbox commands go, and the frame
of a response. -/

namespace Sys2Proof.Machine

theorem State.live_of_alive {s : State} (h : s.alive = true) (f : State → State) : s.live f = f s := by simp [State.live, h]

theorem State.live_of_stopped {s : State} (h : s.alive = false) (f : State → State) : s.live f = s := by simp [State.live, h]

theorem State.bar_of_reaches {s : State} (h : s.reaches = true) (f : State → State) : s.bar f = f s := by
  simp only [State.reaches, Bool.and_eq_true, Bool.not_eq_true'] at h
  simp [State.bar, State.live, h.1, h.2]

/-- A command that a take finds is run on the state with its slot taken. -/
theorem State.live_hawk {s : State} {k : Take} {op : Nat} {c : Cmd} (h : s.serves k op = some c) (mine : Cmd → Bool) (hm : mine c = true)
    (run : Cmd → State → State) : s.live (hawk op mine k run) = run c (s.takeSlot c.ref) := by
  unfold State.serves at h
  split at h
  · exact absurd h (by simp)
  · next ha =>
    rw [not_or, Bool.not_eq_false, Bool.not_eq_true] at ha
    rw [State.live_of_alive ha.1]
    unfold hawk
    split at h
    · exact absurd h (by simp)
    · next ref hr =>
      dsimp only at h
      split at h
      · next hc =>
        injection h with h
        subst h
        simp only [hr, ha.2, hc.1, hc.2.2.1, hm, hc.2.2.2, hc.2.1]
        simp [cmdOf]
      · exact absurd h (by simp)

theorem State.live_hawk_any {s : State} {k : Take} {op : Nat} {c : Cmd} (h : s.serves k op = some c) (run : Cmd → State → State) :
    s.live (hawk op anyCmd k run) = run c (s.takeSlot c.ref) := State.live_hawk h anyCmd rfl run

theorem State.checked_of_passes {s : State} {c : Cmd} {l : List (Bool × Status × Nat)} (h : Passes l) (f : State → State) :
    s.checked c l f = f s := by
  simp only [Passes] at h
  simp [State.checked, h]

theorem State.checked_of_fails {s : State} {c : Cmd} {l : List (Bool × Status × Nat)} {st : Status} {d : Nat} (h : firstFail l = some (st, d))
    (f : State → State) : s.checked c l f = s.reject c st d := by simp [State.checked, h]

/-- The answer of a command whose response fits. -/
theorem State.answer_of_fits {s t : State} {c : Cmd} {l : List (Nat × Nat)} (h : Fits c l) :
    s.answer t c l = t.respond c.ref .ok 0 ((l.map Prod.fst).sum / 8) (pack l) none := by
  simp only [Fits] at h
  simp [State.answer, h]

theorem State.background_of_fits {s t : State} {c : Cmd} {n : Nat} (h : n ≤ c.space) : s.background t c n = t := by simp [State.background, h]

/-- A command that serves is at the head of its mailbox's queue. -/
theorem State.serves_ref {s : State} {k : Take} {op : Nat} {c : Cmd} (h : s.serves k op = some c) : s.headRef k.mb = some c.ref := by
  unfold State.serves at h
  split at h
  · exact absurd h (by simp)
  · split at h
    · exact absurd h (by simp)
    · next ref hr =>
      dsimp only at h
      split at h
      · injection h with h
        subst h
        exact hr
      · exact absurd h (by simp)

theorem State.headRef_mb {s : State} {m : Mailbox} {r : SlotRef} (h : s.headRef m = some r) : r.mb = m := by
  unfold State.headRef at h
  split at h
  · exact absurd h (by simp)
  · injection h with h
    subst h
    rfl

theorem State.serves_mb {s : State} {k : Take} {op : Nat} {c : Cmd} (h : s.serves k op = some c) : c.ref.mb = k.mb :=
  State.headRef_mb (State.serves_ref h)

theorem State.serves_alive {s : State} {k : Take} {op : Nat} {c : Cmd} (h : s.serves k op = some c) : s.alive = true := by
  unfold State.serves at h
  split at h
  · exact absurd h (by simp)
  · next ha => simpa using (not_or.1 ha).1

/-! ### Messages and responses -/

@[simp] theorem State.msix_pending (s : State) (v : Nat) : (s.msix v).pending = s.pending := by unfold State.msix; split <;> [(split <;> rfl); rfl]
@[simp] theorem State.msix_chip (s : State) (v : Nat) : (s.msix v).chip = s.chip := by unfold State.msix; split <;> [(split <;> rfl); rfl]
@[simp] theorem State.msix_beat (s : State) (v : Nat) : (s.msix v).beat = s.beat := by unfold State.msix; split <;> [(split <;> rfl); rfl]
@[simp] theorem State.msix_box (s : State) (v : Nat) : (s.msix v).box = s.box := by unfold State.msix; split <;> [(split <;> rfl); rfl]
@[simp] theorem State.msix_org (s : State) (v : Nat) : (s.msix v).org = s.org := by unfold State.msix; split <;> [(split <;> rfl); rfl]
@[simp] theorem State.msix_ten (s : State) (v : Nat) : (s.msix v).ten = s.ten := by unfold State.msix; split <;> [(split <;> rfl); rfl]
@[simp] theorem State.msix_fen (s : State) (v : Nat) : (s.msix v).fen = s.fen := by unfold State.msix; split <;> [(split <;> rfl); rfl]
@[simp] theorem State.msix_eng (s : State) (v : Nat) : (s.msix v).eng = s.eng := by unfold State.msix; split <;> [(split <;> rfl); rfl]
@[simp] theorem State.msix_reg (s : State) (v : Nat) : (s.msix v).reg = s.reg := by unfold State.msix; split <;> [(split <;> rfl); rfl]
@[simp] theorem State.msix_xl (s : State) (v : Nat) : (s.msix v).xl = s.xl := by unfold State.msix; split <;> [(split <;> rfl); rfl]
@[simp] theorem State.msix_mem (s : State) (v : Nat) : (s.msix v).mem = s.mem := by unfold State.msix; split <;> [(split <;> rfl); rfl]
@[simp] theorem State.msix_coh (s : State) (v : Nat) : (s.msix v).coh = s.coh := by unfold State.msix; split <;> [(split <;> rfl); rfl]
@[simp] theorem State.msix_sec (s : State) (v : Nat) : (s.msix v).sec = s.sec := by unfold State.msix; split <;> [(split <;> rfl); rfl]
@[simp] theorem State.msix_net (s : State) (v : Nat) : (s.msix v).net = s.net := by unfold State.msix; split <;> [(split <;> rfl); rfl]
@[simp] theorem State.msix_pwr (s : State) (v : Nat) : (s.msix v).pwr = s.pwr := by unfold State.msix; split <;> [(split <;> rfl); rfl]
@[simp] theorem State.msix_watch (s : State) (v : Nat) : (s.msix v).watch = s.watch := by unfold State.msix; split <;> [(split <;> rfl); rfl]
@[simp] theorem State.msix_log (s : State) (v : Nat) : (s.msix v).log = s.log := by unfold State.msix; split <;> [(split <;> rfl); rfl]
@[simp] theorem State.msix_obs (s : State) (v : Nat) : (s.msix v).obs = s.obs := by unfold State.msix; split <;> [(split <;> rfl); rfl]
@[simp] theorem State.msix_board (s : State) (v : Nat) : (s.msix v).board = s.board := by unfold State.msix; split <;> [(split <;> rfl); rfl]
@[simp] theorem State.msix_free (s : State) (v : Nat) : (s.msix v).free = s.free := by unfold State.msix; split <;> [(split <;> rfl); rfl]

@[simp] theorem State.setDone_pending (s : State) (m : Mailbox) (n : Nat) : (s.setDone m n).pending = s.pending := by
  unfold State.setDone; dsimp only; repeat' split
  all_goals simp
@[simp] theorem State.setDone_chip (s : State) (m : Mailbox) (n : Nat) : (s.setDone m n).chip = s.chip := by
  unfold State.setDone; dsimp only; repeat' split
  all_goals simp
@[simp] theorem State.setDone_beat (s : State) (m : Mailbox) (n : Nat) : (s.setDone m n).beat = s.beat := by
  unfold State.setDone; dsimp only; repeat' split
  all_goals simp
@[simp] theorem State.setDone_org (s : State) (m : Mailbox) (n : Nat) : (s.setDone m n).org = s.org := by
  unfold State.setDone; dsimp only; repeat' split
  all_goals simp
@[simp] theorem State.setDone_ten (s : State) (m : Mailbox) (n : Nat) : (s.setDone m n).ten = s.ten := by
  unfold State.setDone; dsimp only; repeat' split
  all_goals simp
@[simp] theorem State.setDone_fen (s : State) (m : Mailbox) (n : Nat) : (s.setDone m n).fen = s.fen := by
  unfold State.setDone; dsimp only; repeat' split
  all_goals simp
@[simp] theorem State.setDone_eng (s : State) (m : Mailbox) (n : Nat) : (s.setDone m n).eng = s.eng := by
  unfold State.setDone; dsimp only; repeat' split
  all_goals simp
@[simp] theorem State.setDone_reg (s : State) (m : Mailbox) (n : Nat) : (s.setDone m n).reg = s.reg := by
  unfold State.setDone; dsimp only; repeat' split
  all_goals simp
@[simp] theorem State.setDone_xl (s : State) (m : Mailbox) (n : Nat) : (s.setDone m n).xl = s.xl := by
  unfold State.setDone; dsimp only; repeat' split
  all_goals simp
@[simp] theorem State.setDone_mem (s : State) (m : Mailbox) (n : Nat) : (s.setDone m n).mem = s.mem := by
  unfold State.setDone; dsimp only; repeat' split
  all_goals simp
@[simp] theorem State.setDone_coh (s : State) (m : Mailbox) (n : Nat) : (s.setDone m n).coh = s.coh := by
  unfold State.setDone; dsimp only; repeat' split
  all_goals simp
@[simp] theorem State.setDone_sec (s : State) (m : Mailbox) (n : Nat) : (s.setDone m n).sec = s.sec := by
  unfold State.setDone; dsimp only; repeat' split
  all_goals simp
@[simp] theorem State.setDone_net (s : State) (m : Mailbox) (n : Nat) : (s.setDone m n).net = s.net := by
  unfold State.setDone; dsimp only; repeat' split
  all_goals simp
@[simp] theorem State.setDone_pwr (s : State) (m : Mailbox) (n : Nat) : (s.setDone m n).pwr = s.pwr := by
  unfold State.setDone; dsimp only; repeat' split
  all_goals simp
@[simp] theorem State.setDone_watch (s : State) (m : Mailbox) (n : Nat) : (s.setDone m n).watch = s.watch := by
  unfold State.setDone; dsimp only; repeat' split
  all_goals simp
@[simp] theorem State.setDone_log (s : State) (m : Mailbox) (n : Nat) : (s.setDone m n).log = s.log := by
  unfold State.setDone; dsimp only; repeat' split
  all_goals simp
@[simp] theorem State.setDone_obs (s : State) (m : Mailbox) (n : Nat) : (s.setDone m n).obs = s.obs := by
  unfold State.setDone; dsimp only; repeat' split
  all_goals simp
@[simp] theorem State.setDone_board (s : State) (m : Mailbox) (n : Nat) : (s.setDone m n).board = s.board := by
  unfold State.setDone; dsimp only; repeat' split
  all_goals simp
@[simp] theorem State.setDone_free (s : State) (m : Mailbox) (n : Nat) : (s.setDone m n).free = s.free := by
  unfold State.setDone; dsimp only; repeat' split
  all_goals simp

/-- The `done` bit is the only change of the mailboxes. -/
@[simp] theorem State.setDone_box (s : State) (m : Mailbox) (n : Nat) :
    (s.setDone m n).box = (s.modMb m fun b => { b with done := b.done ||| (1#8 <<< n) }).box := by
  unfold State.setDone; dsimp only; repeat' split
  all_goals simp

@[simp] theorem State.respond_pending (s : State) (r : SlotRef) (st : Status) (d len pay : Nat) (sid : Option W32) :
    (s.respond r st d len pay sid).pending = s.pending := by unfold State.respond; dsimp only; split <;> simp
@[simp] theorem State.respond_chip (s : State) (r : SlotRef) (st : Status) (d len pay : Nat) (sid : Option W32) :
    (s.respond r st d len pay sid).chip = s.chip := by unfold State.respond; dsimp only; split <;> simp
@[simp] theorem State.respond_beat (s : State) (r : SlotRef) (st : Status) (d len pay : Nat) (sid : Option W32) :
    (s.respond r st d len pay sid).beat = s.beat := by unfold State.respond; dsimp only; split <;> simp
@[simp] theorem State.respond_org (s : State) (r : SlotRef) (st : Status) (d len pay : Nat) (sid : Option W32) :
    (s.respond r st d len pay sid).org = s.org := by unfold State.respond; dsimp only; split <;> simp
@[simp] theorem State.respond_ten (s : State) (r : SlotRef) (st : Status) (d len pay : Nat) (sid : Option W32) :
    (s.respond r st d len pay sid).ten = s.ten := by unfold State.respond; dsimp only; split <;> simp
@[simp] theorem State.respond_fen (s : State) (r : SlotRef) (st : Status) (d len pay : Nat) (sid : Option W32) :
    (s.respond r st d len pay sid).fen = s.fen := by unfold State.respond; dsimp only; split <;> simp
@[simp] theorem State.respond_eng (s : State) (r : SlotRef) (st : Status) (d len pay : Nat) (sid : Option W32) :
    (s.respond r st d len pay sid).eng = s.eng := by unfold State.respond; dsimp only; split <;> simp
@[simp] theorem State.respond_reg (s : State) (r : SlotRef) (st : Status) (d len pay : Nat) (sid : Option W32) :
    (s.respond r st d len pay sid).reg = s.reg := by unfold State.respond; dsimp only; split <;> simp
@[simp] theorem State.respond_xl (s : State) (r : SlotRef) (st : Status) (d len pay : Nat) (sid : Option W32) :
    (s.respond r st d len pay sid).xl = s.xl := by unfold State.respond; dsimp only; split <;> simp
@[simp] theorem State.respond_mem (s : State) (r : SlotRef) (st : Status) (d len pay : Nat) (sid : Option W32) :
    (s.respond r st d len pay sid).mem = s.mem := by unfold State.respond; dsimp only; split <;> simp
@[simp] theorem State.respond_coh (s : State) (r : SlotRef) (st : Status) (d len pay : Nat) (sid : Option W32) :
    (s.respond r st d len pay sid).coh = s.coh := by unfold State.respond; dsimp only; split <;> simp
@[simp] theorem State.respond_sec (s : State) (r : SlotRef) (st : Status) (d len pay : Nat) (sid : Option W32) :
    (s.respond r st d len pay sid).sec = s.sec := by unfold State.respond; dsimp only; split <;> simp
@[simp] theorem State.respond_net (s : State) (r : SlotRef) (st : Status) (d len pay : Nat) (sid : Option W32) :
    (s.respond r st d len pay sid).net = s.net := by unfold State.respond; dsimp only; split <;> simp
@[simp] theorem State.respond_pwr (s : State) (r : SlotRef) (st : Status) (d len pay : Nat) (sid : Option W32) :
    (s.respond r st d len pay sid).pwr = s.pwr := by unfold State.respond; dsimp only; split <;> simp
@[simp] theorem State.respond_watch (s : State) (r : SlotRef) (st : Status) (d len pay : Nat) (sid : Option W32) :
    (s.respond r st d len pay sid).watch = s.watch := by unfold State.respond; dsimp only; split <;> simp
@[simp] theorem State.respond_log (s : State) (r : SlotRef) (st : Status) (d len pay : Nat) (sid : Option W32) :
    (s.respond r st d len pay sid).log = s.log := by unfold State.respond; dsimp only; split <;> simp
@[simp] theorem State.respond_obs (s : State) (r : SlotRef) (st : Status) (d len pay : Nat) (sid : Option W32) :
    (s.respond r st d len pay sid).obs = s.obs := by unfold State.respond; dsimp only; split <;> simp
@[simp] theorem State.respond_board (s : State) (r : SlotRef) (st : Status) (d len pay : Nat) (sid : Option W32) :
    (s.respond r st d len pay sid).board = s.board := by unfold State.respond; dsimp only; split <;> simp
@[simp] theorem State.respond_free (s : State) (r : SlotRef) (st : Status) (d len pay : Nat) (sid : Option W32) :
    (s.respond r st d len pay sid).free = s.free := by unfold State.respond; dsimp only; split <;> simp

@[simp] theorem State.respond_sessions (s : State) (r : SlotRef) (st : Status) (d len pay : Nat) (sid : Option W32) :
    (s.respond r st d len pay sid).box.sessions = s.box.sessions := by unfold State.respond; dsimp only; split <;> simp
@[simp] theorem State.respond_tickets (s : State) (r : SlotRef) (st : Status) (d len pay : Nat) (sid : Option W32) :
    (s.respond r st d len pay sid).box.tickets = s.box.tickets := by unfold State.respond; dsimp only; split <;> simp
@[simp] theorem State.respond_sets (s : State) (r : SlotRef) (st : Status) (d len pay : Nat) (sid : Option W32) :
    (s.respond r st d len pay sid).box.sets = s.box.sets := by unfold State.respond; dsimp only; split <;> simp

end Sys2Proof.Machine
end

