-- ==== Sys2Proof/Laws/Shared.lean ====
section
/-! SUPPORT. What the shared operations over messages, records and responses may change: one equation for each, which gives the state after it
as the state before with the units it writes. -/

namespace Sys2Proof.Machine

variable (s : State)

/-- A fold of an operation keeps what the operation keeps. -/
theorem State.foldl_keeps {α β : Type} (g : State → β) (f : State → α → State) (h : ∀ t a, g (f t a) = g t) (l : List α) (t : State) :
    g (l.foldl f t) = g t := by
  induction l generalizing t with
  | nil => rfl
  | cons a l ih => rw [List.foldl_cons, ih, h]

/-- A fold of an operation keeps a property that the operation keeps. -/
theorem State.foldl_inv {α : Type} (P : State → Prop) (f : State → α → State) (h : ∀ t a, P t → P (f t a)) (l : List α) (t : State) (ht : P t) :
    P (l.foldl f t) := by
  induction l generalizing t with
  | nil => exact ht
  | cons a l ih => exact ih _ (h _ _ ht)

/-- What holds of a state and of what a live command makes of it holds of the answer. -/
theorem State.live_inv (P : State → Prop) (f : State → State) (h : P s) (hf : P (f s)) : P (s.live f) := by
  unfold State.live
  split
  · exact hf
  · exact h

theorem State.msix_frame (v : Nat) : s.msix v = { s with out := (s.msix v).out } := rfl

theorem State.chipEvent_frame : s.chipEvent = { s with out := s.chipEvent.out } := rfl

theorem State.partEvent_frame (p : Nat) : s.partEvent p = { s with out := (s.partEvent p).out } := by
  unfold State.partEvent
  dsimp only
  split <;> rfl

theorem State.indexVector_frame (p v : Nat) : s.indexVector p v = { s with out := (s.indexVector p v).out } := by
  unfold State.indexVector
  split <;> rfl

theorem State.linkSend_frame (m : LinkMsg) : s.linkSend m = { s with obs := s.sentObs m, out := { s.out with link := s.out.link ++ [m] } } := rfl

theorem State.logRec_frame (r : RecBody) : s.logRec r = { s with log := (s.logRec r).log } := rfl

theorem State.needReset_frame (cause unit : Nat) : s.needReset cause unit = { s with chip := (s.needReset cause unit).chip } := by
  unfold State.needReset
  split <;> rfl

/-- The first cause of a chip reset stands (R37, R530). -/
theorem State.needReset_pending (cause unit : Nat) :
    (s.needReset cause unit).chip.pending = some (s.chip.pending.getD (cause, unit)) := by
  unfold State.needReset
  split
  · next h =>
    obtain ⟨x, hx⟩ := Option.isSome_iff_exists.1 h
    simp [hx]
  · next h => simp [Option.not_isSome_iff_eq_none.1 h]

theorem State.takeSlot_frame (r : SlotRef) : s.takeSlot r = { s with box := { s.box with mbx := (s.takeSlot r).box.mbx, turn := (s.takeSlot r).box.turn } } := rfl

theorem State.setDone_frame (m : Mailbox) (n : Nat) :
    s.setDone m n = { s with box := { s.box with mbx := (s.setDone m n).box.mbx }, out := (s.setDone m n).out } := by
  unfold State.setDone
  dsimp only
  split
  · split <;> rfl
  · rfl

/-- A response changes the mailboxes and what was sent, and nothing else (R63). -/
theorem State.respond_frame (r : SlotRef) (st : Status) (d len pay : Nat) (sid : Option W32) :
    s.respond r st d len pay sid =
      { s with box := { s.box with mbx := (s.respond r st d len pay sid).box.mbx }, out := (s.respond r st d len pay sid).out } := by
  unfold State.respond
  dsimp only
  rw [State.setDone_frame]
  split <;> rfl

/-- So does a final response, while its slot waits for it. -/
theorem State.finish_frame (r : SlotRef) (st : Status) (d len pay : Nat) :
    s.finish r st d len pay =
      { s with box := { s.box with mbx := (s.finish r st d len pay).box.mbx }, out := (s.finish r st d len pay).out } := by
  unfold State.finish
  dsimp only
  split
  · exact State.respond_frame ..
  · rfl

theorem State.finishOpt_frame (r : Option SlotRef) (st : Status) (d len pay : Nat) :
    s.finishOpt r st d len pay =
      { s with box := { s.box with mbx := (s.finishOpt r st d len pay).box.mbx }, out := (s.finishOpt r st d len pay).out } := by
  cases r with
  | none => rfl
  | some r => exact State.finish_frame ..

theorem State.reject_frame (c : Cmd) (st : Status) (d : Nat) :
    s.reject c st d = { s with box := { s.box with mbx := (s.reject c st d).box.mbx }, out := (s.reject c st d).out } :=
  State.respond_frame ..

/-- Only a slot that still waits under the ticket of its command is answered (R62). -/
theorem State.finish_of_gone {r : SlotRef} (h : ((s.mbAt r.mb).slotAt r.slot).ticket ≠ r.ticket) (st : Status) (d len pay : Nat) :
    s.finish r st d len pay = s := by
  unfold State.finish
  simp [h]

end Sys2Proof.Machine
end

