-- ==== Sys2Proof/WellFormed.lean ====
section
/-! DEFINITION. Well-formed commands: every number that names an object lies in the object's range (R28, R29, R97). A meaning treats a number out
of range as a thing that does not exist. -/

namespace Sys2Proof

/-- A mailbox that exists (R49). -/
def Mailbox.wf : Mailbox → Bool
  | .part n => decide (n < 64)
  | _ => true

/-- A take on a mailbox that exists. -/
def Take.wf (k : Take) : Bool := k.mb.wf

/-- A requester with an engine, port, partition or class in range. -/
def Requester.wf : Requester → Bool
  | .row e _ _ | .batch e _ | .work e => decide (e < 128)
  | .peer n _ p c => decide (n < 512 ∧ p < 18 ∧ c < 8)
  | .lendor p c u => decide (p < 64 ∧ c < 8 ∧ u < 256)
  | .control u => decide (u < 256)
  | _ => true

/-- An access of the narrow path (R248). -/
def Access.narrow : Access → Bool
  | .read n | .write _ _ n => n

/-- A gate request for an aligned line, or an aligned 32-byte granule, of a physical address of 57 bits (R43, R248), at a lane of its tier (R25). -/
def GateReq.wf (g : GateReq) : Bool :=
  g.who.wf && decide (g.addr % (if g.acc.narrow then 32 else 128) = 0 ∧ g.addr < 2 ^ 57) &&
    decide (if g.addr % 2 ^ 48 < 0x006000000000 then g.lane < 16 else 16 ≤ g.lane ∧ g.lane < 18)

/-- A tile at an engine's port. -/
def TileReq.wf (t : TileReq) : Bool := decide (t.engine < 128)

/-- A coherence message: 6 bits of opcode, an agent, a class and a granule in range (R393, R397). -/
def Msg.wf (m : Msg) : Bool := decide (m.op < 64 ∧ m.src < 150 ∧ m.dst < 150 ∧ m.cls < 8 ∧ m.granule < 4)

/-- A source of the beat: the pin or one of 18 ports (R81). -/
def BeatSource.wf : BeatSource → Bool
  | .pin => true
  | .port p => decide (p < 18)

/-- An import request with its node, partition and fences in range (R314). -/
def ImportReq.wf (r : ImportReq) : Bool := decide (r.node < 512 ∧ r.part < 64 ∧ r.srcPart < 64 ∧ r.fence < 16384 ∧ r.proxy < 16384)

/-- A training report of a node in range (R592). -/
def TrainReport.wf (r : TrainReport) : Bool := decide (r.node < 512)

/-- A doorbell write of 1 to 64 bytes (R139). -/
def WindowWrite.wf (w : WindowWrite) : Bool := decide (1 ≤ w.bytes ∧ w.bytes ≤ 64)

/-- An engine's report counts operations by an index below 45 (R549). -/
def EngineReport.wf (r : EngineReport) : Bool := r.ops.all fun x => decide (x.1 < 45)

/-- The reports of a frame boundary name engines, pairs and partitions in range. -/
def FrameEnv.wf (e : FrameEnv) : Bool :=
  (e.energy.all fun x => decide (x.1 < 128)) && (e.samples.all fun x => decide (x.1 < 17)) && (e.stretchTicks.all fun x => decide (x.1 < 64)) &&
  (e.causes.all fun x => decide (x.1 < 64 ∧ x.2 < 8)) && (e.areaFaults.all fun p => decide (p < 64)) &&
  e.linkWaits.all fun x => decide (x.1 < 64 ∧ x.2.1 < 18 ∧ x.2.2 < 2)

/-- A start makes one to three attempts (R590), and a node ID has 9 bits (R43). -/
def StartEnv.wf (e : StartEnv) : Bool := decide (1 ≤ e.attempts ∧ e.attempts ≤ 3 ∧ e.node < 512)

/-- A well-formed command. -/
def Instr.wf : Instr → Bool
  | .requestAreaWrite mb slot word _ => mb.wf && decide (slot < 8) && decide (word < 64)
  | .mbSubmit mb _ => mb.wf
  | .mbDoneClear mb _ => mb.wf
  | .vectorWrite mb _ => mb.wf
  | .endSession mb _ => mb.wf
  | .registerWrite _ width _ => [8, 16, 32, 64].contains width
  | .tickLoRead read => [8, 16, 32, 64].contains read.width
  | .ctxWinSelWrite part win _ => decide (part < 64) && decide (win < 8)
  | .ctxWinCtlWrite part win _ => decide (part < 64) && decide (win < 8)
  | .parkedResume mb slot => mb.wf && decide (slot < 8)
  | .hello k => k.wf
  | .goodbye k => k.wf
  | .ping k => k.wf
  | .beatStatus k => k.wf
  | .peerOffsets k => k.wf
  | .partCreate k => k.wf
  | .partStage k => k.wf
  | .partCommit k => k.wf
  | .partDestroy k => k.wf
  | .partQuery k => k.wf
  | .spanSet k => k.wf
  | .drainCompleteFree part => decide (part < 64)
  | .ctxCreate k => k.wf
  | .ctxDestroy k => k.wf
  | .ringBind k => k.wf
  | .ringUnbind k => k.wf
  | .ctxQuery k => k.wf
  | .schedSet k => k.wf
  | .schedQuery k => k.wf
  | .regSet k => k.wf
  | .regQuery k => k.wf
  | .cbgSet k => k.wf
  | .baseLoad k => k.wf
  | .baseSwap k => k.wf
  | .seqOpen k => k.wf
  | .seqClose k => k.wf
  | .kvReserveFill k => k.wf
  | .kvReserveDrain k => k.wf
  | .kvReserveSetWater k => k.wf
  | .seqQuery k => k.wf
  | .fenceAlloc k => k.wf
  | .fenceFree k => k.wf
  | .fenceExport k => k.wf
  | .fenceWithdraw k => k.wf
  | .fenceImport k => k.wf
  | .importRequest port r => decide (port < 18) && r.wf
  | .importTimeout mb slot => mb.wf && decide (slot < 8)
  | .wfgRead k => k.wf
  | .segSyncLoad k _ => k.wf
  | .segSyncEntries k _ => k.wf
  | .segSyncUnload k => k.wf
  | .segCheck k _ => k.wf
  | .tlbInvalidate k => k.wf
  | .tlbDrainEnd mb slot => mb.wf && decide (slot < 8)
  | .migrateMode k => k.wf
  | .rangeSet k => k.wf
  | .maintStart k => k.wf
  | .maintQuery k => k.wf
  | .cohModeSet k => k.wf
  | .pwrBudgetSet k => k.wf
  | .pwrStateSet k => k.wf
  | .keyDerive k => k.wf
  | .keyDestroy k => k.wf
  | .lcTransition k => k.wf
  | .wipeSlots => true
  | .destroyRoot => true
  | .eraseUser _ => true
  | .burnState => true
  | .dbgCertLoad k _ => k.wf
  | .dbgCertClear k => k.wf
  | .dbgCertRevoke k => k.wf
  | .dbgChallenge k _ => k.wf
  | .dbgResponse k _ => k.wf
  | .dirtyLogBegin k => k.wf
  | .dirtyLogFlip k => k.wf
  | .dirtyLogStop k => k.wf
  | .ctxRevoke k => k.wf
  | .revokeDrainEnd ctx => decide (ctx < 65536)
  | .partReset k => k.wf
  | .partResetConfig k => k.wf
  | .partitionResetComplete part => decide (part < 64)
  | .dumpStart k => k.wf
  | .dumpEnd _ => true
  | .logRead k _ => k.wf
  | .digestSet k => k.wf
  | .traceSet k => k.wf
  | .breakSet k => k.wf
  | .breakClear k => k.wf
  | .breakResume k => k.wf
  | .breakQuery k => k.wf
  | .boardStatus k => k.wf
  | .doorbell w => w.wf
  | .push _ bytes _ => decide (bytes = 32 ∨ bytes = 64)
  | .ringStateFill ring => decide (ring < 1048576)
  | .descriptorFetch ring _ => decide (ring < 1048576)
  | .nop ring => decide (ring < 1048576)
  | .work ring engine => decide (ring < 1048576) && decide (engine < 128)
  | .prefill ring => decide (ring < 1048576)
  | .wait ring => decide (ring < 1048576)
  | .signal ring => decide (ring < 1048576)
  | .workCompletion engine r => decide (engine < 128) && r.wf
  | .batchCompletion engine _ r => decide (engine < 128) && r.wf
  | .admissionCycle field => decide (field < 4)
  | .seqCacheFill seq => decide (seq < 131072)
  | .frameBoundary env => env.wf
  | .floorWindowOpen => true
  | .floorDue => true
  | .floorWindowClose => true
  | .thermalWindowClose _ => true
  | .epochBoundary _ => true
  | .wfgScanEnd _ => true
  | .maintenanceSlot _ => true
  | .rangeClearingDone range => decide (range < 128)
  | .gateRequest g => g.wf
  | .tagFill _ _ => true
  | .sharedPoisonRewrite group slot _ _ => decide (group < 1024) && decide (slot < 2)
  | .tile t => t.wf
  | .tableWalk field part _ _ _ => decide (field < 4) && decide (part < 64)
  | .faultWaitExpiry part slot => decide (part < 64) && decide (slot < 65536)
  | .tierMoveSwap _ _ _ => true
  | .baseLoadEnd group slot _ => decide (group < 1024) && decide (slot < 2)
  | .fetchShare m => m.wf
  | .fetchOwn m => m.wf
  | .fetchTransient m => m.wf
  | .upgrade m => m.wf
  | .storeThrough m => m.wf
  | .spill m => m.wf
  | .release m => m.wf
  | .atomic m => m.wf
  | .probeShare m => m.wf
  | .probeTake m => m.wf
  | .probeFlush m => m.wf
  | .probeKill m => m.wf
  | .done m => m.wf
  | .doneAck m => m.wf
  | .probeAck m => m.wf
  | .dataGo m => m.wf
  | .bounce m => m.wf
  | .ticket m => m.wf
  | .fill m => m.wf
  | .probeData m => m.wf
  | .spillData m => m.wf
  | .storeData m => m.wf
  | .snoopTimeout _ _ domain => decide (domain < 65)
  | .drainIdle part => decide (part < 64)
  | .saveDone part => decide (part < 64)
  | .restoreDone part _ => decide (part < 64)
  | .wake part => decide (part < 64)
  | .d3hotEntry => true
  | .d0Return => true
  | .droopTrip field sensor => decide (field < 4) && decide (sensor < 256)
  | .stretchReassign field => decide (field < 4)
  | .recoveryHoldEnd field => decide (field < 4)
  | .keepRampStep field => decide (field < 4)
  | .sensorMask field sensor => decide (field < 4) && decide (sensor < 256)
  | .markerWord src _ _ _ => src.wf
  | .beatSourceLoss => true
  | .acquireTimeout => true
  | .freeRunExpiry => true
  | .slewAdjust => true
  | .holdRelease env => env.wf
  | .offsetPass port _ => decide (port < 18)
  | .linkTrained port r => decide (port < 18) && r.wf
  | .linkRequest g d _ => g.wf && decide (d < 2 ^ 29)
  | .proxyUpdate fence _ => decide (fence < 16384)
  | .proxyAbandon fence => decide (fence < 16384)
  | .resetNotice port node _ => decide (port < 18) && decide (node < 512)
  | .linkDown port => decide (port < 18)
  | .peerUnreachableExpiry node => decide (node < 512)
  | .watchdogFire engine _ => decide (engine < 128)
  | .replayTimeout engine => decide (engine < 128)
  | .coreWatchdogExpiry core => decide (core < 9)
  | .heartbeatTimeout => true
  | .chipReset env => env.wf
  | .powerOn => true
  | .pcieReset => true
  | .digestWindowClose part probe => decide (part < 64) && decide (probe < 8)
  | .breakpointHit core bp _ => decide (core < 8) && decide (bp < 4)
  | .sdaStuck => true
  | .entdaa _ => true
  | .setdasa => true
  | .mctpControl => true
  | .getPdr => true
  | .getSensorReading sensor => decide (sensor < 32)
  | .getStateSensorReadings sensor => decide (sensor < 32)
  | .setEventReceiver => true
  | .bypass => true
  | .idcode => true
  | .samplePreload => true
  | .mbxAccess _ _ _ => true
  | .extest => true
  | .intest => true
  | .internalScan => true
  | .memAccess addr _ _ => decide (addr % 4 = 0)
  | .powerLoss => true
  | .controlDomainError _ _ => true
  | .agentCacheError _ domain => decide (domain < 65)
  | .snoopFilterError _ _ _ => true
  | .engineResetDone engine => decide (engine < 128)
  | .importAnswer mb slot _ => mb.wf && decide (slot < 8)
  | .linkResponse port _ answer => decide (port < 18 ∧ answer.reason ≤ 5)
  | .peerDriftAdvertisement port _ _ => decide (port < 18)
  | .tapReset => true
  | .traceLaneOvercurrent lane code => decide (lane < 4) && decide (1 ≤ code ∧ code ≤ 5)
  | .traceFifoRoom _ => true

end Sys2Proof
end

