-- ==== Sys2Proof/Tests/Slice0.lean ====
section
/-! SUPPORT. The model's own tests: a term that each check of WellFormed refuses, and, for the statements of Obligations.lean, concrete states and operands
that meet their hypotheses. Expected values come from the rules that the statements cite. -/

namespace Sys2Proof.Tests

open Sys2Proof Sys2Proof.Machine

-- Each test evaluates in the kernel: one after another.
set_option Elab.async false

/-! ### A small world -/

/-- Lendor in RUN, locked to the pin, in FAB_TEST, with partition 0 LIVE at generation 1: engine 0, ranges 0 (fast) and 1 (slow), the first blocks of contexts,
sequences, fences and rings, and vectors 16 to 31. -/
def chip0 : Chip := { Chip.init with pending := none, opened := true, phase := 5, islandOk := true }

def beat0 : Beat := { Beat.init with plumb := .locked, run := true, tick := 81920, source := some .pin }

def rec0 : PartRec := { PartRec.zero with engines := 1, ways := 1, ranges := 3, ctxBlocks := 1, seqBlocks := 1, fenBlocks := 1, ringPages := 1, vecBase := 16, vecCount := 16 }

def slots0 : Tab KeySlot :=
  [(8, ⟨true, 0, 0, false, 0xFF, 11⟩), (9, ⟨true, 1, 0, false, 0xFF, 12⟩), (10, ⟨true, 0, 0, false, 0xFF, 13⟩), (11, ⟨true, 1, 0, false, 0xFF, 14⟩)]

def fast0 : Range := { Range.init with st := .owned, act := true, keySlot := 8, base := 0, len := 0x1000000, owner := 0 }

def slow0 : Range := { Range.init with st := .owned, act := true, keySlot := 8, base := 0x010000000000, len := 0x1000000, owner := 0 }

def fast1 : Range := { Range.init with st := .free, act := true, keySlot := 10, base := 0x1200000, len := 0x200000 }

def slow1 : Range := { Range.init with st := .free, act := true, keySlot := 10, base := 0x010001200000, len := 0x200000 }

/-- A context's segment 0: 16 pages of 64 KiB from address 0, readable and writable, with its table at 0x100000. -/
def seg0 : Seg := { Seg.init with
  valid := true, base := 0, limit := 0x100000, table := 0x100000, read := true, write := true, homeTier := 2, keyFast := 0, keySlow := 1 }

def ctx1 : Ctx := { Ctx.init with st := .live, gen := 1, owner := 7, weight := 1 }

def world : State := { State.reset with
  chip := chip0, beat := beat0
  org := { Org.init with part := [(0, { Part.init with st := .live, gen := 1, record := rec0 })] }
  ten := { Tenant.init with ctx := [(1, ctx1)] }
  xl := { Xlate.init with seg := [(16, seg0)] }
  mem := { Mem.init with range := [(0, fast0), (1, slow0), (2, fast1), (3, slow1)] }
  sec := { Sec.init with lc := .fabTest, fuse := .fabTest, slots := slots0 }
  pwr := { Power.init with part := [(0, { PowPart.init with budget := 120, eff := 120 })] } }

/-- A request: opcode, length, partition, generation and payload. -/
def request (op len part gen pay : Nat) : BitVec 2048 := BitVec.ofNat 2048 (op + len * 2 ^ 64 + part * 2 ^ 96 + gen * 2 ^ 104 + pay * 2 ^ 256)

/-- A mailbox with an open session whose slot 0 waits with a request. -/
def asked (s : State) (mb : Mailbox) (req : BitVec 2048) : State :=
  s.modMb mb fun _ => { Mbx.init with open_ := true, minor := 4, session := 1, queue := [0], slots := [(0, { Slot.init with st := .submitted, req := req, session := 1, ticket := 1 })] }

/-- A request of partition 0 on its own mailbox. -/
def own (s : State) (op len pay : Nat) : State := asked s (.part 0) (request op len 0 1 pay)

/-- A request on the manager mailbox about partition 0. -/
def mgr (s : State) (op len pay : Nat) : State := asked s .manager (request op len 0 1 pay)

/-- A request on the manager mailbox about the chip. -/
def chipWide (s : State) (op len pay : Nat) : State := asked s .manager (request op len 0xFF 0 pay)

/-- A request on the security or debug mailbox. -/
def sec (s : State) (op len pay : Nat) : State := asked s .security (request op len 0xFF 0 pay)

def dbg (s : State) (op len pay : Nat) : State := asked s .debug (request op len 0xFF 0 pay)

def k0 : Take := ⟨.part 0, none, none⟩

def km : Take := ⟨.manager, none, none⟩

def ks : Take := ⟨.security, none, none⟩

def kd : Take := ⟨.debug, none, none⟩

/-- A mailbox command finds its request, the request passes every check, and its response has room: what the statements about it assume. -/
def meets (i : Instr) (s : State) : Bool :=
  match i.mailbox with
  | some (k, op) => match s.serves k op with
    | some c => i.mine c && (firstFail (i.ownChecks c (s.takeSlot c.ref))).isNone && decide (176 ≤ c.space)
    | none => false
  | none => false

/-- The first failing check of a mailbox command that finds its request. -/
def fails (i : Instr) (s : State) : Option (Status × Nat) :=
  match i.mailbox with
  | some (k, op) => match s.serves k op with
    | some c => firstFail (i.ownChecks c (s.takeSlot c.ref))
    | none => none
  | none => none

/-- The world with partition 0's own segments and a second segment of context 1, and page entries 0 to 3 of its first one and 0 and 1 of the second present. -/
def paged : State :=
  let entry := fun (i : Nat) => BitVec.ofNat 64 (i * 65536 + 0x200000 + 5)
  let slow := fun (i : Nat) => BitVec.ofNat 64 (i * 65536 + 0x010000200000 + 3)
  (({ world with xl := { world.xl with seg := [(16, seg0), (17, { seg0 with base := 0x100000, table := 0x101000, homeTier := 1 }),
      (2 ^ 20, { seg0 with table := 0x102000, write := false, limit := 0x800000 }),
      (2 ^ 20 + 1, { seg0 with table := 0x103000, write := false, base := 0x800000, limit := 0x800000, homeTier := 1 })] } } : State).putWords 0 16 0
    [entry 0, entry 1, entry 2, entry 3]).putWords 0 17 0 [slow 0, slow 1]

def seq2 : Seq := { Seq.init with st := .filling, gen := 1, ctx := 1, group := 3, prompt := 100, maxLen := 200, tokLines := 1, logSize := 4 }

def group3 : Group := { Group.init with owner := some 0, maxRank := 4, members := [(1, some ⟨0, 0, 0, 0⟩)], slot1 := { BaseSlot.init with st := .standby, baseId := 9 } }

def fence5 : Fence := { Fence.init with st := .live, gen := 1, owner := 1 }

/-- A v2 descriptor of a type, of generations 1 and 1. -/
def desc (type : Nat) : Desc := ⟨0, BitVec.ofNat 512 (pack [(8, type), (8, 0), (8, 1), (8, 1)]), 10⟩

def ring9 : Ring := { Ring.init with st := .active, ctx := 1, ctxGen := 1, fmt := 2, size := 4, cqAddr := 0x1000, prod := 1, fetch := 1 }

/-- With sequence 2, group 3, ring 9, and fences 5 and 6, of which 6 is exported to the chip's own partition 0. -/
def full : State := { paged with
  ten := { paged.ten with seq := [(2, seq2)], group := [(3, group3)], ring := [(9, ring9)], ringCache := [(0, [9])] }
  fen := { paged.fen with fence := [(5, fence5), (6, { fence5 with exports_ := [⟨0, 0, 77, []⟩] })] } }

/-- With ring 9's next descriptor of a type. -/
def next (type : Nat) : State := { full with ten := { full.ten with ring := [(9, { ring9 with queue := [desc type] })] } }

/-- Everything holds. -/
def yes (l : List Bool) : Bool := l.all id


/-- With context 1's second segment not loaded. -/
def single : State := { full with xl := { full.xl with seg := full.xl.seg.drop 17 } }

/-- With core 2 held at a breakpoint. -/
def broken : State := { world with watch := { world.watch with
  core := [(2, { Core.init with st := .held, bps := [(1, { Bp.init with armed := true, count := 2, hits := 1 })] })] } }

/-- With dirty-page logging active. -/
def logging : State := { world with watch := { world.watch with dirty := [(0, { DirtyLog.init with active := true })] } }

/-- A maker's public key (the x and the y of a point of P-384, as their bytes stand in a request), and the maker's signatures of the certificate and of the response
below, made outside the model. -/
def makerPub : Nat := 0x63c47013f5c6546232481a2e2ff23073027a106b20df750982f47188dbcd71831bf189c2b4cc284fe5ad29fd8ba3e3bf894d4bb1d6d7a874aec4fa7309fd747e71cd543836abee91d4ed04d8027c07b1ae6c0978f4bfcc0937e775cbc07f1c6

def certSig : Nat := 0x27690fb5cfb190dd9e06375fed6a8a1c46a397c945e59faa5b3f954926fb7597c13e59bdeb769b2ccfec839649cbde4a6c3c21b5a74be1b0a88a4dba72921651ba5bc62ece2bcffd360ae947abf195f21ad9bb96c6afb63f332b5a5dfb43618

def respSig : Nat := 0xb7ed6b7398c91bf2c610ca873b6cd1725a5646d4911bbc0950006891b9d89a20ec426cca31c8fffe59aff0b9c8efdb65a6c3c21b5a74be1b0a88a4dba72921651ba5bc62ece2bcffd360ae947abf195f21ad9bb96c6afb63f332b5a5dfb43618

/-- A certificate for FAB_TEST as the payload of a DBG_CERT_LOAD. -/
def certPay : Nat := pack [(64, 0), (16, 1), (16, 0), (128, 0), (8, 0x1F), (8, 2), (8, 1), (8, 0), (64, 100), (32, 55), (32, 0), (768, makerPub), (768, certSig)]

/-- A part whose fuses hold the SHA-384 of the maker's key. -/
def made (s : State) : State := { s with sec := { s.sec with makerHash := 0xc14f920784f74983f781a9f95b8a2461300b5ee612d67b8a02227a4412884c40bda80e66c33280f78bce29a7d3d67c23 } }

/-- An indirect request on the debug mailbox: its payload stands at address 0 of the host. -/
def dbgFar (s : State) (op len : Nat) : State := asked s .debug (request (op + 65536) 16 0xFF 0 (pack [(64, 0), (32, len)]))

/-! ### Well-formed commands -/

def far : Take := ⟨.part 64, none, none⟩

def msg0 : Msg := ⟨0x04, 0, 132, 0, false, 1, 0, false, false, false, .ok, 40, 0, 0, 65536, 0, false, 0, 0, 0, 0, .clean, 0⟩

def req0 : GateReq := ⟨.row 0 0 true, 0, ⟨0, 65536⟩, .read false, .clean, .clean, none, false, false, 0⟩

def env0 : FrameEnv := ⟨[], [], none, [], [], [], [], [], []⟩

def image0 : ImageSlot := ⟨true, 1, 7, false, 99, 0, 0⟩

def record0 : BoardRecord := ⟨true, 0, 0, 0, 0, 0, 0, 0⟩

def start0 : StartEnv := ⟨true, 0, 0, 0, none, none, none, image0, image0, record0, record0, 1, none, true, [], 0, 0, 0, []⟩

def import0 : ImportReq := ⟨5, 1, 0, 5, 1, 77, 6⟩

def train0 : TrainReport := ⟨5, 3, 1, 2, false, false⟩

/-- A mailbox that does not exist is refused wherever a command names one. -/
theorem test_wf_mailbox : yes ([Instr.requestAreaWrite (.part 64) 0 0 0, .mbSubmit (.part 64) 0, .mbDoneClear (.part 64) 0, .vectorWrite (.part 64) 0,
  .endSession (.part 64) 0, .parkedResume (.part 64) 0, .importTimeout (.part 64) 0, .importAnswer (.part 64) 0 .refuse, .tlbDrainEnd (.part 64) 0,
  .hello far, .goodbye far, .ping far, .beatStatus far, .peerOffsets far, .partCreate far, .partStage far, .partCommit far, .partDestroy far, .partQuery far,
  .spanSet far, .ctxCreate far, .ctxDestroy far, .ringBind far, .ringUnbind far, .ctxQuery far, .schedSet far, .schedQuery far, .regSet far, .regQuery far,
  .cbgSet far, .baseLoad far, .baseSwap far, .seqOpen far, .seqClose far, .kvReserveFill far, .kvReserveDrain far, .kvReserveSetWater far, .seqQuery far,
  .fenceAlloc far, .fenceFree far, .fenceExport far, .fenceWithdraw far, .fenceImport far, .wfgRead far, .segSyncLoad far none, .segSyncEntries far none,
  .segSyncUnload far, .segCheck far none, .tlbInvalidate far, .migrateMode far, .rangeSet far, .maintStart far, .maintQuery far, .cohModeSet far,
  .pwrBudgetSet far, .pwrStateSet far, .keyDerive far, .keyDestroy far, .lcTransition far, .dbgCertLoad far (), .dbgCertClear far,
  .dbgCertRevoke far, .dbgChallenge far 0, .dbgResponse far (), .dirtyLogBegin far, .dirtyLogFlip far, .dirtyLogStop far, .ctxRevoke far,
  .partReset far, .partResetConfig far, .dumpStart far, .logRead far 0, .digestSet far, .traceSet far, .breakSet far, .breakClear far, .breakResume far,
  .breakQuery far, .boardStatus far].map fun i => !i.wf) = true := by decide +kernel

/-- A number out of the range of its object is refused. -/
theorem test_wf_numbers : yes ([Instr.requestAreaWrite .debug 8 0 0, .requestAreaWrite .debug 0 64 0, .registerWrite 0 24 0, .tickLoRead ⟨0, 24⟩, .ctxWinSelWrite 64 0 0,
  .ctxWinSelWrite 0 8 0, .ctxWinCtlWrite 64 0 0, .ctxWinCtlWrite 0 8 0, .parkedResume .debug 8, .drainCompleteFree 64, .importRequest 18 import0,
  .importRequest 0 { import0 with node := 512 }, .importTimeout .debug 8, .importAnswer .debug 8 .refuse, .tlbDrainEnd .debug 8, .revokeDrainEnd 65536,
  .partitionResetComplete 64, .doorbell ⟨0, 0, 0, 0⟩, .push 0 16 0, .ringStateFill 1048576, .descriptorFetch 1048576 none, .nop 1048576, .work 1048576 0,
  .work 0 128, .prefill 1048576, .wait 1048576, .signal 1048576, .workCompletion 128 ⟨0, []⟩, .workCompletion 0 ⟨0, [(45, 1)]⟩, .batchCompletion 128 [] ⟨0, []⟩,
  .batchCompletion 0 [] ⟨0, [(45, 1)]⟩, .admissionCycle 4, .seqCacheFill 131072, .frameBoundary { env0 with energy := [(128, 0)] },
  .frameBoundary { env0 with samples := [(17, 0, 0)] }, .holdRelease { env0 with stretchTicks := [(64, 0)] }, .holdRelease { env0 with causes := [(0, 8)] }, .holdRelease { env0 with linkWaits := [(0, 0, 2)] }, .rangeClearingDone 128,
  .gateRequest { req0 with addr := 64 }, .gateRequest { req0 with lane := 16 }, .gateRequest { req0 with addr := 2 ^ 57 }, .gateRequest { req0 with who := .work 128 },
  .linkRequest { req0 with who := .peer 512 0 0 0 } 0 false, .sharedPoisonRewrite 1024 0 0 .clean, .sharedPoisonRewrite 0 2 0 .clean,
  .tile ⟨128, .work, .token, false⟩, .tableWalk 4 0 0 0 .clean, .tableWalk 0 64 0 0 .clean, .faultWaitExpiry 64 0, .faultWaitExpiry 0 65536,
  .baseLoadEnd 1024 0 [], .baseLoadEnd 0 2 []].map fun i => !i.wf) = true := by decide +kernel

/-- The same for coherence, power, Plumb, links, faults and the board. -/
theorem test_wf_more : yes (([Instr.fetchShare, .fetchOwn, .fetchTransient, .upgrade, .storeThrough, .spill, .release, .atomic, .probeShare, .probeTake,
    .probeFlush, .probeKill, .done, .doneAck, .probeAck, .dataGo, .bounce, .ticket, .fill, .probeData, .spillData, .storeData].map fun f =>
      !(f { msg0 with dst := 150 }).wf) ++
  ([Instr.snoopTimeout 0 0 65, .drainIdle 64, .saveDone 64, .restoreDone 64 true, .wake 64, .droopTrip 4 0, .droopTrip 0 256, .stretchReassign 4,
  .recoveryHoldEnd 4, .keepRampStep 4, .sensorMask 4 0, .sensorMask 0 256, .markerWord (.port 18) 0 0 false, .offsetPass 18 [], .linkTrained 18 train0,
  .linkTrained 0 { train0 with node := 512 }, .proxyUpdate 16384 0, .proxyAbandon 16384, .resetNotice 18 0 0, .resetNotice 0 512 0, .linkDown 18,
  .peerUnreachableExpiry 512, .watchdogFire 128 true, .replayTimeout 128, .coreWatchdogExpiry 9, .chipReset { start0 with attempts := 4 },
  .digestWindowClose 64 0, .digestWindowClose 0 8, .breakpointHit 8 0 0, .breakpointHit 0 4 0, .getSensorReading 32, .getStateSensorReadings 32,
  .memAccess 2 false 0, .agentCacheError 0 65, .engineResetDone 128, .linkResponse 18 0 ⟨.ok, 0⟩, .peerDriftAdvertisement 18 ⟨0, false⟩ false, .traceLaneOvercurrent 4 2,
  .traceLaneOvercurrent 0 6].map fun i => !i.wf)) = true := by decide +kernel

/-- Numbers at the end of their ranges are well-formed. -/
theorem test_wf_accepts : yes ([Instr.requestAreaWrite (.part 63) 7 63 0, .revokeDrainEnd 65535, .doorbell ⟨0, 64, 0, 0⟩, .ringStateFill 1048575, .admissionCycle 3,
  .seqCacheFill 131071, .rangeClearingDone 127, .gateRequest req0, .sharedPoisonRewrite 1023 1 0 .clean, .fetchShare msg0, .snoopTimeout 0 0 64,
  .droopTrip 3 255, .markerWord (.port 17) 0 0 false, .chipReset start0, .breakpointHit 7 3 0, .traceLaneOvercurrent 3 5].map Instr.wf) = true := by
  decide +kernel

/-! ### Helpers of the witnesses -/

/-- A mailbox command that meets its statements, with more that a clause asks of its request. -/
def holds (i : Instr) (s : State) (p : Cmd → State → Bool) : Bool :=
  meets i s && match i.mailbox with
  | some (k, op) => match s.serves k op with
    | some c => p c (s.takeSlot c.ref)
    | none => false
  | none => false

/-- The state after a command. -/
def after (i : Instr) (s : State) : State :=
  match exec i s with
  | .next t => t
  | _ => s

/-- The same session asks again, in slot 1. -/
def again (s : State) (mb : Mailbox) (req : BitVec 2048) : State :=
  s.modMb mb fun b => { b with queue := [1], slots := (b.slots.put Slot.init 1 { Slot.init with st := .submitted, req := req, session := 1, ticket := 2 }) }

/-- Partition 0's slot 1 waits behind slot 0. -/
def waiting1 (s : State) : State :=
  s.modMb (.part 0) fun b => { b with queue := b.queue ++ [1], slots := b.slots.put Slot.init 1 { Slot.init with st := .submitted, session := 1, ticket := 2 } }

/-- A commit on the manager mailbox after a SPAN_SET of partition 0 with an identity. -/
def staged (identity : Nat) : State :=
  again (after (.spanSet km) (mgr world 0x206 72 (pack [(32, identity)]))) .manager (request 0x203 8 0xFF 0 0)

/-- A request on the manager mailbox about partition 0 whose response goes to 1 KiB at address 0x1000 of the host. -/
def mgrFar (s : State) (op len pay : Nat) : State :=
  asked s .manager (request (op + 2 ^ 17 + 0x1000 * 2 ^ 128 + 1024 * 2 ^ 192) len 0 1 pay)

def fitsIn (f : Cmd → State → List (Nat × Nat)) (c : Cmd) (u : State) : Bool := decide (((f c u).map Prod.fst).sum / 8 ≤ c.space)

/-- The world with port 0 trained to node 5, which partition 0's span names, and an import of partition 0 that waits. -/
def linked : State :=
  let s := full.modPart 0 fun x => { x with span := 7, nodes := 0x21 }
  { s with net := { s.net with ports := [(0, { Port.init with up := true, node := 5 })] }
           fen := { s.fen with imports := [⟨⟨.part 0, 0, 1⟩, 0, 9, 1, ⟨5, 0, 6, 1⟩, 77⟩] } }

def dump0 : DumpRun := ⟨⟨.manager, 0, 1⟩, 0, ⟨1, 0, 0, 0, 0, 0, 0, [], []⟩⟩

def dumping (s : State) : State := { s with log := { s.log with run := some dump0 } }

/-- A tile of partition 0's engine 0 that moves in page 0 of context 1's segment 0. -/
def tile1 : TileRun := ⟨⟨0, .work, .ctx 0 128 1 128, false⟩, 0, 1, 16, Seg.init, [(0, 0x200000, 2)], [128], .moving⟩

def moving : State := { full with xl := { full.xl with tiles := [(1, some tile1)], nextTile := 2 } }

def row0 : Row := ⟨1, 1, 2, 0, 0, false, 0, 0, 0, false, none⟩

def batch0 : Batch := ⟨0, 0, 1, 3, 0, 1, 0, 0, [row0], [], none, 0, false, 0, (0, 0)⟩

/-- Engine 0 runs a batch of one row. -/
def batching : State := { full with eng := [(0, { Engine.init with running := some (.batch batch0) })] }


def work0 : WorkRun := ⟨9, 0, 1, 1, 1, 0, desc 1, 0, 0, none, 0, 0⟩

/-- Engine 0 runs a WORK of context 1. -/
def working : State := { full with eng := [(0, { Engine.init with running := some (.work work0) })] }

/-- A request of engine 0 for the line at 0x200000, and the line as engine 0 holds it. -/
def ask (op : Nat) : Msg := { msg0 with op := op, line := 16384, tweak := 1 }

def copy0 : Copy := ⟨0, true, .m, 1, 5, false, 0, none⟩

/-- A message from a home to engine 0, and from engine 0 to the home, in flight. -/
def flies (cls : Nat) (m : Msg) : State := { working with coh := { working.coh with copy := [(16384, [copy0])], net := [(cls, m)] } }

def down (op : Nat) : Msg := { ask op with src := 132, dst := 0, state := 2 }

/-- A transaction of engine 0 at home 132 in a phase. -/
def txn0 (op : Nat) (ph : Phase) : Txn := ⟨ask op, ph, [1], none, false, false, false, false⟩

def homing (cls : Nat) (m : Msg) (t : Txn) : State := { flies cls m with coh := { (flies cls m).coh with txns := [t] } }

/-- Fence 7, a LIVE PROXY with the value 4; and a scan that runs. -/
def proxied : State := full.modFence 7 fun _ => { fence5 with kind := .proxy, value := 4, src := some ⟨0, 0, 6, 1⟩ }

/-- A revocation of context 1 that drains, with engine 0 idle and with a row of the old generation on it; a reset of partition 0 that runs. -/
def revoking (s : State) : State := s.modCtx 1 fun x => { x with gen := 2, revoke := some ⟨⟨.part 0, 0, 1⟩, 0, 0, 0, 0⟩ }

def resetting (s : State) : State := s.modPart 0 fun x => { x with st := .resetting, reset := some ⟨none, 9, 0, 0, 0⟩ }

def replay0 (guilty : List Nat) : Replay := ⟨batch0, [2], some 1, guilty⟩

theorem witness_StepRunsFront : ({ world with pending := [.ping k0] } : State).pending = .ping k0 :: [] := rfl

theorem witness_EmptyQueueIdles : (State.reset.pending = [] ∧ State.reset.alive = false) ∧
    (world.pending = [] ∧ world.beat.hold = false ∧ world.beat.plumb ≠ .resync) ∧
    (let s := world.modBeat fun b => { b with plumb := .resync, hold := true, err := 40000 }
     s.pending = [] ∧ s.beat.hold = true) := by decide +kernel

theorem witness_EveryCommandAnswers : Instr.actsStopped (.ping k0) = false ∧ State.reset.alive = false := by decide +kernel

/-- The last slot and the last word; a FREE slot, and one that is SUBMITTED. -/
theorem witness_RequestAreaAndSubmit : (world.reaches = true ∧ world.mbOpen (.part 63) = true ∧ (7 < 8 ∧ 63 < 64) ∧ ((world.mbAt (.part 63)).slotAt 7).st = .free) ∧
    ((own world 3 0 0).reaches = true ∧ (own world 3 0 0).mbOpen (.part 0) = true ∧ ((0#32).toNat % 8 = 0) ∧
      ¬(((own world 3 0 0).mbAt (.part 0)).slotAt 0).st = .free ∧ ¬(((own world 3 0 0).mbAt (.part 0)).slotAt 0).st = .done) := by decide +kernel

/-- A vector that the partition holds (16) and one that it does not (32); a session that ends. -/
theorem witness_DoneClearAndControl : (world.reaches = true ∧ world.mbOpen .debug = true) ∧
    (world.mbOpen (.part 0) = true ∧ (0x00100001#32).getLsbD 1 = false ∧ (world.partAt 0).st ≠ .free ∧ (world.partAt 0).record.hasVector 16 = true ∧
      (world.partAt 0).record.hasVector 32 = false) ∧
    ((own world 3 0 0).reaches = true ∧ (own world 3 0 0).mbOpen (.part 0) = true ∧ (2#32).getLsbD 1 = true ∧ ((own world 3 0 0).mbAt (.part 0)).open_ = true ∧
      Tab.wf Slot.init ((own world 3 0 0).mbAt (.part 0)).slots = true) := by decide +kernel

/-- A width of 16; page 0 and the first offset above the mailbox pages; the last offset of the last mailbox page; the last telemetry page and window. -/
theorem witness_RegisterWrites : (16 ≠ 32) ∧ (4095 < 4096 ∧ 4096 * 68 < 0x100000) ∧
    (66 < 67 ∧ yes ((List.range 8).map fun slot => yes ((List.range 64).map fun word => 4092 != 0x200 + 0x1C0 * slot + 4 * word)) = true) ∧
    (pageMailbox (1 + 66) = some .debug ∧ world.mbOpen .debug = true) ∧
    (63 < 64 ∧ world.reaches = true ∧ world.chip.opened = true ∧ 7 < 8) := by decide +kernel

theorem witness_TickRegisters : (world.reaches = true ∧ world.chip.opened = true) ∧ 64 ≠ 32 := by decide +kernel

/-- The last mailbox page with an open session, and the first without one. -/
theorem witness_SlotStateAndVersionRead : (dbg world 3 0 0).reaches = true ∧ (dbg world 3 0 0).chip.opened = true ∧ 7 < 8 ∧ mbNum .debug < 67 ∧
    pageMailbox (1 + mbNum .debug) = some .debug ∧ ((dbg world 3 0 0).mbAt .debug).open_ = true ∧ pageMailbox (1 + mbNum (.part 0)) = some (.part 0) ∧
    ((dbg world 3 0 0).mbAt (.part 0)).open_ = false := by decide +kernel

/-- A PING under a stale generation fails the common checks; a CTX_CREATE of a context outside the partition fails its own. -/
theorem witness_ChecksDecide :
    (let s := asked world (.part 0) (request 3 0 0 9 0)
     s.alive = true ∧ s.coreStopped 0 = false ∧ s.headRef (.part 0) = some ⟨.part 0, 0, 1⟩ ∧ reqOpcode ((s.mbAt (.part 0)).slotAt 0).req = 3 ∧
     (s.takeSlot ⟨.part 0, 0, 1⟩).checks (.part 0) ((s.mbAt (.part 0)).slotAt 0).req none = some (.staleGeneration, 0)) ∧
    fails (.ctxCreate k0) (own world 0x301 16 (pack [(16, 300), (1, 0)])) = some (.notPermitted, 0x0300) := by decide +kernel

/-- A HELLO under an open session in which slot 1 waits too. -/
def greeting : State := waiting1 (asked world (.part 0) (request 1 16 0 1 (pack [(8, 3), (8, 4), (8, 4)])))

theorem witness_SessionCommands : yes [
    holds (.hello k0) greeting fun c u =>
      c.zeros [(3, 0, 8), (8, 0, 64)] && decide (c.f 1 0 8 ≤ c.f 2 0 8 ∧ c.f 0 0 8 = 3 ∧ c.f 1 0 8 ≤ 4 ∧ 32 ≤ c.space) &&
      ((u.mbAt c.ref.mb).slots.all fun e => e.1 == c.ref.slot || !(e.2.st == .running || e.2.st == .parked)) &&
      decide ((greeting.mbAt c.ref.mb).open_ = true ∧ Tab.wf Slot.init (greeting.mbAt c.ref.mb).slots = true ∧ 1 ≠ c.ref.slot ∧
        ((greeting.mbAt c.ref.mb).slotAt 1).st = .submitted),
    meets (.goodbye k0) (own world 2 0 0), meets (.ping kd) (dbg world 3 0 0), State.reset.chip.powered, State.reset.chip.pending.isSome] = true := by
  decide +kernel

/-- For PART_COMMIT: a set that fails a check, a frame that has passed, an empty set, and a set that waits. -/
theorem witness_StagedSets : yes [
    meets (.partStage km) (mgr world 0x202 224 (pack [(32, 0x1000)])), meets (.spanSet km) (mgr world 0x206 72 7),
    meets (.schedSet k0) (own world 0x401 32 (pack [(8, 1), (8, 5), (16, 1), (16, 1)])), meets (.regSet km) (mgr world 0x501 32 (pack [(8, 3), (8, 1)])),
    meets (.cbgSet k0) (own world 0x601 32 (pack [(8, 0), (8, 0), (16, 3), (16, 16), (8, 1)])),
    meets (.migrateMode k0) (own full 0x904 32 (pack [(8, 0), (8, 0), (16, 64), (16, 256), (16, 128)])),
    meets (.rangeSet km) (chipWide full 0xA01 32 (pack [(8, 4), (8, 0), (16, 12), (16, 0xFFFF), (16, 0), (64, 0x4000000), (64, 0x200000)])),
    meets (.cohModeSet km) (mgr full 0xB01 32 (pack [(8, 1), (8, 2)])),
    meets (.pwrBudgetSet km) (mgr full 0xC01 32 (pack [(8, 0), (8, 0), (8, 4), (8, 8), (16, 100), (8, 24)])),
    meets (.digestSet k0) (own full 0x1001 64 (pack [(8, 1), (8, 1), (8, 0), (8, 4), (16, 1), (8, 1), (8, 0), (32, 0), (16, 4), (16, 0), (64, 0), (64, 0x1000),
      (64, 0), (64, 0), (64, 0x2000)])),
    holds (.partCommit km) (again (staged 0) .manager (request 0x203 8 0xFF 0 0)) fun c u => decide (16 ≤ c.space) && (u.commitChecks (u.mbAt .manager).staged).isNone &&
      (u.effectFrame (c.f 0 0 32)).isSome && !(u.mbAt .manager).staged.isEmpty,
    holds (.partCommit km) (again (staged 0) .manager (request 0x203 8 0xFF 0 1)) fun c u => (u.commitChecks (u.mbAt .manager).staged).isNone &&
      (u.effectFrame (c.f 0 0 32)).isNone,
    holds (.partCommit km) (again (staged 7) .manager (request 0x203 8 0xFF 0 0)) fun _ u => (u.commitChecks (u.mbAt .manager).staged).isSome,
    holds (.partCommit k0) (own world 0x203 8 0) fun c u => (u.commitChecks (u.mbAt (.part 0)).staged).isNone && (u.effectFrame (c.f 0 0 32)).isSome &&
      (u.mbAt (.part 0)).staged.isEmpty] = true := by decide +kernel

/-- Partition 0 being destroyed, with nothing on its engine. -/
def leaving : State := world.modPart 0 fun x => { x with st := .destroying, destroy := some ⟨none, 0, 0, 0⟩ }

def createPay (n : Nat) : Nat := pack [(32, 0x7FF), (8, n), (24, 0), (128, 2), (128, 2), (128, 0xC), (256, 2), (256, 2), (256, 2), (16, 1), (16, 1), (16, 32), (16, 16),
  (32, 0), (32, 0), (32, 0)]

/-- PART_CREATE of the lowest FREE number, and of the last. -/
theorem witness_PartitionLife : yes [
    holds (.partCreate km) (chipWide world 0x201 224 (createPay 0xFF)) fun c u => c.f 4 0 8 == 0xFF && parts.find? (fun p => (u.partAt p).st == .free) == some 1,
    holds (.partCreate km) (chipWide world 0x201 224 (createPay 63)) fun c _ => c.f 4 0 8 == 63,
    meets (.partDestroy km) (mgr world 0x204 8 5), leaving.alive, (leaving.partAt 0).st == .destroying, (leaving.partAt 0).destroy.isSome, leaving.partIdle 0,
    holds (.partQuery km) (mgrFar world 0x205 8 0) (fitsIn fun c u => queryHead u c.part ++ recordFields (u.partAt c.part).record),
    holds (.partQuery km) (mgrFar world 0x205 8 1) (fitsIn fun c u => queryHead u c.part ++ recordFields (u.projected.partAt c.part).record)] = true := by decide +kernel

/-- CTX_CREATE of the lowest FREE context, and of the last of the partition's block. -/
theorem witness_ContextCommands : yes [
    holds (.ctxCreate k0) (own world 0x301 16 (pack [(16, 0), (1, 1)])) fun c u => c.f 2 0 1 == 1 && u.freeCtx c.part == some 2,
    holds (.ctxCreate k0) (own world 0x301 16 (pack [(16, 255), (1, 0), (15, 0), (32, 7)])) fun c _ => c.f 2 0 1 == 0 && c.f 0 0 16 == 255,
    holds (.ctxDestroy k0) (own { world with xl := Xlate.init } 0x302 8 (pack [(16, 1), (8, 1)])) fun _ u => Tab.wf Group.init u.ten.group,
    holds (.ctxQuery k0) (own full 0x305 8 (pack [(8, 0), (24, 0), (16, 1)])) fun c u =>
      decide (((ctxView u c.part (c.f 4 0 16)).map Prod.fst).sum / 8 ≤ c.space),
    holds (.ctxQuery k0) (own full 0x305 8 (pack [(8, 1), (24, 0), (16, 9)])) fun c u =>
      decide (((ringView u (c.f 4 0 20)).map Prod.fst).sum / 8 ≤ c.space)] = true := by decide +kernel

/-- Ring 9 while an unbind of it waits. -/
def unbinding : State := full.modRing 9 fun x => { x with st := .unbinding, unbind := some ⟨⟨.part 0, 7, 9⟩, false, x.prod, 0⟩ }

theorem witness_RingCommands : yes [
    meets (.ringBind k0) (own world 0x303 48 (pack [(20, 9), (12, 0), (16, 1), (8, 1), (2, 0), (6, 0), (8, 2), (8, 4), (16, 0), (16, 0xFFFF), (16, 0), (64, 0),
      (64, 0x1000), (32, 3)])),
    holds (.ringUnbind k0) (own full 0x304 8 (pack [(20, 9)])) fun c u => (u.ringAt (c.f 0 0 20)).st != .unbinding,
    holds (.ringUnbind k0) (own unbinding 0x304 8 (pack [(20, 9), (11, 0), (1, 1)])) fun c u => (u.ringAt (c.f 0 0 20)).st == .unbinding] = true := by decide +kernel

theorem witness_QueriesOnlyAnswer : yes [
    meets (.beatStatus k0) (own world 0x101 0 0), meets (.peerOffsets km) (chipWide world 0x102 0 0),
    holds (.schedQuery k0) (own world 0x402 8 (pack [(8, 0), (24, 0), (16, 0)])) (fitsIn fun c u => schedView u c.part),
    holds (.schedQuery k0) (own world 0x402 8 (pack [(8, 1), (24, 0), (16, 1)])) (fitsIn fun c u => ctxSchedView u c.part (c.f 4 0 16)),
    holds (.regQuery k0) (own world 0x502 8 (pack [(8, 1)])) (fitsIn fun c u => [(8, c.part), (8, (u.partAt c.part).gen.toNat), (16, 0), (32, u.frame)] ++
      regView u c.part (c.f 0 0 8) (c.f 1 0 8) (c.f 2 0 8)),
    holds (.seqQuery k0) (own full 0x704 8 (pack [(8, 0), (24, 0), (17, 2)])) (fitsIn fun c u => seqView u (c.f 4 0 17)),
    holds (.seqQuery k0) (own full 0x704 8 (pack [(8, 1), (24, 0), (17, 1)])) (fitsIn fun c u => reserveView u (c.f 4 0 16)),
    holds (.seqQuery k0) (own full 0x704 8 (pack [(8, 2), (24, 0), (17, 2)])) fun _ _ => true] = true := by decide +kernel

/-- A load of base 9 into slot 0 of group 3 that runs, in the world with a dump and without; one whose bucket has paid, and one whose has not. -/
def loading : State := { full with mem := { full.mem with acts := [{ Activity.new 4 [0, 1] 0 with id := 1, running := true, group := 3, slot := 0 }] } }

def unpaid : State := { full with mem := { full.mem with acts := [{ Activity.new 4 [0, 1] 0 with id := 1, running := true, group := 3, slot := 0, left := [(0, 128)] }] } }

theorem witness_BaseCommands : yes [
    meets (.baseLoad k0) (own full 0x602 40 (pack [(16, 3), (16, 0), (32, 5), (64, 0), (64, 0x800000), (64, 0x200000)])),
    holds (.baseSwap k0) (own full 0x603 8 (pack [(16, 3), (16, 1), (32, 0)])) fun c u => decide (16 ≤ c.space) && (u.effectFrame (c.f 4 0 32)).isSome,
    loading.alive, (loading.mem.acts.find? fun a => a.code == 4 && a.group == 3 && a.slot == 0 && a.running && !a.complete).isSome, loading.log.run.isNone,
    (dumping loading).alive, (dumping loading).log.run.isSome, loading.mem.acts.all Activity.paced, unpaid.mem.acts.all fun a => !a.paced && decide (a.moved < 256)] = true := by decide +kernel

/-- A sequence with a row in flight closes later; the cache of a field that is full, and one that is not. -/
theorem witness_SequenceCommands : yes [
    holds (.seqOpen k0) (own full 0x701 40 (pack [(16, 1), (8, 1), (8, 0), (16, 3), (16, 0), (32, 10), (32, 100), (16, 1), (16, 0), (16, 0xFFFF), (16, 4), (64, 0)]))
      fun c u => u.freeSeq c.part == some 0,
    holds (.seqClose k0) (own full 0x702 8 (pack [(32, 2), (8, 1)])) fun c u => (u.seqAt (c.f 0 0 17)).inFlight == false,
    holds (.seqClose k0) (own (full.modSeq 2 fun q => { q with st := .running, decFly := true }) 0x702 8 (pack [(32, 2), (8, 1)])) fun c u => (u.seqAt (c.f 0 0 17)).inFlight,
    full.alive, (full.seqAt 2).st != .free, full.coreStopped 1 == false, !(full.ten.seqCache.get [] 0).contains 2,
    decide ((full.ten.seqCache.get [] 0).length < 2048),
    decide (2048 ≤ (({ full with ten := { full.ten with seqCache := [(0, List.replicate 2048 5)] } } : State).ten.seqCache.get [] 0).length)] = true := by decide +kernel

theorem witness_ReserveCommands : yes [
    holds (.kvReserveFill k0) (own paged 0x703 12 (pack [(16, 1), (8, 1), (8, 9), (8, 1), (24, 0), (32, 2 ^ 28)])) fun c _ => kvOp c == 0 && c.f 3 3 1 == 1,
    holds (.kvReserveDrain k0) (own { paged with ten := { paged.ten with reserve := [(1, { Reserve.init with fast := [4, 5] })] } } 0x703 8
      (pack [(16, 1), (8, 1), (8, 2), (8, 3)])) fun c _ => kvOp c == 1,
    holds (.kvReserveSetWater k0) (own paged 0x703 8 (pack [(16, 1), (8, 1), (8, 4), (16, 0), (8, 9)])) fun c _ => kvOp c == 2] = true := by decide +kernel

theorem witness_FenceCommands : yes [
    holds (.fenceAlloc k0) (own full 0x801 24 (pack [(16, 1), (8, 1), (8, 0), (16, 9)])) fun c u => u.pickFence c.part (c.f 3 1 2) (c.f 3 5 2) (c.f 4 0 14) == some 9,
    meets (.fenceFree k0) (own full 0x802 8 (pack [(16, 5), (8, 1)])),
    holds (.fenceExport k0) (own full 0x803 16 (pack [(16, 5), (8, 1), (8, 0), (16, 0), (16, 3), (32, 77)])) fun c _ => !isWithdraw c,
    holds (.fenceWithdraw k0) (own full 0x803 16 (pack [(16, 6), (8, 1), (8, 1), (16, 0), (16, 0), (32, 77)])) fun c _ => isWithdraw c] = true := by decide +kernel

def importPay (node : Nat) (key : Nat) : Nat := pack [(16, 1), (8, 1), (8, 0), (16, 9), (16, node), (8, 0), (8, 1), (16, 6), (32, key)]

def picks (c : Cmd) (u : State) : Bool := u.pickFence c.part (c.f 3 0 2) (c.f 3 2 2) (c.f 4 0 14) == some 9

def answerOf (c : Cmd) (u : State) : ImportAns :=
  u.exportAnswer (c.f 6 0 9) c.part (c.f 8 0 6) (c.f 10 0 14) (BitVec.ofNat 8 (c.f 9 0 8)) (BitVec.ofNat 32 (c.f 12 0 32)) false

/-- An own export that allows the import and one that does not; a node that can be reached, and one that has no link; a peer's request granted, refused, and refused
for its width; an import that waits. -/
theorem witness_FenceImports : yes [
    holds (.fenceImport k0) (own full 0x804 24 (importPay 0 77)) fun c u => picks c u && c.f 6 0 9 == u.ownNode && answerOf c u == .grant false 0 0,
    holds (.fenceImport k0) (own full 0x804 24 (importPay 0 78)) fun c u => picks c u && answerOf c u == .refuse,
    holds (.fenceImport k0) (own linked 0x804 24 (importPay 5 77)) fun c u => picks c u && c.f 6 0 9 != u.ownNode && u.reachable (c.f 6 0 9),
    holds (.fenceImport k0) (own { linked with net := Net.init } 0x804 24 (importPay 5 77)) fun c u => picks c u && c.f 6 0 9 != u.ownNode && !u.reachable (c.f 6 0 9),
    linked.alive, linked.coreStopped 6 == false, (linked.net.ports.get Port.init 0).up,
    linked.exportAnswer 0 0 0 6 1 77 false == .grant false 0 0, linked.exportAnswer 0 0 0 6 1 78 false == .refuse, linked.exportAnswer 0 0 0 6 1 77 true == .refuseWidth,
    (linked.importAt (.part 0) 0).isSome, (linked.ctxAt 1).st == .live, linked.otherLife 5 1, !linked.otherLife 5 0] = true := by decide +kernel

theorem witness_ProxiesAndGraph : yes [
    proxied.alive, (proxied.fenceAt 7).st == .live, (proxied.fenceAt 7).kind == .proxy, decide ((proxied.fenceAt 7).judge 5 = .accepted),
    decide ((proxied.fenceAt 7).judge 4 = .stale), decide ({ proxied.fenceAt 7 with compat := true }.judge 0x100000000 = .rejected),
    decide ((proxied.fenceAt 5).kind ≠ .proxy), ({ full with fen := { full.fen with wfg := { Wfg.init with scan := some [] } } } : State).fen.wfg.scan.isSome,
    holds (.wfgRead k0) (own full 0x805 8 0) fun c _ => decide (16 ≤ c.space)] = true := by decide +kernel

def segPay (op : Nat) : Nat :=
  pack [(16, 1), (8, 1), (2, op), (2, 0), (4, 1), (32, 0), (32, 0), (32, 0), (64, 0x100000), (64, 0x10000), (64, 0x104000), (64, 0), (3, 3), (2, 2), (3, 0), (8, 0),
    (16, 0), (8, 0), (8, 1)]

/-- An entry that fits its segment and one that does not; with nothing moving under the segment, and with a tile. -/
theorem witness_SegmentCommands : yes [
    holds (.segSyncLoad k0 (some [0x200005])) (own single 0x901 64 (segPay 0)) fun c u => segOp c == 0 && u.badEntry (segDesc c) [0x200005] == none,
    holds (.segSyncLoad k0 (some [0x20000D])) (own single 0x901 64 (segPay 0)) fun c u => segOp c == 0 && u.badEntry (segDesc c) [0x20000D] == some 0,
    holds (.segSyncEntries k0 (some [0x200005])) (own full 0x901 64 (pack [(16, 1), (8, 1), (2, 1), (2, 0), (4, 0), (32, 1), (32, 1)])) fun c u =>
      segOp c == 1 && u.badEntry (u.segAt (segName c)) [0x200005] == none,
    holds (.segSyncEntries k0 (some [0x20000D])) (own full 0x901 64 (pack [(16, 1), (8, 1), (2, 1), (2, 0), (4, 0), (32, 1), (32, 1)])) fun c u =>
      segOp c == 1 && u.badEntry (u.segAt (segName c)) [0x20000D] == some 0,
    holds (.segSyncUnload k0) (own full 0x901 64 (pack [(16, 1), (8, 1), (2, 2), (2, 0), (4, 0)])) fun c u => segOp c == 2 && (u.movingUnder fun g _ => g == segName c).isEmpty,
    holds (.segSyncUnload k0) (own moving 0x901 64 (pack [(16, 1), (8, 1), (2, 2), (2, 0), (4, 0)])) fun c u => !(u.movingUnder fun g _ => g == segName c).isEmpty,
    meets (.segCheck k0 (some [0x200005])) (own full 0x902 16 (pack [(16, 1), (8, 1), (2, 0), (2, 0), (4, 0), (32, 0), (32, 1)])),
    meets (.segCheck k0 (some [0x210005])) (own full 0x902 16 (pack [(16, 1), (8, 1), (2, 0), (2, 0), (4, 0), (32, 0), (32, 1)]))] = true := by decide +kernel

/-- A drain that waits for tile 1, before and after the tile has gone. -/
def draining : State := { moving with xl := { moving.xl with drains := [⟨⟨.part 0, 0, 1⟩, [1], 1, 0, false⟩] } }

theorem witness_TranslationDrains : yes [
    holds (.tlbInvalidate k0) (own full 0x903 16 (pack [(16, 1), (8, 1), (2, 2), (2, 0), (4, 0), (32, 0), (32, 16)])) fun _ _ => true,
    holds (.tlbInvalidate k0) (own moving 0x903 16 (pack [(16, 1), (8, 1), (2, 1), (2, 0), (4, 0), (32, 0), (32, 0)])) fun c u =>
      !(u.movingUnder fun g _ => g == segName c).isEmpty,
    draining.alive, (draining.xl.drains.find? fun d => d.ref.mb == .part 0 && d.ref.slot == 0).isSome, ([1].any fun i => (draining.xl.tiles.get none i).isSome),
    ([1].any fun i => (full.xl.tiles.get none i).isSome) == false] = true := by decide +kernel

/-- A fault slot whose limit has just passed; a tier move of page 0 that runs, and one that is complete. -/
def faulting : State := { moving with
  xl := { moving.xl with tiles := [(1, some { tile1 with st := .faultWait 3 })], migrate := [(0, { Migrate.init with fault := true, slots := [(3, some ⟨1, 64, 64⟩)] })] } }

def tiering (complete paced : Bool) : State := { full with mem := { full.mem with
  acts := [{ Activity.new 3 [0, 1] 0 with id := 1, running := true, seg := 16, page := 0, destTier := 1, dest := 0x010000400000, complete := complete, left := if paced then [] else [(0, 64)] }] } }

theorem witness_TilesAndWalks : yes [
    batching.alive, decide (batching.runTag 0 (.row 1) = .row 1 ∧ (batching.engAt 0).running = some (.batch batch0) ∧ 0 < batch0.rows.length ∧ batch0.rows.length ≤ 1),
    !batching.streamWaits 0, faulting.streamWaits 0,
    full.keyOf 0 16, (full.segAt 16).valid, decide (3 < (full.segAt 16).pages), (full.tableWord 0 16 3 .clean).2.any entryPresent,
    faulting.alive, decide ((faulting.migrateAt 0).slots.get none 3 = some ⟨1, 64, 64⟩ ∧ (64 : Nat) ≤ 64), (faulting.xl.tiles.get none 1).isSome,
    ({ faulting with xl := { faulting.xl with tiles := [] } } : State).xl.tiles.get none 1 == none,
    (tiering false true).alive, ((tiering false true).actAt 1).any fun a => a.code == 3 && a.running && !a.complete, (tiering false true).log.run.isNone,
    ((tiering false true).tableWord 0 16 0 .clean).2.isSome, ((tiering false true).movingUnder fun g n => g == 16 && n == 0).isEmpty,
    ((tiering false true).actAt 1).any Activity.paced, ((tiering true true).actAt 1).any fun a => a.complete,
    ((tiering false false).actAt 1).any fun a => !a.paced] = true := by decide +kernel

/-- A line that is CLEAR, one that is poisoned, and a key that is loaded. -/
theorem witness_LinesReadAsWritten : yes [
    decide ((world.lineAt 8).st = .clear), decide ((({ world with mem := { world.mem with line := [(8, { Line.init with st := .poisoned })] } } : State).lineAt 8).st = .poisoned),
    (world.genKey 0 (world.newestGen 0)).isSome, decide ((1 : LineMask) ≠ BitVec.allOnes 128)] = true := by decide +kernel

/-- Tile 1 of engine 0 moves under its WORK; a request of its first line, at lane 0 of field 0; and a peer's request for that line over port 0. -/
def lining : State := { working with xl := moving.xl }

def lineReq : GateReq := { req0 with who := .work 0, addr := 0x200000, sel := ⟨0, 1⟩, tile := some 1 }

def peerReq : GateReq := { req0 with who := .peer 5 7 0 0, addr := 0x200000, sel := ⟨0, 65536⟩ }

/-- Every bucket of partition 0's class 0 in field 0 has a ceiling and is empty. -/
def dry (s : State) : State := { s with reg := { s.reg with bucket := [(bucketKey 0 0 0 0, ⟨0, 10, 0, 0, 0, 0, 0, 0, 0, false⟩),
  (bucketKey 0 0 1 0, ⟨0, 10, 0, 0, 0, 0, 0, 0, 0, false⟩)] } }

/-- A lane that holds a request. -/
def queuedAt (s : State) (g : GateReq) : State := { s with mem := { s.mem with lanes := [(0, [⟨g, 0, 81920⟩])] } }

/-- A request whose lane picks it, one whose unit has no credit left and one whose bucket is empty; a DMA write to a range and one outside memory; a peer's request
that its lane picks. -/
theorem witness_GateRequests : yes [
    lining.alive, addrNode 0x200000 == full.ownNode, !lining.pastRows 0 .work, reqTag (lining.oneTag lineReq).who == some (0, .work),
    (lining.reqPart (lining.oneTag lineReq).who).isSome, (lining.formed (lining.oneTag lineReq)).isSome, lining.mem.laneOf.get none 16384 == none,
    (({ lining with mem := { lining.mem with laneOf := [(16384, some 17)] } } : State)).mem.laneOf.get none 16384 == some 17,
    lining.creditLeft 0 (.work 0), (lining.laneAt 0).isEmpty, ((queuedAt lining lineReq).laneNext 0).isSome,
    !((({ lining with mem := { lining.mem with lanes := [(0, List.replicate 600 ⟨lineReq, 0, 81920⟩)] } } : State)).creditLeft 0 (.work 0)),
    ((dry lining).formed ((dry lining).oneTag lineReq)).isSome, ((queuedAt (dry lining) lineReq).laneNext 0).isNone,
    full.gateStep .dma 0x200000 ⟨0, 65536⟩ true == some 2, full.gateStep .debug 0x7000000000 ⟨0, 65536⟩ false == some 1,
    linked.alive, (linked.net.ports.get Port.init 0).up, (linked.laneAt 0).isEmpty, ((queuedAt linked peerReq).laneNext 0).isSome, (queuedAt (dry linked) peerReq).laneNext 0 == none,
    (full.rangeOf 0x200000).isSome, inRegionData 0x005F80000000] = true := by decide +kernel

/-- A SKIM that Lendor queued for range 1. -/
def skimming : State := { full with mem := { full.mem with acts := [{ Activity.new 2 [1] 0 with id := 1 }] } }

def parked : State :=
  { own full 3 0 0 with mem := { full.mem with acts := [{ Activity.new 2 [1] 0 with id := 1, running := true, parked := true, ref := some ⟨.part 0, 0, 1⟩ }] } }.modMb (.part 0)
    fun b => b.modSlot 0 fun x => { x with st := .parked }

theorem witness_MaintenanceCommands : yes [
    holds (.maintStart km) (mgr full 0xA02 32 (pack [(8, 2), (8, 0), (16, 10)])) fun c u => c.f 0 0 8 != 3 && u.queuedSkim (c.f 1 0 7) == none,
    holds (.maintStart km) (mgr skimming 0xA02 32 (pack [(8, 2), (8, 1), (16, 10)])) fun c u => c.f 0 0 8 == 2 && (u.queuedSkim (c.f 1 0 7)).isSome,
    holds (.maintStart k0) (own full 0xA02 32 (pack [(8, 3), (8, 0), (16, 0), (16, 1), (8, 1), (4, 0), (4, 1), (32, 0), (32, 0), (64, 0x010000400000)])) fun c u =>
      c.f 0 0 8 == 3 && (u.tableWord c.part (segKey c.part (c.f 4 0 16) (c.f 7 0 4)) (c.f 8 0 32) .clean).2.isSome,
    meets (.maintQuery k0) (own full 0xA03 8 1),
    parked.alive, decide (((parked.mbAt (.part 0)).slotAt 0).st = .parked),
    (parked.mem.acts.find? fun a => a.running && a.parked && a.ref == some ⟨.part 0, 0, ((parked.mbAt (.part 0)).slotAt 0).ticket⟩).isSome,
    decide (((world.modRange 3 fun x => { x with st := .clearing }).rangeAt 3).st = .clearing), (world.modRange 3 fun x => { x with st := .clearing }).linesWf] = true := by decide +kernel

/-- Engine 0 in S3-compatible mode; and with a TICKET that home 132 has given it. -/
def compat0 (s : State) : State := s.modEng 0 fun x => { x with compat := true }

def ticketed : State := { compat0 working with coh := { working.coh with granted := [(132, [(0, 0)])] } }

/-- What `orders` asks of each request of the rows: of a native agent, of an S3-compatible one at a line that is not blocked, and on a TICKET. -/
theorem witness_CoherenceRequests : yes ([0x04, 0x05, 0x06, 0x07, 0x08, 0x0C, 0x0D, 0x10].map (fun op =>
    let m := ask op
    let who : Requester := if op = 0x0C ∨ op = 0x0D then .lendor 0 0 0 else .work 0
    let hear := fun (s : State) (m : Msg) => s.alive && s.goodReq m && s.domainOpen m.domain && (s.engAt m.src).st != .resetting && s.cohWho m == some who &&
      (s.gateStep who (m.line * 128) ⟨m.range, m.tweak⟩ (op == 0x08 || op == 0x0C || op == 0x10)).isNone
    hear working m && working.hasEntry m.dst m.domain m.src && !working.compatAgent m.src && !working.bucketEmpty (working.cohCharged m) (m.line * 128) &&
    hear (compat0 working) m && (compat0 working).hasEntry m.dst m.domain m.src && (compat0 working).compatAgent m.src && !(compat0 working).lineBusy m.line &&
      !(compat0 working).bucketEmpty ((compat0 working).cohCharged m) (m.line * 128) &&
    hear ticketed { m with ticket := true })) = true := by decide +kernel

/-- A line with no copy, one whose owner is another engine, and one under another tweak. -/
theorem witness_TransactionsStart : yes [
    !((working.copies 16384).any fun c => c.tweak != 1), (working.others (ask 0x04)).isEmpty,
    ((({ working with coh := { working.coh with copy := [(16384, [{ copy0 with agent := 1 }])] } } : State).others (ask 0x04)).any fun c => c.own),
    (({ working with coh := { working.coh with copy := [(16384, [{ copy0 with tweak := 2 }])] } } : State).copies 16384).any fun c => c.tweak != 1] = true := by
  decide +kernel

/-- A message in flight that may arrive. -/
def lands (s : State) (cls : Nat) (m : Msg) : Bool :=
  s.alive && decide (s.coh.net.find? (sameMsg cls m) = some (cls, m)) &&
    (!decide (132 ≤ m.dst ∧ m.dst ≤ 135) || (m.reserved == 0 && s.inDomain m.src m.domain)) && (cls != 1 || !s.overtakes m)

/-- Each message at its agent; a FILL for a copy, and one that comes straight from an owner to an agent without one. -/
theorem witness_MessagesAtAgents : yes (([4, 5, 6, 7].map fun op => lands (flies 1 (down op)) 1 (down op)) ++ ([1, 4, 8, 9].map fun op => lands (flies 2 (down op)) 2 (down op)) ++ [
    lands (flies 3 (down 0x01)) 3 (down 0x01), decide ((down 0x01).status = .ok ∧ (down 0x01).state ≠ 0), lands (flies 3 { down 0x01 with state := 0 }) 3 { down 0x01 with state := 0 },
    (flies 3 (down 0x01)).coh.txns.isEmpty,
    (let s : State := { flies 3 (down 0x01) with coh := { (flies 3 (down 0x01)).coh with copy := [], txns := [{ txn0 0x04 .probing with direct := true }] } }
     lands s 3 (down 0x01) && ((s.delivered 3 (down 0x01)).coh.txns.any fun t => t.req.src == 0 && t.req.txn == (down 0x01).txn && t.req.line == 16384 && t.direct) &&
       ((s.delivered 3 (down 0x01)).copies 16384).isEmpty)]) = true := by decide +kernel

/-- DONE_ACK of a transaction that waits for it and of one that does not; STORE_DATA of a store, of an ATOMIC and in the control domain; a DONE_ACK that fits nothing. -/
theorem witness_MessagesAtHomes : yes [
    lands (homing 2 (ask 0x03) (txn0 0x04 .probing)) 2 (ask 0x03), lands (homing 3 (ask 0x02) (txn0 0x04 .probing)) 3 (ask 0x02),
    lands (homing 2 (ask 0x02) (txn0 0x04 .acking)) 2 (ask 0x02), lands (homing 3 (ask 0x03) (txn0 0x0C .writing)) 3 (ask 0x03),
    lands (homing 3 (ask 0x04) (txn0 0x08 .writing)) 3 (ask 0x04),
    decide (((homing 2 (ask 0x02) (txn0 0x04 .acking)).delivered 2 (ask 0x02)).txnOf 0 132 1 = some (txn0 0x04 .acking)),
    decide (((homing 2 (ask 0x02) (txn0 0x04 .probing)).delivered 2 (ask 0x02)).txnOf 0 132 1 = some (txn0 0x04 .probing)),
    decide (((homing 3 (ask 0x03) (txn0 0x0C .writing)).delivered 3 (ask 0x03)).txnOf 0 132 1 = some (txn0 0x0C .writing)),
    decide (((homing 3 (ask 0x04) (txn0 0x10 .writing)).delivered 3 (ask 0x04)).txnOf 0 132 1 = some (txn0 0x10 .writing)),
    decide (((homing 3 (ask 0x04) (txn0 0x08 .writing)).delivered 3 (ask 0x04)).txnOf 0 132 1 = some (txn0 0x08 .writing)),
    decide (((homing 3 (ask 0x04) { txn0 0x08 .writing with req := { ask 0x08 with domain := 64 } }).delivered 3 (ask 0x04)).txnOf 0 132 1 =
      some { txn0 0x08 .writing with req := { ask 0x08 with domain := 64 } }),
    decide (working.coh.net.find? (sameMsg 2 (ask 0x02)) = none ∧ 132 ≤ (ask 0x02).dst ∧ (ask 0x02).dst ≤ 135 ∧ (ask 0x02).reserved = 0), working.inDomain 0 0,
    !working.outstanding (ask 0x02), (homing 3 (ask 0x03) (txn0 0x04 .acking)).outstanding (ask 0x02),
    decide ((homing 3 (ask 0x03) (txn0 0x04 .acking)).coh.net.find? (sameMsg 2 (ask 0x02)) = none)] = true := by
  decide +kernel

theorem witness_CoherenceErrors : yes [
    (homing 2 (ask 0x03) (txn0 0x04 .probing)).alive, decide (txn0 0x04 .probing ∈ (homing 2 (ask 0x03) (txn0 0x04 .probing)).coh.txns ∧ (1 : Nat) ∈ (txn0 0x04 .probing).need),
    working.inDomain 0 0, decide ((flies 1 (down 0x04)).copies 16384 ≠ [] ∧ lineField (16384 * 128) = 0), !inControl (16384 * 128),
    decide ((flies 1 (down 0x04)).rangeOf (16384 * 128) = some 0), inControl 0x005F80000000,
    decide (({ working with coh := { working.coh with copy := [(0x005F80000000 / 128, [{ copy0 with agent := 140 }])] } } : State).copies (0x005F80000000 / 128) ≠ [])] = true := by decide +kernel

/-- Partition 0 in a power state on its way to a target. -/
def powered (st : PowSt) (target left : Nat) : State := world.modPow 0 fun x => { x with st := st, target := target, left := left }

/-- A move to the state that stands and to another; each event of a move for both of its targets; a WORK that is ready for a partition in L2. -/
theorem witness_PowerMoves : yes [
    holds (.pwrStateSet k0) (own full 0xC02 8 0) fun c u => decide ((u.powAt c.part).st = powOf (c.f 0 0 2)),
    holds (.pwrStateSet k0) (own full 0xC02 8 2) fun c u => decide ((u.powAt c.part).st ≠ powOf (c.f 0 0 2)),
    (powered .draining 3 0).alive, decide (((powered .draining 3 0).powAt 0).st = .draining ∧ ((powered .draining 3 0).powAt 0).step = false),
    (powered .draining 3 0).partIdle 0, (powered .draining 2 0).partIdle 0,
    decide (((powered .saving 3 0).powAt 0).st = .saving ∧ ((powered .saving 3 0).powAt 0).left = 0),
    decide (((powered .restoring 2 0).powAt 0).st = .restoring ∧ ((powered .restoring 0 0).powAt 0).left = 0), (powered .restoring 2 0).slotsGood 0,
    !((powered .restoring 2 0).markSlot 0 (some (0, 1))).slotsGood 0, !((homing 2 (ask 0x03) (txn0 0x04 .probing)).engQuiet 0), full.engQuiet 0,
    (let s := (next 1).modPow 0 fun x => { x with st := .l2, wake := true }
     decide ((s.partAt 0).st = .live ∧ (s.powAt 0).wake = true ∧ (s.powAt 0).busy = false ∧ (s.powAt 0).st = .l2 ∧ s.work 0 0 ≠ [] ∧ s.out.low = false))] = true := by
  decide +kernel

/-- Field 3 with its sensor 255 tripped for some boundaries, and other sensors of it. -/
def tripping (n others : Nat) : State := world.modCapo 3 fun c => { c with tripped := (255, n) :: (List.range others).map fun i => (192 + i, 1) }

theorem witness_LowAndCapo : yes [
    ((tripping 64 59).capoAt 3).maskDue 255, !((tripping 64 60).capoAt 3).maskDue 255, !((tripping 63 0).capoAt 3).maskDue 255, !((tripping 64 0).capoAt 3).masked.contains 255,
    world.alive, !world.out.low, ({ world with out := { world.out with low := true } } : State).alive, decide (255 / 64 = 3 ∧ 255 ∉ (world.capoAt 3).masked),
    decide (((world.modCapo 3 fun c => { c with st := .whole }).capoAt 3).st = .whole), decide (((world.modCapo 3 fun c => { c with st := .reassigned }).capoAt 3).st = .reassigned),
    (let s := world.modCapo 3 fun c => { c with st := .ramp }
     decide ((s.capoAt 3).st = .ramp) && (fieldEngines 3).all (fun e => decide (15 ≤ s.pwr.keep.get 16 e))),
    (let s := ({ world with pwr := { world.pwr with keep := [(96, 8)] } } : State).modCapo 3 fun c => { c with st := .ramp }
     decide (96 / 32 = 3 ∧ s.pwr.keep.get 16 96 < 15))] = true := by decide +kernel

/-- A request to destroy slot 12 whose slot holds its MAC under slot 0; and what Hawk relays of it, as it is and altered. -/
def maced : State :=
  (sec full 0xD02 8 12).modMb .security fun b => b.modSlot 0 fun x => { x with mac := (sec full 0xD02 8 12).pageMac x.req }

def relayed (pay : Nat) : Take := { ks with altered := some (request 0xD02 8 0xFF 0 pay) }

theorem witness_KeyCommands : yes [
    meets (.keyDerive ks) (sec full 0xD01 32 (pack [(16, 20), (8, 0), (8, 0), (8, 0xFF), (24, 0), (64, 99)])), meets (.keyDestroy ks) (sec full 0xD02 8 12),
    maced.alive, !maced.coreStopped 0, maced.headRef .security == some ⟨.security, 0, 1⟩, islandServes .security 0xD02, (opInfo 0xD02).isSome,
    ((maced.takeSlot ⟨.security, 0, 1⟩).checks .security (request 0xD02 8 0xFF 0 12) none).isNone, !maced.forged (relayed 12) ⟨.security, 0, 1⟩,
    maced.forged (relayed 13) ⟨.security, 0, 1⟩] = true := by
  decide +kernel

/-- A transition that has made some of its steps. -/
def going (row steps : Nat) : State := { world with sec := { world.sec with run := some ⟨row, steps, none, false⟩ } }

/-- Row 1 (to PROVISION) and row 6 (to SCRAP); each step of row 3, with the last. -/
theorem witness_LifeCycleSteps : yes [
    holds (.lcTransition ks) (sec { world with org := Org.init, mem := Mem.init } 0xD03 8 (pack [(32, 2), (32, 0x4C435458)])) fun c u =>
      lcOf (c.f 0 0 8) == some .provision && lcRow u.sec.lc .provision == some 1,
    holds (.lcTransition ks) (sec world 0xD03 8 (pack [(32, 5), (32, 0x4C435458)])) fun c u => lcOf (c.f 0 0 8) == some .scrap && lcRow u.sec.lc .scrap == some 6,
    (going 3 0).alive, (going 3 0).lcNext == some (3, 1), (going 9 0).lcNext == some (9, 1), parts.all fun p => (({ going 9 0 with org := Org.init } : State).partAt p).st == .free,
    (going 3 1).lcNext == some (3, 2), (going 3 2).lcNext == some (3, 3), (going 3 3).lcNext == some (3, lcSteps 3), (going 0 1).lcNext == some (0, lcSteps 0)] = true := by
  decide +kernel

def challenged : State := { world with sec := { world.sec with challenge := some ⟨1, 8202, 5, 0x1F⟩ } }

/-- A response for the open challenge that every test passes. -/
def respPay : Nat := pack [(16, 1), (16, 0), (32, 1), (256, 5), (128, 0), (8, 0x1F), (8, 2), (8, 1), (40, 0), (768, makerPub), (768, respSig)]

def response : State := asked (made challenged) .debug (request (0xD06 + 65536) 16 0xFF 0 (pack [(64, 0), (32, 256)]))

theorem witness_DebugRights : yes [
    holds (.dbgCertLoad ⟨.debug, some certPay, none⟩ ()) (dbgFar (made world) 0xD04 264) fun c _ => certLoad c,
    fails (.dbgCertLoad ⟨.debug, some (certPay + 2 ^ 288), none⟩ ()) (dbgFar (made world) 0xD04 264) == some (.notPermitted, 0x0D21),
    holds (.dbgCertClear kd) (dbg world 0xD04 8 1) fun c _ => c.f 0 0 8 == 1,
    holds (.dbgCertRevoke kd) (dbg world 0xD04 8 (pack [(8, 2), (8, 3)])) fun c _ => c.f 0 0 8 == 2,
    meets (.dbgChallenge kd 5) (dbg world 0xD05 8 0x1C),
    holds (.dbgResponse ⟨.debug, some respPay, none⟩ ()) response fun c u => (firstFail (dbgResponseChecks u)).isNone && u.challengeNamed c &&
      (firstFail (grantTests u (makerSigned u c 0 160) (c.f 40 0 128) (c.f 57 0 8))).isNone,
    holds (.dbgResponse ⟨.debug, some (respPay + 2 ^ 1280), none⟩ ()) response fun c u => (firstFail (dbgResponseChecks u)).isNone &&
      (firstFail (grantTests u (makerSigned u c 0 160) (c.f 40 0 128) (c.f 57 0 8))).isSome] = true := by decide +kernel

/-- Dirty logging's BEGIN, with a window of the host; and a FLIP and a STOP of a log that runs. -/
theorem witness_DirtyLogCommands : yes [
    holds (.dirtyLogBegin km) (mgr world 0xE01 64 (pack [(64, 0), (64, 0x10000), (64, 0x20000), (32, 0x8000), (32, 0), (64, 0x100000), (64, 0x10000)])) fun c _ =>
      decide (16 ≤ c.space ∧ c.f 0 0 1 = 0),
    holds (.dirtyLogFlip km) (mgr logging 0xE01 64 1) fun c _ => c.f 0 0 1 == 1, meets (.dirtyLogStop km) (mgr logging 0xE02 8 0)] = true := by decide +kernel

theorem witness_RecoveryCommands : yes [
    meets (.ctxRevoke k0) (own full 0xF01 8 (pack [(16, 1), (8, 1)])), (revoking full).alive, ((revoking full).ctxAt 1).revoke.isSome,
    (revoking full).revokeDrained 1, !(revoking batching).revokeDrained 1,
    holds (.partReset km) (mgr full 0xF02 16 (pack [(64, 0), (32, 9)])) fun c _ => !isConfig c,
    holds (.partResetConfig km) (mgr full 0xF02 16 (pack [(16, 1), (16, 300), (16, 64)])) fun c _ => isConfig c,
    (resetting full).alive, decide (((resetting full).partAt 0).reset = some ⟨none, 9, 0, 0, 0⟩ ∧ ((resetting full).partAt 0).st = .resetting),
    (resetting full).partIdle 0, !(resetting batching).partIdle 0] = true := by decide +kernel

/-- Engine 0's job at `watchdog_frames` and before; an engine that resets; a suspect at `replay_frames`, the first guilty one and the second. -/
def hung (wd : Nat) (r : Option Replay) : State := batching.modEng 0 fun x => { x with wd := wd, replay := r }

theorem witness_WatchdogsAndErrors : yes [
    (hung 256 none).alive, decide (((hung 256 none).engAt 0).running = some (.batch batch0) ∧ (hung 256 none).coreStopped 1 = false ∧
      ((hung 256 none).partAt batch0.part).wdFrames ≤ ((hung 256 none).engAt 0).wd ∧ ((hung 256 none).partAt batch0.part).st = .live),
    decide (((hung 255 none).engAt 0).wd < ((hung 255 none).partAt batch0.part).wdFrames), decide (((resetting (hung 256 none)).partAt 0).st ≠ .live),
    decide (((hung 0 none).modEng 0 fun x => { x with st := .resetting }).alive = true ∧ (((hung 0 none).modEng 0 fun x => { x with st := .resetting }).engAt 0).st = .resetting),
    decide (((hung 64 (some (replay0 []))).partAt 0).replayFrames ≤ ((hung 64 (some (replay0 []))).engAt 0).wd ∧
      ((hung 64 (some (replay0 []))).engAt 0).replay = some (replay0 []) ∧ (replay0 []).now = some 1 ∧ ((hung 64 (some (replay0 []))).engAt 0).running.isSome = true),
    decide ((replay0 [3]).guilty ≠ []), ((hung 0 none).modEng 0 fun x => { x with st := .resetting }).engQuiet 0,
    !((homing 2 (ask 0x03) (txn0 0x04 .probing)).modEng 0 fun x => { x with st := .resetting }).engQuiet 0,
    decide (16 ≤ ((world.modCore 8 fun c => { c with missed := 16 }).coreAt 8).missed ∧ (world.coreAt 8).missed < 16),
    decide (64 ≤ (world.modBeat fun b => { b with hbMissed := 64 }).beat.hbMissed ∧ world.beat.hbMissed < 64), world.alive, (List.range 9).all (fun core => !world.coreStopped core), world.chip.pending.isNone] = true := by decide +kernel

/-- A log whose record 1 partition 0 may read; dump 1 in slot 0. -/
def dumped : State := { full with log := { full.log with slot0 := some ⟨1, 0, 0, 0, 100, 0, 0, [], []⟩, slot1 := some ⟨0, 0, 0, 0, 0, 0, 0, [], []⟩ } }

theorem witness_DumpsAndLog : yes [
    meets (.dumpStart km) (chipWide full 0xF03 8 7), (dumping full).alive, (dumping full).log.run.isSome,
    holds (.logRead k0 0) (own full 0xF04 16 0) fun c _ => c.f 0 0 8 == 0,
    holds (.logRead km 0) (chipWide full 0xF04 16 1) fun c _ => c.f 0 0 8 == 1,
    holds (.logRead km 0) (chipWide dumped 0xF04 16 (pack [(8, 2), (24, 0), (32, 9)])) fun c u => c.f 0 0 8 == 2 && (u.log.dumpOf (c.f 4 0 32)).isNone,
    holds (.logRead km 0) (chipWide dumped 0xF04 16 (pack [(8, 2), (24, 0), (32, 1)])) fun c u => c.f 0 0 8 == 2 && (u.log.dumpOf (c.f 4 0 32)).isSome] = true := by
  decide +kernel

/-- Core 2 with its breakpoint 1 armed, and the count of hits that stops it. -/
def armed (count : Nat) : State := { world with watch := { world.watch with
  core := [(2, { Core.init with bps := [(1, { Bp.init with armed := true, count := count })] })] } }

/-- Probe 7 of partition 0 at the end of its window, with a line and without. -/
def probing_ (lines : Nat) : State := { full with watch := { full.watch with
  probe := [(7, { Probe.init with armed := true, window := 4, frames := 4, acc := { Digest.zero with lines := lines } })] } }

theorem witness_Observation : yes [
    holds (.breakSet kd) (dbg broken 0x1003 16 (pack [(2, 0), (6, 0), (4, 2), (2, 1), (2, 0), (16, 0), (32, 64), (32, 0), (32, 5)])) fun c u =>
      (firstFail (breakHead c u)).isNone && breakOp c == 0,
    holds (.breakClear kd) (dbg broken 0x1003 16 (pack [(2, 1), (6, 0), (4, 2), (2, 1)])) fun c u => (firstFail (breakHead c u)).isNone && breakOp c == 1,
    holds (.breakResume kd) (dbg broken 0x1003 16 (pack [(2, 2), (6, 0), (4, 2), (2, 1)])) fun c u => (firstFail (breakHead c u)).isNone && decide ((u.coreAt 2).st = .held),
    holds (.breakResume kd) (dbg world 0x1003 16 (pack [(2, 2), (6, 0), (4, 2), (2, 1)])) fun c u => (firstFail (breakHead c u)).isNone && decide ((u.coreAt 2).st ≠ .held),
    holds (.breakQuery kd) (dbg broken 0x1003 16 (pack [(2, 3), (6, 0), (4, 2), (2, 1)])) fun c u => (firstFail (breakHead c u)).isNone && breakOp c == 3,
    (armed 1).alive, decide (((armed 1).bpAt 2 1).armed = true ∧ (armed 1).coreStopped 2 = false ∧ (armed 1).hasRight 3 = true ∧ (armed 1).out.low = false ∧
      ((armed 1).bpAt 2 1).count ≤ ((armed 1).bpAt 2 1).hits + 1), decide (((armed 2).bpAt 2 1).hits + 1 < ((armed 2).bpAt 2 1).count), !(world.bpAt 7 3).armed,
    meets (.traceSet kd) (dbg full 0x1002 32 (pack [(8, 0), (8, 3)])), world.watch.trace.lost.isEmpty,
    decide ((world.pairAt 4).code ≠ 6 ∧ (world.pairAt 4).code ≠ 2 ∧ (world.pairAt 4).bad < 3),
    decide (3 ≤ (({ world with board := { world.board with pair := [(4, ⟨0, 3, 0⟩)] } } : State).pairAt 4).bad),
    (probing_ 0).alive, decide (((probing_ 0).probeAt 0 7).armed = true ∧ ((probing_ 0).probeAt 0 7).window ≤ ((probing_ 0).probeAt 0 7).frames ∧ (probing_ 0).coreStopped 7 = false ∧
      ((probing_ 0).probeAt 0 7).acc.lines = 0 ∧ ((probing_ 0).probeAt 0 7).acc.unseen = 0), decide (((probing_ 1).probeAt 0 7).acc.lines ≠ 0)] = true := by decide +kernel

def push9 : State := full.modRing 9 fun x => { x with fmt := 3 }

/-- A value that ring 9 takes and one that it does not; a page of no partition; a push to a ring of format 2, and to one of format 3. -/
theorem witness_DoorbellsAndPushes : yes [
    full.alive, full.barOpen, decide (15 % 16 = 15), full.pageTakes 9, !full.pageTakes 1048575,
    decide ((full.ringAt 9).st = .active ∧ (full.ringAt 9).takes 2 = true ∧ (full.ringAt 9).takes 1 = true ∧ (full.ringAt 9).takes 4000 = false),
    decide ((full.ringAt 9).fmt ≠ 3), decide ((push9.ringAt 9).st = .active ∧ (push9.ringAt 9).fmt = 3 ∧ (push9.ringAt 9).takes ((push9.ringAt 9).prod + 1) = true),
    push9.pageTakes 9,
    decide ((push9.objWriteAs (.push 9 1) 0 1 0 64 0 5).2 ≠ .failed), decide ((push9.objWriteAs (.push 9 1) 0 1 0x800000 64 0 5).2 = .failed)] = true := by decide +kernel

/-- Ring 9 with a fill due and one entry to fetch, whose bytes stand in its pushed copy. -/
def filling : State := full.modRing 9 fun x => { x with fill := true }

def fetching (type : Nat) : State := full.modRing 9 fun x => { x with fmt := 3, prod := 2, fetch := 1, done := 1, pushed := [(1, (desc type).bits)] }

/-- A descriptor in memory whose bucket is empty. -/
def waitingFetch : State := (dry (fetching 0)).modRing 9 fun x => { x with pushed := [] }

theorem witness_RingFillsAndFetches : yes [
    filling.alive, decide ((filling.ringAt 9).fill = true ∧ (filling.ringAt 9).st ≠ .unbound ∧ filling.coreStopped 1 = false), (filling.cacheRing 9).isSome,
    !full.fetches 9, (fetching 0).alive, (fetching 0).fetches 9, ((fetching 0).ringAt 9).pushed.any fun e => e.1 == 1,
    decide ((waitingFetch.ringAt 9).pushed = [] ∧ waitingFetch.fetches 9 = true ∧ waitingFetch.objWaits 0 1 (0 + 64 * (1 % 16)) 0 false = true), decide ((⟨1, (desc 5).bits, 10⟩ : Desc).type = 5),
    ((fetching 0).fetchStatus 0 ((fetching 0).ringAt 9) (desc 0)).isNone, decide ((desc 0).partGen = ((fetching 0).partAt 0).gen.toNat),
    decide ((⟨0, 0, 0⟩ : Desc).partGen ≠ (full.partAt 0).gen.toNat), decide ((full.ctxAt 3).st ≠ .live),
    decide ((⟨0, BitVec.ofNat 512 (pack [(8, 1), (8, 0), (8, 1), (8, 9)]), 0⟩ : Desc).ctxGen ≠ (full.ctxAt 1).gen.toNat)] = true := by decide +kernel

/-- A descriptor of format 3 with its fields from byte 16. -/
def field3 (type from16 : Nat) : Desc := ⟨0, BitVec.ofNat 512 (pack [(8, type), (8, 0), (8, 1), (8, 1), (32, 0), (16, 0), (48, 0)] + from16 * 2 ^ 128), 10⟩

def next3 (d : Desc) : State := { full with ten := { full.ten with ring := [(9, { ring9 with fmt := 3, queue := [d] })] } }

/-- The same on a context that is LOST. -/
def lost (s : State) : State := s.modCtx 1 fun x => { x with st := .lost }

def waits (n v : Nat) : Desc := field3 3 (pack [(64, n), (64, v)])

def signals (n v : Nat) : Desc := field3 4 (pack [(64, n), (64, v)])

/-- Ring 9's WORK with deficit of its context left in field 0. -/
def ready : State := { next 1 with ten := { (next 1).ten with ctxf := [(4, { CtxField.init with deficit := 100 })] } }

theorem witness_Descriptors : yes ([0, 1, 2, 3, 4].map (fun t => (next3 (field3 t 0)).alive && ((next3 (field3 t 0)).head 9 t).isSome &&
      decide (((next3 (field3 t 0)).ctxAt 1).st = .live) && decide (((lost (next3 (field3 t 0))).ctxAt 1).st ≠ .live)) ++ [
    decide ((next3 (waits 5 0)).fenceFits 0 5 0 = true ∧ ((next3 (waits 5 0)).fenceAt 5).satisfies 0 = true ∧ ((next3 (waits 5 0)).fenceAt 5).satisfies 1 = false),
    !(next3 (waits 9 0)).fenceFits 0 9 0, decide ((((next3 (waits 5 0)).modFence 5 fun f => { f with st := .abandoned }).fenceAt 5).st = .abandoned),
    decide (((next3 (signals 5 0)).fenceAt 5).kind = .plain ∧ ((next3 (signals 5 0)).fenceAt 5).owner = 1), decide ((proxied.fenceAt 7).kind ≠ .plain),
    decide ((full.partAt 0).record.hasSeq 2 = true ∧ (full.seqAt 2).st = .filling ∧ (full.seqAt 2).ctx = 1 ∧ (full.seqAt 2).chunks.length < 2 ∧
      (full.seqAt 2).queuedEnd = 0 ∧ 0 + 100 ≤ (full.seqAt 2).prompt ∧ (full.seqAt 2).prompt < 0 + 101),
    !(full.partAt 0).record.hasSeq 131071, decide (((full.modSeq 2 fun q => { q with st := .failed }).seqAt 2).st = .failed),
    (let t := ready.floorSettle.settle 0
     t.cycleFor 0 (t.candidates 0) == some (0, false) && (match t.offers 0 0 with | o :: _ => o.eng == 0 && o.work.id == 9 && o.desc.isSome | [] => false)),
    (let t := (next 1).floorSettle.settle 3
     t.cycleFor 3 (t.candidates 3) == none)]) = true := by decide +kernel

/-- A native fence at 7 and a COMPAT fence whose value has just passed the WAIT's around the circle. -/
theorem witness_WaitsAndSignals : yes [
    decide ((next3 (signals 5 3)).head 9 4 = some (signals 5 3) ∧ (next3 (signals 5 3)).fenceFits 0 5 3 = true ∧ ((next3 (signals 5 3)).fenceAt 5).judge 3 = .accepted ∧
      ((next3 (signals 5 3)).fenceAt 5).judge 0 = .stale ∧ ((next3 (signals 5 3)).fenceAt 5).judge (BitVec.allOnes 64) = .rejected),
    decide (fence5.st = .live ∧ fence5.compat = false), decide (({ fence5 with compat := true } : Fence).st = .live),
    decide ((next3 (waits 5 0)).head 9 3 = some (waits 5 0) ∧ (next3 (waits 5 0)).alive = true ∧ ((next3 (waits 5 0)).ctxAt 1).st = .live ∧ ((next3 (waits 5 0)).fenceAt 5).st = .live ∧
      (next3 (waits 5 0)).fenceFits 0 ((waits 5 0).fence 3) ((waits 5 0).value 3) = true ∧ ((next3 (waits 5 0)).fenceAt 5).satisfies 0 = true),
    decide ((next3 (waits 5 1)).head 9 3 = some (waits 5 1) ∧ ((next3 (waits 5 1)).fenceAt 5).satisfies 1 = false)] = true := by decide +kernel

theorem witness_EngineReports : yes [
    working.alive, decide ((working.engAt 0).running = some (.work work0) ∧ work0.failed = none), decide ((working.ctxAt work0.ctx).gen = work0.ctxGen),
    decide ((working.partAt work0.part).gen = work0.partGen), decide (((revoking working).ctxAt work0.ctx).gen ≠ work0.ctxGen),
    decide (((working.modPart 0 fun p => { p with gen := 2 }).partAt work0.part).gen ≠ work0.partGen), batching.alive,
    decide ((batching.engAt 0).running = some (.batch batch0) ∧ (batching.engAt 0).replay = none), (batching.modEng 0 fun x => { x with replay := some (replay0 []) }).alive,
    decide ((working.engAt 1).running = none), !working.writesWait 0,
    ({ working with xl := { working.xl with tiles := [(1, some { tile1 with req := { tile1.req with write := true } })] } } : State).writesWait 0] = true := by decide +kernel

/-- A field with a ring that has a WORK ready, and one with nothing; a boundary with each action of the floor due. -/
theorem witness_Admission : yes [
    ready.alive,
    (let u := ready.floorSettle.settle 0
     (u.cycleFor 0 (parts.filter fun p => !(u.serving p 0).isEmpty && !(u.offers p 0).isEmpty)).isSome),
    (let u := full.floorSettle.settle 3
     (u.cycleFor 3 (parts.filter fun p => !(u.serving p 3).isEmpty && !(u.offers p 3).isEmpty)).isNone),
    (let s := ({ world with beat := { world.beat with due := [5] } } : State)
     decide (s.alive = true ∧ 5 ∈ s.beat.due ∧ 50 ∉ s.beat.due)),
    (let s := ({ world with beat := { world.beat with due := [50, 51] } } : State)
     decide (s.alive = true ∧ 50 ∈ s.beat.due ∧ 51 ∈ s.beat.due ∧ Tab.wf CtxField.init s.ten.ctxf = true))] = true := by decide +kernel

/-- Plumb in a state, with the counter's error. -/
def beats (st : Plumb) (tick : Nat) (err : Int) : State := world.modBeat fun b => { b with plumb := st, tick := BitVec.ofNat 64 tick, err := err }

/-- A correction that slews, one that steps and one that holds, each at its limit; a held boundary, and one that has still to fire. -/
theorem witness_FrameBoundaries : yes [
    State.reset.beat.run == false, decide (world.alive = true ∧ world.beat.run = true ∧ world.beat.hold = false ∧ world.beat.fire = false ∧ world.beat.plumb ≠ .resync),
    (world.modBeat fun b => { b with fire := true }).beat.fire,
    decide ((beats .resync 81920 32768).beat.err.natAbs ≤ 4 * 8192), decide ((beats .resync 81920 (-32769)).beat.err < -(4 * 8192)),
    decide (4 * 8192 < (beats .resync 81920 32769).beat.err), decide (((beats .resync 81920 0).modBeat fun b => { b with hold := true }).beat.hold = true)] = true := by
  decide +kernel

def due (l : List Nat) : State := world.modBeat fun b => { b with due := l }

def rewriting : State :=
  let s := full.putWords 0 (2 ^ 20 + 1) 0 [0x010000200003]
  let t := (List.range 32).foldl (fun t i => t.copyWrite false 0 1 (0x010000200000 + 128 * i) (tweakOf 1 0) (some 7)) s
  { t with mem := { t.mem with rewrites := [⟨0, 3, 1, 0, 0⟩] } }

/-- Diodes 0 and 3 read; the copy of a rewrite whose lines are all good, and one outside every segment, in an ACTIVE slot and in another. -/
theorem witness_BoundaryActions : yes [
    decide ((due [6, 7, 8]).alive = true ∧ (due [6, 7, 8]).coreStopped 5 = false ∧ 6 ∈ (due [6, 7, 8]).beat.due ∧ 7 ∈ (due [6, 7, 8]).beat.due),
    decide ((due [6]).alive = true ∧ 6 ∈ (due [6]).beat.due ∧ 5 ∉ (due [6]).beat.due ∧ 50 ∉ (due [6]).beat.due), decide (5 ∈ (due [5, 6]).beat.due),
    decide (6 ∈ (due [6, 7]).beat.due ∧ ({ due [6, 7] with watch := { world.watch with core := [(5, { Core.init with st := .held })] } } : State).coreStopped 5 = true),
    !(due [7, 8]).epochWaits, (due [6, 8]).epochWaits, (due [50, 8]).epochWaits,
    decide (8 ∈ (due [7, 8]).beat.due ∧ 7 ∈ (due [7, 8]).beat.due), decide (6 ∉ world.beat.due), decide ((world.pairAt 16).code = 0), decide (7 ∈ (due [7, 8]).beat.due ∧ 5 ∉ (due [7, 8]).beat.due ∧ 50 ∉ (due [7, 8]).beat.due ∧
      6 ∉ (due [7, 8]).beat.due), decide (50 ∈ (due [50]).beat.due), decide (8 ∈ (due [8]).beat.due ∧ 7 ∉ (due [8]).beat.due ∧ (due [8]).log.run = none),
    decide ((dumping (due [8])).log.run ≠ none), rewriting.alive, (rewriting.mem.rewrites.find? fun w => w.group == 3 && w.slot == 1 && w.block == 0).isSome,
    (rewriting.copyLines 0 0x800000 .clean (List.range 32)).2.isSome, (rewriting.copyLines 0 0x7000000000 .clean (List.range 32)).2.isNone,
    decide (((rewriting.groupAt 3).slot 1).st ≠ .active),
    decide ((((rewriting.modGroup 3 fun g => g.modSlot 1 fun x => { x with st := .active }).groupAt 3).slot 1).st = .active)] = true := by decide +kernel

/-- The CRC looks at bits [95:16] alone. -/
theorem markerCrc_or (w : BitVec 96) (c : BitVec 16) : markerCrc (w ||| c.setWidth 96) = markerCrc w := by
  unfold markerCrc
  apply List.foldl_ext
  intro a i hi
  simp only [List.mem_range] at hi
  have : (BitVec.setWidth 96 c).getLsbD (95 - i) = false := by
    rw [BitVec.getLsbD_setWidth, BitVec.getLsbD_of_ge c _ (by omega)]; simp
  rw [BitVec.getLsbD_or, this, Bool.or_false]

/-- A good marker word of a block exists, whatever the CRC starts from. -/
theorem markerGood_exists : ∃ w : BitVec 96, markerGood w = true ∧ markerTick w = 81920 ∧ w.toNat / 2 ^ 80 = 0xA5C3 := by
  have h : ∀ c : BitVec 16, (BitVec.ofNat 96 (0xA5C3 * 2 ^ 80 + 81920 * 65536) ||| c.setWidth 96).toNat = 0xA5C3 * 2 ^ 80 + 81920 * 65536 + c.toNat := by
    intro c
    rw [← BitVec.add_eq_or_of_and_eq_zero, BitVec.toNat_add, BitVec.toNat_ofNat, BitVec.toNat_setWidth]
    · have := c.isLt
      omega
    · ext i hi
      simp only [BitVec.getElem_and, BitVec.getElem_zero]
      by_cases hl : i < 16
      · have : (BitVec.ofNat 96 (0xA5C3 * 2 ^ 80 + 81920 * 65536))[i] = false := by
          revert hi; revert hl
          decide +revert
        rw [this, Bool.false_and]
      · simp [BitVec.getElem_setWidth, BitVec.getLsbD_of_ge c i (by omega)]
  refine ⟨BitVec.ofNat 96 (0xA5C3 * 2 ^ 80 + 81920 * 65536) ||| (markerCrc (BitVec.ofNat 96 (0xA5C3 * 2 ^ 80 + 81920 * 65536))).setWidth 96, ?_, ?_, ?_⟩
  · unfold markerGood markerTick
    rw [markerCrc_or, h]
    have hc := (markerCrc (BitVec.ofNat 96 (0xA5C3 * 2 ^ 80 + 81920 * 65536))).isLt
    have hw : BitVec.setWidth 16 (BitVec.ofNat 96 (0xA5C3 * 2 ^ 80 + 81920 * 65536) ||| (markerCrc (BitVec.ofNat 96 (0xA5C3 * 2 ^ 80 + 81920 * 65536))).setWidth 96) =
        markerCrc (BitVec.ofNat 96 (0xA5C3 * 2 ^ 80 + 81920 * 65536)) := by
      apply BitVec.eq_of_toNat_eq
      rw [BitVec.toNat_setWidth, h]
      omega
    rw [hw]
    simp only [beq_self_eq_true, Bool.and_true, Bool.and_eq_true, beq_iff_eq]
    constructor <;> omega
  · unfold markerTick
    rw [h]
    have hc := (markerCrc (BitVec.ofNat 96 (0xA5C3 * 2 ^ 80 + 81920 * 65536))).isLt
    omega
  · rw [h]
    have hc := (markerCrc (BitVec.ofNat 96 (0xA5C3 * 2 ^ 80 + 81920 * 65536))).isLt
    omega

/-- A start in phase 4 whose pin has shown the block before the one of markerGood_exists. -/
def acquiring : State := { world with chip := { chip0 with opened := false, phase := 4 }, beat := { Beat.init with seen := [(0, some 40960)] } }

theorem witness_PlumbSteps : yes [
    decide (acquiring.alive = true ∧ acquiring.chip.phase = 4 ∧ acquiring.chip.failed = false ∧ acquiring.beat.plumb = .acquire ∧ (acquiring.pairAt 0).code = 0 ∧
      40960 ≤ 81920 ∧ acquiring.beat.seen.get none 0 = some (81920 - 40960)), decide (State.reset.chip.phase < 4), !world.listens (.port 17), decide (world.beat.plumb = .locked),
    decide (((beats .freeRun 0 0).modBeat fun b => { b with freerun := 1023 }).beat.freerun < 1024 ∧ (beats .freeRun 0 0).beat.plumb = .freeRun),
    decide (1024 ≤ ((beats .freeRun 0 0).modBeat fun b => { b with freerun := 1024 }).beat.freerun),
    decide ((beats .resync 0x200 5).beat.slews = true ∧ (beats .resync 0x200 5).beat.tick.toNat % 1024 = 0x200 ∧ 0 < (beats .resync 0x200 5).beat.err),
    decide ((beats .resync 0x600 (-5)).beat.slews = true ∧ (beats .resync 0x600 (-5)).beat.tick.toNat % 1024 = 0x200 ∧ (beats .resync 0x600 (-5)).beat.err < 0),
    decide (world.beat.slews = false), decide ((beats .resync 0 4).beat.err.natAbs ≤ 4 ∧ (beats .resync 0 4).beat.source = some .pin ∧ (beats .resync 0 4).beat.hold = false),
    decide (linked.alive = true ∧ (List.replicate 16 (⟨0, 0, 0, 0⟩ : Exchange)).length = 16 ∧ linked.coreStopped 6 = false ∧
      ((linked.modPort 0 fun x => { x with due := true }).portAt 0).up = true ∧ ((linked.modPort 0 fun x => { x with due := true }).portAt 0).due = true)] = true := by
  decide +kernel

/-- Tile 1 in flight to node 5. -/
def tile2 : TileRun := { tile1 with desc := { seg0 with node := 5 } }

/-- A tile whose segment lies on node 5. -/
def remote : State := { linked with xl := { moving.xl with tiles := [(1, some tile2)] } }

theorem witness_LinkSteps : yes [
    decide (world.alive = true ∧ 17 < 18 ∧ world.landed = true ∧ world.coreStopped 6 = false ∧ 3 ≤ world.chip.phase ∧ 2 ≤ train0.level), decide (({ train0 with level := 1 } : TrainReport).level < 2),
    decide (18 ≤ 18), !({ world with log := { world.log with inc := 1 } } : State).landed, decide (linked.alive = true ∧ (linked.portAt 0).up = true),
    !(linked.dropPort 0).net.ports.any fun e => e.2.up && e.2.node == 5,
    (({ linked with net := { linked.net with ports := [(0, { Port.init with up := true, node := 5 }), (1, { Port.init with up := true, node := 5 })] } } : State).dropPort 0).net.ports.any
      fun e => e.2.up && e.2.node == 5,
    decide (({ linked with net := { linked.net with gone := [(5, some 64)] } } : State).net.gone.get none 5 = some 64), decide (5 ≠ linked.ownNode ∧ linked.net.reset.get none 5 ≠ some 7),
    decide (({ linked with net := { linked.net with reset := [(5, some 7)] } } : State).net.reset.get none 5 = some 7),
    !linked.portQualifies 0, decide ((linked.modBeat fun b => { b with source := some (.port 0) }).beat.source = some (.port 0)),
    ((linked.modPort 0 fun x => { x with plumb := 1, pin := true }).modBeat fun b => { b with ports := 1 }).portQualifies 0,
    (({ linked with net := { linked.net with writes := [⟨3, 5, .push 9 1⟩] } } : State).net.writes.find? fun w => w.id == 3).isSome, linked.net.writes.isEmpty,
    decide (remote.alive = true ∧ remote.xl.tiles.get none 1 = some tile2 ∧ (remote.portAt 0).up = true ∧ tile2.st = .moving ∧ tile2.left.length = 1),
    decide (2 ≤ ({ tile2 with left := [128, 128] } : TileRun).left.length)] = true := by decide +kernel

/-- A start with two usable images, with none, with one and a unit that fails, and in SCRAP. -/
theorem witness_StartOfTheChip : yes [
    decide (world.chip.pending = none ∧ world.alive = true ∧ world.chip.powered = true), decide (State.reset.chip.powered = true ∧ State.reset.chip.pending = some (8, 0)),
    (let sec := State.reset.cleared.sec.begin_ start0 State.reset.chip.serial
     decide ((sec.chooseImage start0.imageA start0.imageB).isSome = true ∧ start0.failUnit = none) &&
       decide (sec.chooseImage { image0 with wellFormed := false } { image0 with wellFormed := false } = none)),
    !State.reset.cleared.sec.rootLost start0,
    ({ Sec.init with fuse := .provision } : Sec).rootLost { start0 with rootCut := some rootBlank },
    decide (({ start0 with failUnit := some 3 } : StartEnv).failUnit = some 3),
    decide (({ world with chip := { world.chip with powered := false } } : State).chip.powered = false)] = true := by decide +kernel

theorem witness_BoardSide : yes [
    meets (.boardStatus km) (chipWide full 0x1101 0 0), decide (world.alive = true ∧ world.board.static_ = 0),
    decide (({ world with board := { world.board with static_ := 0x11, active := true } } : State).board.static_ ≠ 0),
    (world.numericSensor 13).isSome, (world.stateSensor 31).isSome, (world.stateSensor 14).isSome, (world.numericSensor 14).isNone, (world.stateSensor 13).isNone,
    ({ world with board := { world.board with active := true } } : State).board.active] = true := by decide +kernel

/-- With every partition FREE, scan serves; in FAB_TEST the level is FULL, and a raw access reaches an address of no range. -/
theorem witness_TapCommands : yes [
    decide (world.tapOn = true ∧ world.board.tap ≠ .intest ∧ world.board.tap ≠ .scan), !world.scanServes, ({ world with org := Org.init } : State).scanServes,
    decide (world.tapPage = true ∧ 4095 < 4096), decide (({ world with board := { world.board with tap := .scan } } : State).tapOn = true), !({ world with sec := { world.sec with lc := .deploy } } : State).memServes, world.memServes,
    decide ((localTier 0x200000).isSome = true ∧ (world.rangeSpan 0x200000).isSome = true), inControl 0x005F80000000, inDump 0x027F00000000,
    decide ((localTier 0x10000000).isSome = true ∧ world.rangeSpan 0x10000000 = none ∧ inControl 0x10000000 = false ∧ inDump 0x10000000 = false)] = true := by decide +kernel

/-- The steps of the three invariants: a burn, a correction of the counter and a PING. -/
theorem witness_FusesOnlyBurn : ∃ t, step { world with pending := [.burnState] } = .next t := ⟨_, rfl⟩

theorem witness_CounterRunsForward : (world.beat.plumb ≠ .acquire ∧ world.beat.tick.toNat + world.beat.err.natAbs + 16384 < 2 ^ 64) ∧
    ∃ t, step { world with pending := [.slewAdjust] } = .next t ∧ (after .slewAdjust world).beat.plumb ≠ .acquire :=
  ⟨by decide +kernel, _, rfl, by decide +kernel⟩

theorem witness_LinesStayCanonical : full.linesWf = true ∧ ∃ t, step { full with pending := [.ping k0] } = .next t := ⟨by decide +kernel, _, rfl⟩

/-! ### Worked examples of the spec -/

/-- The example under R86: a `deadline` of 0x4A00 (18,944) of frame 0x12345678 lies at offset 2,560 of frame 0x1234567A. -/
theorem test_deadline : deadlineAt 0x12345678 0x4A00 = 0x1234567A * 8192 + 2560 := by decide +kernel

/-- The example under R301: a COMPAT fence at 0xFFFFFFF0 takes 0x10, and at 0 rejects 0x80000000. -/
theorem test_compat_judge : ({ fence5 with compat := true, value := 0xFFFFFFF0 } : Fence).judge 0x10 = .accepted ∧
    ({ fence5 with compat := true, value := 0 } : Fence).judge 0x80000000 = .rejected := by decide +kernel

/-- The example of 14_power_and_capo: the save of 12 engines is 100,663,296 B. -/
theorem test_save_bytes : ((({ world with org := { world.org with part := [(0, { Part.init with st := .live, record := { rec0 with engines := 0xFFF } })] } } : State).startSave 0).powAt 0).left =
    100663296 := by decide +kernel

/-- The example of 20_board_boundary: the BEAT pair reversed, sense pair 5 open, diode 2 reversed, record copy A bad, lane 3 not fitted in copy B, and the
dynamic address 0x21. -/
theorem test_board_example :
    (let env := { start0 with recordA := { record0 with valid := false }, recordB := ⟨true, 0x3FFFF, 0, 0xFF, 0xF, 0x7, 0, 0⟩, pairCodes := [(0, 5), (10, 1), (15, 5)] }
     let s := after (.entdaa 0x21) (after (.chipReset env) State.reset)
     (s.beatTraceReg, s.senseReg, s.diodeReg, s.boardMisc, s.board.changes)) = (0x007C0005, 0x8000, 0x140, 0x21A, 3) := by decide +kernel

/-- The example of 03_beat_and_frames: at +1,604 quarter ticks one slew leaves +1,600, and at +4 the lock follows. -/
theorem test_slew : (after .slewAdjust (beats .resync 0x200 1604)).beat.err = 1600 ∧ (after .slewAdjust (beats .resync 0x200 8)).beat.plumb = .locked := by decide +kernel

/-- The example of 02_mailboxes_and_tirok: clearing the `done` bit of a PARKED slot leaves it PARKED. -/
theorem test_done_parked : ((after (.mbDoneClear (.part 0) 1) parked).mbAt (.part 0)).slotAt 0 = (parked.mbAt (.part 0)).slotAt 0 := by decide +kernel

/-! ### The functions of the keys, on values made outside the model (the example `abc` of FIPS 180-4, and a published library) -/

theorem test_sha384 : sha384 3 0x616263 = 0xcb00753f45a35e8bb5a03d699ac65007272c32ab0eded1631a8b605a43ff5bed8086072ba1e7cc2358baeca134c825a7 := by decide +kernel

theorem test_hmac384 :
    hmac384 48 0x6b6b6b6b6b6b6b6b6b6b6b6b6b6b6b6b6b6b6b6b6b6b6b6b6b6b6b6b6b6b6b6b6b6b6b6b6b6b6b6b6b6b6b6b6b6b6b6b 200 0x000102030405060708090a0b0c0d0e0f101112131415161718191a1b1c1d1e1f202122232425262728292a2b2c2d2e2f303132333435363738393a3b3c3d3e3f404142434445464748494a4b4c4d4e4f505152535455565758595a5b5c5d5e5f606162636465666768696a6b6c6d6e6f707172737475767778797a7b7c7d7e7f808182838485868788898a8b8c8d8e8f909192939495969798999a9b9c9d9e9fa0a1a2a3a4a5a6a7a8a9aaabacadaeafb0b1b2b3b4b5b6b7b8b9babbbcbdbebfc0c1c2c3c4c5c6c7 = 0xb9aafdc6e4afaf1c6342f89cb5029570bb5b3de8820e96aaa2be9c25b7dc55e8b07b4bc2d31b6da672dc617920d49dc4 := by decide +kernel

theorem test_kdf384 :
    kdf384 0x6b6b6b6b6b6b6b6b6b6b6b6b6b6b6b6b6b6b6b6b6b6b6b6b6b6b6b6b6b6b6b6b6b6b6b6b6b6b6b6b6b6b6b6b6b6b6b6b 3 0x746167 61 0x000102030405060708090a0b0c0d0e0f101112131415161718191a1b1c1d1e1f202122232425262728292a2b2c2d2e2f303132333435363738393a3b3c 512 = 0x77544ecd78726033f2cc8783be4692ba3b4aa8764958514d119fca396cd76493703c3b1dd76c3eb2829589c1b85bc8536765e41b1abf3e38deda9f56ceb3c841 := by decide +kernel

theorem test_xts :
    xts true 0x838281807f7e7d7c7b7a797877767574737271706f6e6d6c6b6a6968676665641f1e1d1c1b1a191817161514131211100f0e0d0c0b0a09080706050403020100 0xd7d6d5d4d3d2d1d0cfcecdcccbcac9c8 0x7c756e676059524b443d362f28211a130c05fef7f0e9e2dbd4cdc6bfb8b1aaa39c958e878079726b645d564f48413a332c251e17100902fbf4ede6dfd8d1cac3bcb5aea7a099928b847d766f68615a534c453e373029221b140d06fff8f1eae3dcd5cec7c0b9b2aba49d968f88817a736c655e575049423b342d261f18110a03 = 0x5816423268dc7e3ed7aeb803a7545db7d66fde1a6abcbcc385ff1263ac43e739e327ca45c0f41e4267fb08db1beef163677871f29e79707948feb9121a2af608da38d8c5f12d8e2d0ea09715dc9a21678889323f1a5f3ae5879a8a6a9f9b8d1f25ee1246c8198ea3f9505e654ff9ae146b6b9bd339be2ce0da64d7ec00ae272 := by decide +kernel

theorem test_cmac :
    cmac 0x1f1e1d1c1b1a191817161514131211100f0e0d0c0b0a09080706050403020100 9 0x57c756e676059524b443d362f28211a130c05fef7f0e9e2dbd4cdc6bfb8b1aaa39c958e878079726b645d564f48413a332c251e17100902fbf4ede6dfd8d1cac3bcb5aea7a099928b847d766f68615a534c453e373029221b140d06fff8f1eae3dcd5cec7c0b9b2aba49d968f88817a736c655e575049423b342d261f18110a03d7d6d5d4d3d2d1d0cfcecdcccbcac9c8 = 0xF8F22C4DF035C63FD54B1CBBE201F164 := by decide +kernel

end Sys2Proof.Tests
end

/-! SUPPORT. The mailbox window as a host sees it: what writes at the offsets of a mailbox page do and what reads of them return (R49–R61), and
the statements about the request areas, MB_SUBMIT, MB_SLOT_STATE and MB_VERSION. -/

namespace Sys2Proof.Machine

/-! ### Fields of packed words -/

/-- A packed structure fits the sum of its fields' widths. -/
theorem pack_lt (l : List (Nat × Nat)) : pack l < 2 ^ (l.map Prod.fst).sum := by
  induction l with
  | nil => simp [pack]
  | cons e l ih =>
    obtain ⟨w, v⟩ := e
    have hv : v % 2 ^ w < 2 ^ w := Nat.mod_lt _ (by positivity)
    calc pack ((w, v) :: l) < 2 ^ w + 2 ^ w * pack l := Nat.add_lt_add_right hv _
      _ = 2 ^ w * (pack l + 1) := by ring
      _ ≤ 2 ^ w * 2 ^ (l.map Prod.fst).sum := Nat.mul_le_mul_left _ ih
      _ = 2 ^ (((w, v) :: l).map Prod.fst).sum := by simp [Nat.pow_add]

/-- Field `n` of a structure whose fields all have `w` bits. -/
theorem pack_uniform_field {α : Type} (w : Nat) (f : α → Nat) (l : List α) (n : Nat) (h : n < l.length) :
    pack (l.map fun x => (w, f x)) / 2 ^ (w * n) % 2 ^ w = f l[n] % 2 ^ w := by
  induction l generalizing n with
  | nil => simp at h
  | cons a l ih =>
    cases n with
    | zero => simp [pack]
    | succ n =>
      have hrest : (f a % 2 ^ w + 2 ^ w * pack (l.map fun x => (w, f x))) / 2 ^ w = pack (l.map fun x => (w, f x)) := by
        rw [Nat.add_mul_div_left _ _ (by positivity), Nat.div_eq_of_lt (Nat.mod_lt _ (by positivity)), Nat.zero_add]
      rw [Nat.mul_succ, Nat.add_comm, Nat.pow_add, ← Nat.div_div_eq_div_mul, List.map_cons, pack, hrest]
      exact ih n (by simpa using h)

/-! ### Words of a request area -/

/-- A request area with one of its words written (R60). -/
def putWord (a : BitVec 2048) (word : Nat) (v : W32) : BitVec 2048 :=
  (a &&& ~~~((0xFFFFFFFF#2048) <<< (32 * word))) ||| ((v.setWidth 2048) <<< (32 * word))

theorem getLsbD_wordMask {i : Nat} (hi : i < 2048) : (0xFFFFFFFF#2048).getLsbD i = decide (i < 32) := by
  rw [BitVec.getLsbD_ofNat, show 0xFFFFFFFF = 2 ^ 32 - 1 from rfl, Nat.testBit_two_pow_sub_one]
  simp [hi]

/-- The bits of a word's place come from the word that is written, all others from the area. -/
theorem getLsbD_putWord (a : BitVec 2048) (word : Nat) (v : W32) {i : Nat} (hi : i < 2048) :
    (putWord a word v).getLsbD i = if i / 32 = word then v.getLsbD (i % 32) else a.getLsbD i := by
  have hmask : (0xFFFFFFFF#2048).getLsbD (i - 32 * word) = decide (i - 32 * word < 32) := getLsbD_wordMask (by omega)
  simp only [putWord, BitVec.getLsbD_or, BitVec.getLsbD_and, BitVec.getLsbD_not, BitVec.getLsbD_shiftLeft, BitVec.getLsbD_setWidth, hmask, hi,
    show i - 32 * word < 2048 by omega, decide_true, Bool.true_and]
  split
  · next h =>
    have hge : ¬ i < 32 * word := by omega
    simp [hge, show i - 32 * word = i % 32 by omega, Nat.mod_lt]
  · next h =>
    by_cases hlt : i < 32 * word
    · simp [hlt]
    · have hfar : 32 ≤ i - 32 * word := by omega
      simp [Nat.not_lt.2 hfar, BitVec.getLsbD_of_ge v _ hfar]

theorem extractLsb'_putWord_self (a : BitVec 2048) {word : Nat} (v : W32) (hw : word < 64) :
    (putWord a word v).extractLsb' (32 * word) 32 = v := by
  refine BitVec.eq_of_getLsbD_eq fun i hi => ?_
  rw [BitVec.getLsbD_extractLsb', getLsbD_putWord _ _ _ (by omega), if_pos (by omega)]
  simp [hi, Nat.mod_eq_of_lt hi]

theorem extractLsb'_putWord_ne (a : BitVec 2048) {word w : Nat} (v : W32) (hw : w < 64) (h : w ≠ word) :
    (putWord a word v).extractLsb' (32 * w) 32 = a.extractLsb' (32 * w) 32 := by
  refine BitVec.eq_of_getLsbD_eq fun i hi => ?_
  rw [BitVec.getLsbD_extractLsb', BitVec.getLsbD_extractLsb', getLsbD_putWord _ _ _ (by omega), if_neg (by omega)]

/-! ### Writes that fill a slot (R60) -/

section
variable {s : State} {mb : Mailbox}

theorem exec_requestAreaWrite_of_reaches (h : s.reaches = true) (slot word : Nat) (v : W32) :
    exec (.requestAreaWrite mb slot word v) s = .next (requestAreaWrite mb slot word v s) :=
  congrArg _ (State.bar_of_reaches h _)

theorem requestAreaWrite_of_idle {slot word : Nat} (ho : s.mbOpen mb = true) (hs : slot < 8) (hw : word < 64)
    (hx : ((s.mbAt mb).slotAt slot).st = .free ∨ ((s.mbAt mb).slotAt slot).st = .done) (v : W32) :
    requestAreaWrite mb slot word v s =
      s.modMb mb fun b => b.modSlot slot fun x => { x with area := putWord ((s.mbAt mb).slotAt slot).area word v } := by
  have hin : ¬(s.mbOpen mb = false ∨ 8 ≤ slot ∨ 64 ≤ word) := by simp [ho, hs, hw]
  unfold requestAreaWrite
  rw [if_neg hin]
  exact if_pos hx

theorem requestAreaWrite_of_busy {slot word : Nat} (ho : s.mbOpen mb = true) (hs : slot < 8) (hw : word < 64)
    (hx : ¬(((s.mbAt mb).slotAt slot).st = .free ∨ ((s.mbAt mb).slotAt slot).st = .done)) (v : W32) :
    requestAreaWrite mb slot word v s = s.modMb mb fun b => { b with dropped := true } := by
  have hin : ¬(s.mbOpen mb = false ∨ 8 ≤ slot ∨ 64 ≤ word) := by simp [ho, hs, hw]
  unfold requestAreaWrite
  rw [if_neg hin]
  exact if_neg hx

/-! ### Submits (R54, R61, R62, R459) -/

/-- What a submit makes of its slot: the area latched, under the mailbox's open session and the next ticket, with the MAC of the
security and debug pages. -/
def State.latchedSlot (s : State) (mb : Mailbox) (x : Slot) : Slot :=
  { x with
    st := .submitted, req := x.area, session := if (s.mbAt mb).open_ then (s.mbAt mb).session else 0, ticket := s.box.tickets + 1
    mac := if mb = .security ∨ mb = .debug then s.pageMac x.area else 0 }

/-- The mailbox after an accepted submit of its slot `n`. -/
def State.queuedMbx (s : State) (mb : Mailbox) (n : Nat) (b : Mbx) : Mbx :=
  { b.modSlot n (s.latchedSlot mb) with queue := b.queue ++ [n] }

/-- The state after an accepted submit of slot `n`. -/
def State.submitted (s : State) (mb : Mailbox) (n : Nat) : State :=
  let t := s.modMb mb (s.queuedMbx mb n)
  { t with box := { t.box with tickets := t.box.tickets + 1 } }

theorem State.submitted_frame (n : Nat) : s.submitted mb n = { s with box := (s.submitted mb n).box } := rfl

theorem State.mbAt_submitted_self (n : Nat) :
    (s.submitted mb n).mbAt mb = s.queuedMbx mb n (s.mbAt mb) :=
  State.mbAt_modMb_self s mb (s.queuedMbx mb n)

theorem State.mbAt_submitted_ne {m : Mailbox} (n : Nat) (h : mbNum m ≠ mbNum mb) : (s.submitted mb n).mbAt m = s.mbAt m :=
  (State.mbAt_modMb s mb m (s.queuedMbx mb n)).trans (if_neg h.symm)

theorem State.slotAt_submitted_self (n : Nat) :
    ((s.submitted mb n).mbAt mb).slotAt n = s.latchedSlot mb ((s.mbAt mb).slotAt n) := by
  rw [State.mbAt_submitted_self]
  exact Mbx.slotAt_modSlot_self (s.mbAt mb) n (s.latchedSlot mb)

theorem State.slotAt_submitted_ne {n m : Nat} (h : m ≠ n) : ((s.submitted mb n).mbAt mb).slotAt m = (s.mbAt mb).slotAt m := by
  rw [State.mbAt_submitted_self]
  exact (Mbx.slotAt_modSlot (s.mbAt mb) n m (s.latchedSlot mb)).trans (if_neg h.symm)

theorem exec_mbSubmit_of_reaches (h : s.reaches = true) (v : W32) : exec (.mbSubmit mb v) s = .next (mbSubmit mb v s) :=
  congrArg _ (State.bar_of_reaches h _)

theorem mbSubmit_of_idle {v : W32} (ho : s.mbOpen mb = true)
    (hx : ((s.mbAt mb).slotAt (v.toNat % 8)).st = .free ∨ ((s.mbAt mb).slotAt (v.toNat % 8)).st = .done) :
    mbSubmit mb v s = s.submitted mb (v.toNat % 8) := by
  unfold mbSubmit
  rw [if_neg (by simp [ho])]
  exact if_pos hx

theorem mbSubmit_of_busy {v : W32} (ho : s.mbOpen mb = true)
    (hx : ¬(((s.mbAt mb).slotAt (v.toNat % 8)).st = .free ∨ ((s.mbAt mb).slotAt (v.toNat % 8)).st = .done)) :
    mbSubmit mb v s = s.modMb mb fun b => { b with badSubmit := true } := by
  unfold mbSubmit
  rw [if_neg (by simp [ho])]
  exact if_neg hx

end

/-! ### Offsets of the mailbox pages (R49, R60) -/

/-- Each of the 67 pages after page 0 is the page of the mailbox with its number. -/
theorem exists_pageMailbox {n : Nat} (h : n < 67) : ∃ mb, pageMailbox (1 + n) = some mb ∧ mbNum mb = n := by
  unfold pageMailbox
  by_cases hp : n < 64
  · exact ⟨.part n, by simp [show n + 1 ≤ 64 by omega, Nat.add_comm 1 n], rfl⟩
  · obtain rfl | rfl | rfl : n = 64 ∨ n = 65 ∨ n = 66 := by omega
    · exact ⟨.manager, rfl, rfl⟩
    · exact ⟨.security, rfl, rfl⟩
    · exact ⟨.debug, rfl, rfl⟩

theorem le_of_pageMailbox {p : Nat} {mb : Mailbox} (h : pageMailbox p = some mb) : p ≤ 67 := by
  unfold pageMailbox at h
  split_ifs at h <;> omega

/-- A 32-bit write at the place of a word of a request area is the write of that word. -/
theorem writeWindow_requestArea {page slot word : Nat} {mb : Mailbox} (hp : pageMailbox page = some mb) (hs : slot < 8) (hw : word < 64) (v : W32)
    (s : State) : writeWindow (4096 * page + 0x200 + 0x1C0 * slot + 4 * word) v s = requestAreaWrite mb slot word v s := by
  have hle := le_of_pageMailbox hp
  have hpage : (4096 * page + 0x200 + 0x1C0 * slot + 4 * word) / 4096 = page := by omega
  have hoff : (4096 * page + 0x200 + 0x1C0 * slot + 4 * word) % 4096 = 0x200 + 0x1C0 * slot + 4 * word := by omega
  have hslot : (0x200 + 0x1C0 * slot + 4 * word - 0x200) / 0x1C0 = slot := by omega
  have hword : (0x200 + 0x1C0 * slot + 4 * word - 0x200) % 0x1C0 = 4 * word := by omega
  unfold writeWindow
  rw [if_neg (by omega), hpage, hp]
  simp only [hoff, hslot, hword]
  rw [if_neg (by omega), if_neg (by omega), if_neg (by omega), if_neg (by omega), if_neg (by omega), if_pos (by omega),
    Nat.mul_div_cancel_left _ (by decide)]

/-- A 32-bit write in a mailbox page changes nothing outside MB_CTRL, MB_SUBMIT, MB_DONE, MB_ERR and the request areas. -/
theorem writeWindow_ignored {n o : Nat} (hn : n < 67) (ho : o < 4096) (hreg : o ≠ 0 ∧ o ≠ 4 ∧ o ≠ 0xC ∧ o ≠ 0x10)
    (harea : 0x200 ≤ o → 0x100 ≤ (o - 0x200) % 0x1C0) (v : W32) (s : State) : writeWindow (4096 * (1 + n) + o) v s = s := by
  obtain ⟨mb, hp, -⟩ := exists_pageMailbox hn
  have hpage : (4096 * (1 + n) + o) / 4096 = 1 + n := by omega
  have hoff : (4096 * (1 + n) + o) % 4096 = o := by omega
  obtain ⟨hctrl, hsubmit, hdone, herr⟩ := hreg
  unfold writeWindow
  rw [if_neg (by omega), hpage, hp]
  simp only [hoff, if_neg hctrl, if_neg hsubmit, if_neg hdone, if_neg herr]
  rw [if_neg (show ¬(0x200 ≤ o ∧ o < 0x200 + 8 * 0x1C0 ∧ (o - 0x200) % 0x1C0 < 0x100) by omega), ite_self]

/-- What a 32-bit REGISTER_WRITE does is what its write in the window does, where Lendor takes it. -/
theorem exec_registerWrite (o : Nat) (v : W32) (s : State) : exec (.registerWrite o 32 v) s = .next (s.bar (writeWindow o v)) := rfl

theorem exec_registerWrite_of_ignored {o : Nat} {v : W32} (h : ∀ s, writeWindow o v s = s) (s : State) : exec (.registerWrite o 32 v) s = .next s := by
  rw [exec_registerWrite, show writeWindow o v = id from funext h]
  simp [State.bar, State.live]

/-- A 32-bit read of a mailbox page where Lendor takes it and the window is open. -/
theorem State.readWindow_mailboxPage {s : State} {n o : Nat} {mb : Mailbox} (hr : s.reaches = true) (hopen : s.chip.opened = true)
    (hp : pageMailbox (1 + n) = some mb) (ho : o < 4096) (h4 : o % 4 = 0) (r : Nat) :
    s.readWindow r 32 (4096 * (1 + n) + o) = s.mailboxPage mb o := by
  have hle := le_of_pageMailbox hp
  have hpage : (4096 * (1 + n) + o) / 4096 = 1 + n := by omega
  have hoff : (4096 * (1 + n) + o) % 4096 = o := by omega
  have haligned : (4096 * (1 + n) + o) % 4 = 0 := by omega
  simp only [State.reaches, Bool.and_eq_true, Bool.not_eq_true'] at hr
  obtain ⟨halive, hlow⟩ := hr
  unfold State.readWindow
  rw [if_neg (by simp [halive, hlow, hopen, haligned]), if_neg (by omega), if_neg (by simp [hopen]), if_neg (by omega), hpage, hp]
  simp only [hoff]

/-! ### MB_SLOT_STATE and MB_VERSION (R55, R58) -/

theorem slotCode_lt (x : SlotState) : slotCode x < 8 := by cases x <;> decide

theorem State.mailboxPage_slotState (s : State) (mb : Mailbox) :
    s.mailboxPage mb 8 = pack ((List.range 8).map fun n => (3, slotCode ((s.mbAt mb).slotAt n).st)) := rfl

theorem State.mailboxPage_version (s : State) (mb : Mailbox) :
    s.mailboxPage mb 20 = if (s.mbAt mb).open_ then pack [(8, (s.mbAt mb).minor.toNat), (8, 3), (1, 1)] else 0 := rfl

/-- Bits [3n+2:3n] of MB_SLOT_STATE hold the code of slot `n`. -/
theorem State.slotState_field (s : State) (mb : Mailbox) {n : Nat} (hn : n < 8) :
    s.mailboxPage mb 8 / 2 ^ (3 * n) % 8 = slotCode ((s.mbAt mb).slotAt n).st := by
  have h := pack_uniform_field 3 (fun n => slotCode ((s.mbAt mb).slotAt n).st) (List.range 8) n (by simpa using hn)
  rw [List.getElem_range] at h
  exact h.trans (Nat.mod_eq_of_lt (slotCode_lt _))

theorem State.slotState_lt (s : State) (mb : Mailbox) : s.mailboxPage mb 8 < 2 ^ 24 := pack_lt _

/-- The fields of MB_VERSION while a session is open: `minor`, `major` and `open`. -/
theorem State.version_fields {s : State} {mb : Mailbox} (h : (s.mbAt mb).open_ = true) :
    s.mailboxPage mb 20 % 256 = (s.mbAt mb).minor.toNat ∧ s.mailboxPage mb 20 / 256 % 256 = 3 ∧ s.mailboxPage mb 20 / 65536 = 1 := by
  have hminor : (s.mbAt mb).minor.toNat < 256 := (s.mbAt mb).minor.isLt
  have hpack : s.mailboxPage mb 20 = (s.mbAt mb).minor.toNat % 256 + 256 * (3 + 256 * 1) := by
    rw [State.mailboxPage_version, if_pos h]
    rfl
  omega

theorem State.version_of_closed {s : State} {mb : Mailbox} (h : (s.mbAt mb).open_ = false) : s.mailboxPage mb 20 = 0 := by
  rw [State.mailboxPage_version, h]
  rfl

/-! ### The statements -/

/-- Settles O5: a word write and a submit are split by whether the slot is FREE or DONE, and a host write goes by its offset in the mailbox page
(`writeWindow_requestArea`, `writeWindow_ignored`). -/
theorem requestAreaAndSubmit : Obligations.RequestAreaAndSubmit := by
  unfold Obligations.RequestAreaAndSubmit
  refine ⟨fun s mb slot word v hr ho hs hw => ⟨fun hx => ?idleWord, fun hx => ?busyWord⟩,
    fun s mb v hr ho => ⟨fun hx => ?idleSubmit, fun hx => ?busySubmit⟩, ?wordWrite, ?responseArea⟩
  case idleWord =>
    refine ⟨_, _, exec_requestAreaWrite_of_reaches hr slot word v, requestAreaWrite_of_idle ho hs hw hx v, ?_, ?_⟩
    · exact extractLsb'_putWord_self _ v hw
    · exact fun w hlt hne => extractLsb'_putWord_ne _ v hlt hne
  case busyWord => rw [exec_requestAreaWrite_of_reaches hr, requestAreaWrite_of_busy ho hs hw hx]
  case idleSubmit =>
    refine ⟨s.submitted mb (v.toNat % 8), ?_, State.submitted_frame _, State.slotAt_submitted_self _, ?_, rfl,
      fun m hm => State.slotAt_submitted_ne hm, fun m hm => State.mbAt_submitted_ne _ hm⟩
    · rw [exec_mbSubmit_of_reaches hr, mbSubmit_of_idle ho hx]
    · rw [State.mbAt_submitted_self]; rfl
  case busySubmit => rw [exec_mbSubmit_of_reaches hr, mbSubmit_of_busy ho hx]
  case wordWrite =>
    intro s mb slot word v hp hs hw
    rw [exec_registerWrite, show writeWindow _ v = requestAreaWrite mb slot word v from funext (writeWindow_requestArea hp hs hw v)]
    rfl
  case responseArea =>
    intro s n slot b v hn hs hlo hhi
    have harea : (0x200 + 0x1C0 * slot + b - 0x200) % 0x1C0 = b := by omega
    rw [Nat.add_assoc, Nat.add_assoc, ← Nat.add_assoc 0x200]
    exact exec_registerWrite_of_ignored (writeWindow_ignored hn (by omega) (by omega) (fun _ => harea.symm ▸ hlo) v) s

/-- Settles O9: a read of a mailbox page is a word of the page (`State.readWindow_mailboxPage`), MB_SLOT_STATE packs eight fields of 3 bits, and neither
offset is one that a write takes. That MB_VERSION reads 0 without a session is the model's choice (DEDUCED, notes/assumptions/23.md). -/
theorem slotStateAndVersionRead : Obligations.SlotStateAndVersionRead := by
  unfold Obligations.SlotStateAndVersionRead
  refine ⟨fun s r n mb hr hopen hn _ hp => ?reads, fun n hn => exists_pageMailbox hn, by decide, fun s n v hn => ?writes, fun mb n => ⟨rfl, rfl⟩⟩
  case reads =>
    have hstate := State.readWindow_mailboxPage hr hopen hp (o := 8) (by decide) (by decide) r
    have hversion := State.readWindow_mailboxPage hr hopen hp (o := 20) (by decide) (by decide) r
    rw [hstate, hversion]
    exact ⟨⟨State.slotState_field s mb hn, State.slotState_lt s mb⟩, State.version_fields, State.version_of_closed⟩
  case writes =>
    exact ⟨exec_registerWrite_of_ignored (writeWindow_ignored hn (by decide) (by decide) (by decide) v) s,
      exec_registerWrite_of_ignored (writeWindow_ignored hn (by decide) (by decide) (by decide) v) s⟩

end Sys2Proof.Machine

/-! SUPPORT. TICK_LO and TICK_HI as a host sees them: reads of the identification page, writes to it, and the latch that each requester has for
itself (R91, R92). -/

namespace Sys2Proof.Machine

/-! ### The identification page (R13, R49) -/

section
variable {s : State}

/-- A 32-bit read of the identification page where Lendor takes it and the window is open. -/
theorem State.readWindow_idPage {o : Nat} (hr : s.reaches = true) (hopen : s.chip.opened = true) (ho : o < 4096) (h4 : o % 4 = 0) (r : Nat) :
    s.readWindow r 32 o = s.idPage r o := by
  simp only [State.reaches, Bool.and_eq_true, Bool.not_eq_true'] at hr
  obtain ⟨halive, hlow⟩ := hr
  unfold State.readWindow
  rw [if_neg (by simp [halive, hlow, hopen, h4]), if_pos ho]

theorem State.readWindow_of_width_ne {w : Nat} (hw : w ≠ 32) (r o : Nat) : s.readWindow r w o = 0 :=
  if_pos (.inr (.inr (.inl hw)))

/-- R91. -/
theorem State.readWindow_tickLo (hr : s.reaches = true) (hopen : s.chip.opened = true) (r : Nat) :
    s.readWindow r 32 0x40 = s.beat.tick.toNat % 2 ^ 32 :=
  State.readWindow_idPage hr hopen (by decide) (by decide) r

/-- R92. -/
theorem State.readWindow_tickHi (hr : s.reaches = true) (hopen : s.chip.opened = true) (r : Nat) :
    s.readWindow r 32 0x44 = (s.beat.tickHi.get 0 r).toNat :=
  State.readWindow_idPage hr hopen (by decide) (by decide) r

end

/-- A 32-bit write in the identification page changes nothing. -/
theorem writeWindow_idPage {o : Nat} (ho : o < 4096) (v : W32) (s : State) : writeWindow o v s = s := by
  have hpage : o / 4096 = 0 := Nat.div_eq_of_lt ho
  unfold writeWindow
  rw [if_neg (by omega), hpage]
  rfl

/-! ### The latch of a requester (R91) -/

/-- Bits [63:32] of a 64-bit word are its value over 2^32. -/
theorem toNat_extractLsb'_high (x : W64) : (x.extractLsb' 32 32).toNat = x.toNat / 2 ^ 32 := by
  rw [BitVec.extractLsb'_toNat, Nat.shiftRight_eq_div_pow]
  exact Nat.mod_eq_of_lt (by omega)

/-- The state after a read of TICK_LO by requester `r`. -/
def State.latchTick (s : State) (r : Nat) : State :=
  { s with beat := { s.beat with tickHi := s.beat.tickHi.put 0 r (s.beat.tick.extractLsb' 32 32) } }

section
variable {s : State}

theorem State.latchTick_frame (r : Nat) : s.latchTick r = { s with beat := { s.beat with tickHi := (s.latchTick r).beat.tickHi } } := rfl

theorem State.reaches_latchTick (r : Nat) : (s.latchTick r).reaches = s.reaches := rfl

theorem State.opened_latchTick (r : Nat) : (s.latchTick r).chip.opened = s.chip.opened := rfl

theorem State.tickHi_latchTick_self (r : Nat) : (s.latchTick r).beat.tickHi.get 0 r = s.beat.tick.extractLsb' 32 32 :=
  Tab.get_put_self 0 s.beat.tickHi r _

theorem State.tickHi_latchTick_ne {r q : Nat} (h : q ≠ r) : (s.latchTick r).beat.tickHi.get 0 q = s.beat.tickHi.get 0 q :=
  Tab.get_put_ne 0 s.beat.tickHi _ h.symm

/-- A 32-bit read of TICK_LO where Lendor takes it and the window is open. -/
theorem exec_tickLoRead_of_reaches (hr : s.reaches = true) (hopen : s.chip.opened = true) (r : Nat) :
    exec (.tickLoRead ⟨r, 32⟩) s = .next (s.latchTick r) := by
  refine congrArg _ ((State.bar_of_reaches hr _).trans (if_pos ?_))
  simp [hopen]

theorem exec_tickLoRead_of_width_ne {w : Nat} (hw : w ≠ 32) (r : Nat) : exec (.tickLoRead ⟨r, w⟩) s = .next s := by
  refine congrArg Host.Outcome.next ?_
  simp [State.bar, State.live, hw]

end

/-! ### The statement -/

/-- Settles O8: a read that Lendor takes is a word of the identification page (`State.readWindow_idPage`), a 32-bit read of TICK_LO writes its
requester's entry of the latch table alone (`State.latchTick`), and no write in that page changes anything (`writeWindow_idPage`). -/
theorem tickRegisters : Obligations.TickRegisters := by
  unfold Obligations.TickRegisters
  refine ⟨fun s r hr hopen => ⟨State.readWindow_tickLo hr hopen r, s.latchTick r, exec_tickLoRead_of_reaches hr hopen r, State.latchTick_frame r,
    ?latched, fun q hq => ?others⟩, fun s r hr hopen => State.readWindow_tickHi hr hopen r, fun s r w hw => ?width, fun s v => ?writes, rfl, fun r => rfl⟩
  case latched =>
    rw [State.readWindow_tickHi (State.reaches_latchTick r ▸ hr) (State.opened_latchTick r ▸ hopen), State.tickHi_latchTick_self,
      toNat_extractLsb'_high]
  case others =>
    rw [State.readWindow_tickHi (State.reaches_latchTick r ▸ hr) (State.opened_latchTick r ▸ hopen), State.readWindow_tickHi hr hopen,
      State.tickHi_latchTick_ne hq]
  case width => exact ⟨State.readWindow_of_width_ne hw r _, State.readWindow_of_width_ne hw r _, exec_tickLoRead_of_width_ne hw r⟩
  case writes =>
    exact ⟨exec_registerWrite_of_ignored (writeWindow_idPage (by decide) v) s, exec_registerWrite_of_ignored (writeWindow_idPage (by decide) v) s⟩

end Sys2Proof.Machine

/-! SUPPORT. The doorbell window and the push window as a host sees them: what a write to one ring's slot does to that ring, and what it leaves
unchanged (R98, R139–R143, R157, R159). -/

namespace Sys2Proof.Machine

/-! ### A counted doorbell or push and its ring (R140, R163, R554) -/

/-- Ring `r` changed by `f`, as the most recently doorbelled one, with the write counted. -/
def State.rung (s : State) (r : Nat) (f : Ring → Ring) : State := (s.modRing r f).tickOrder.countBell r

/-- What a counted doorbell or push leaves of `s`: ring `r` has become `x`, or waits for a fill besides, and no other ring and no other unit of the
chip has changed but for the order of doorbells and the counters. -/
structure State.RungTo (s : State) (r : Nat) (x : Ring) (t : State) : Prop where
  ring : ∃ fill, t.ringAt r = { x with fill := fill }
  others : ∀ q, q ≠ r → t.ringAt q = s.ringAt q
  order : t.ten.order = s.ten.order + 1
  frame : t = { s with ten := { s.ten with ring := t.ten.ring, order := t.ten.order }, obs := t.obs }

section
variable {s t : State} {r : Nat} {x : Ring}

theorem State.ringAt_rung (q : Nat) (f : Ring → Ring) : (s.rung r f).ringAt q = if r = q then f (s.ringAt r) else s.ringAt q :=
  State.ringAt_modRing s r q f

theorem State.rungTo_rung (f : Ring → Ring) : s.RungTo r (f (s.ringAt r)) (s.rung r f) where
  ring := ⟨(f (s.ringAt r)).fill, (State.ringAt_rung r f).trans (if_pos rfl)⟩
  others q hq := (State.ringAt_rung q f).trans (if_neg hq.symm)
  order := rfl
  frame := rfl

/-- Looking at the ring afterwards asks at most for its fill (R164). -/
theorem State.RungTo.touch (h : s.RungTo r x t) : s.RungTo r x (t.ringTouch r) := by
  obtain ⟨⟨fill, hring⟩, hothers, horder, hframe⟩ := h
  unfold State.ringTouch
  split
  · exact ⟨⟨fill, hring⟩, hothers, horder, hframe⟩
  · refine ⟨⟨true, ?_⟩, fun q hq => ?_, horder, ?_⟩
    · rw [State.ringAt_modRing_self, hring]
    · rw [State.ringAt_modRing, if_neg hq.symm, hothers q hq]
    · rw [hframe]
      rfl

theorem State.RungTo.mem (h : s.RungTo r x t) : t.mem = s.mem := by
  rw [h.frame]

/-! ### Doorbells (R139, R140, R143) -/

/-- A ring after the doorbell that publishes `v` in reference frame `frame`, as number `belled` of the doorbells. -/
def Ring.publish (x : Ring) (v : W32) (frame belled : Nat) : Ring :=
  { x with prod := v, doorbells := inc32 x.doorbells, belled := belled, frames := if v = x.prod then x.frames else x.frames ++ [(v, frame)] }

theorem State.bell_of_unheld (h : s.pageTakes r = false) (whole : Bool) (v : W32) : s.bell r whole v = s := if_pos h

theorem State.bell_of_untaken {v : W32} (hp : s.pageTakes r = true)
    (h : ((s.ringAt r).st ≠ .active ∧ (s.ringAt r).st ≠ .halted) ∨ (s.ringAt r).takes v = false) : s.bell r true v = s.badBell r := by
  unfold State.bell
  rw [if_neg (by simp [hp])]
  exact if_pos (.inr h)

theorem State.bell_of_taken {v : W32} (hp : s.pageTakes r = true) (hst : (s.ringAt r).st = .active ∨ (s.ringAt r).st = .halted)
    (hv : (s.ringAt r).takes v = true) : s.RungTo r ((s.ringAt r).publish v s.frame (s.ten.order + 1)) (s.bell r true v) := by
  have hrung : s.RungTo r ((s.ringAt r).publish v s.frame (s.ten.order + 1)) (s.rung r fun x => x.publish v s.frame (s.ten.order + 1)) :=
    State.rungTo_rung fun x => x.publish v s.frame (s.ten.order + 1)
  have htaken : ¬(true = false ∨ ((s.ringAt r).st ≠ .active ∧ (s.ringAt r).st ≠ .halted) ∨ (s.ringAt r).takes v = false) := by
    simp only [hv, Bool.true_eq_false, or_false, false_or]
    tauto
  unfold State.bell
  rw [if_neg (by simp [hp])]
  dsimp only
  rw [if_neg htaken]
  split
  · exact hrung
  · exact hrung.touch

/-- A write of bytes 0 to 3 of one ring slot, alone or with the bytes after them, is the doorbell of that ring. -/
theorem exec_doorbell_of_slot {w : WindowWrite} (ha : s.alive = true) (hb : s.barOpen = true) (hr : r < 1048576) (ho : w.offset = 8 * r)
    (hw : w.bytes = 4 ∨ w.bytes = 8)
    (he : w.enables.testBit 0 = true ∧ w.enables.testBit 1 = true ∧ w.enables.testBit 2 = true ∧ w.enables.testBit 3 = true) :
    exec (.doorbell w) s = .next (s.bell r true (BitVec.ofNat 32 w.data)) := by
  have hin : ¬(s.barOpen = false ∨ w.bytes = 0 ∨ 0x800000 < w.offset + w.bytes) := by
    simp only [hb, Bool.true_eq_false, false_or]
    omega
  have hone : List.range ((8 * r + w.bytes - 1) / 8 - 8 * r / 8 + 1) = [0] := by
    rw [show (8 * r + w.bytes - 1) / 8 - 8 * r / 8 + 1 = 1 by omega]
    rfl
  have hfirst : 8 * r / 8 = r := by omega
  have hwhole : 4 ≤ w.bytes := by omega
  refine congrArg Host.Outcome.next ((State.live_of_alive ha _).trans ?_)
  unfold doorbell
  rw [if_neg hin]
  dsimp only
  rw [ho, hone, hfirst]
  simp [List.range_succ, hwhole, he]

/-! ### Pushes (R140, R159) -/

/-- A ring after the push of `data`, whose descriptor has index `i`, in reference frame `frame`, as number `belled` of the doorbells. -/
def Ring.takePush (x : Ring) (i : W32) (data : BitVec 512) (frame belled : Nat) : Ring :=
  { x with
    prod := i + 1, doorbells := inc32 x.doorbells, frames := x.frames ++ [(i + 1, frame)], belled := belled, pushed := x.pushed ++ [(i, data)] }

/-- The write of a push's 64 bytes to the ring memory at `prod`, and what became of it. -/
def State.pushStore (s : State) (r : Nat) (data : BitVec 512) : State × Written :=
  let x := s.ringAt r
  s.objWriteAs (.push r x.prod) ((s.ringPart r).getD 0xFF) x.ctx (x.descAddr + 64 * (x.prod.toNat % x.slots)) 64 x.cls data.toNat

theorem exec_push_of_alive (ha : s.alive = true) (offset bytes : Nat) (data : BitVec 512) :
    exec (.push offset bytes data) s = .next (push offset bytes data s) :=
  congrArg _ (State.live_of_alive ha _)

/-- A push into the window at a page that takes pushes gets to the checks of its form and its ring. -/
theorem push_reaches {offset bytes : Nat} (hb : s.barOpen = true) (hbytes : bytes ≠ 0) (hin : offset + bytes ≤ 0x4000000)
    (hp : s.pageTakes (offset / 64) = true) :
    ¬(s.barOpen = false ∨ bytes = 0 ∨ 0x4000000 < offset + bytes ∨ s.pageTakes (offset / 64) = false) := by
  simp [hb, hbytes, hp, Nat.not_lt.2 hin]

/-- A push of another width, out of alignment or to a ring that does not take it is dropped. -/
theorem push_of_untaken {offset bytes : Nat} {data : BitVec 512} (hb : s.barOpen = true) (hbytes : bytes ≠ 0) (hin : offset + bytes ≤ 0x4000000)
    (hp : s.pageTakes (offset / 64) = true)
    (h : offset % 64 ≠ 0 ∨ bytes ≠ 64 ∨ (s.ringAt (offset / 64)).st ≠ .active ∨ (s.ringAt (offset / 64)).fmt ≠ 3 ∨
      (s.ringAt (offset / 64)).takes ((s.ringAt (offset / 64)).prod + 1) = false) :
    push offset bytes data s = s.badBell (offset / 64) := by
  unfold push
  dsimp only
  rw [if_neg (push_reaches hb hbytes hin hp), if_pos h]

/-- A push that its ring takes goes by its store. -/
theorem push_of_taken (hb : s.barOpen = true) (hr : r < 1048576) (hp : s.pageTakes r = true) (hst : (s.ringAt r).st = .active)
    (hfmt : (s.ringAt r).fmt = 3) (hv : (s.ringAt r).takes ((s.ringAt r).prod + 1) = true) (data : BitVec 512) :
    push (64 * r) 64 data s =
      let w := s.pushStore r data
      if w.2 = .failed then w.1.haltRing r 0x0323 (s.ringAt r).prod
      else (w.1.rung r fun x => x.takePush (s.ringAt r).prod data s.frame (w.1.ten.order + 1)).ringTouch r := by
  have hring : 64 * r / 64 = r := Nat.mul_div_cancel_left r (by decide)
  have hreach := push_reaches (offset := 64 * r) hb (show 64 ≠ 0 by decide) (by omega) (hring.symm ▸ hp)
  have htaken : ¬(64 * r % 64 ≠ 0 ∨ 64 ≠ 64 ∨ (s.ringAt r).st ≠ .active ∨ (s.ringAt r).fmt ≠ 3 ∨
      (s.ringAt r).takes ((s.ringAt r).prod + 1) = false) := by
    simp only [Nat.mul_mod_right, hst, hfmt, hv, ne_eq, not_true_eq_false, Bool.true_eq_false, or_self, not_false_eq_true]
  unfold push State.pushStore
  rw [hring] at hreach ⊢
  dsimp only
  rw [if_neg hreach, if_neg htaken]
  generalize s.objWriteAs _ _ _ _ _ _ _ = w
  obtain ⟨t, written⟩ := w
  cases written <;> rfl

end

/-! ### The statement -/

/-- Settles O45: a whole-slot write is the doorbell of one ring (`exec_doorbell_of_slot`), a push that its ring takes goes by whether its bytes were
stored (`push_of_taken`), and what is published changes that ring alone (`State.RungTo`). -/
theorem doorbellsAndPushes : Obligations.DoorbellsAndPushes := by
  unfold Obligations.DoorbellsAndPushes
  refine ⟨fun s w r ha hb hr ho hw he => ?doorbell, fun s r data ha hb hr hp => ⟨fun h => ?badPush, fun hst hfmt hv => ?push⟩,
    fun s offset bytes data ha hb hbytes hin hp h => ?badForm⟩
  case doorbell =>
    rw [exec_doorbell_of_slot ha hb hr ho hw he]
    refine ⟨fun hp => by rw [State.bell_of_unheld hp], fun hp h => by rw [State.bell_of_untaken hp h]; rfl, fun hp hst hv => ?_⟩
    obtain ⟨⟨fill, hring⟩, hothers, horder, hframe⟩ := State.bell_of_taken hp hst hv
    refine ⟨_, rfl, ?_⟩
    rw [hring]
    exact ⟨rfl, rfl, rfl, rfl, rfl, fun hv => if_pos hv, fun hv => if_neg hv, rfl, horder, hothers, hframe⟩
  case badPush =>
    have hring : 64 * r / 64 = r := Nat.mul_div_cancel_left r (by decide)
    rw [exec_push_of_alive ha, push_of_untaken hb (by decide) (by omega) (hring.symm ▸ hp) (by rw [hring]; exact .inr (.inr h)), hring]
    rfl
  case push =>
    rw [exec_push_of_alive ha, push_of_taken hb hr hp hst hfmt hv]
    refine ⟨fun hfailed => congrArg _ (if_pos hfailed), fun hstored => ⟨_, congrArg _ (if_neg hstored), ?_⟩⟩
    have hpushed := (State.rungTo_rung (s := (s.pushStore r data).1) (r := r)
      fun x => x.takePush (s.ringAt r).prod data s.frame ((s.pushStore r data).1.ten.order + 1)).touch
    obtain ⟨fill, hring⟩ := hpushed.ring
    rw [hring]
    exact ⟨rfl, rfl, rfl, rfl, hpushed.others, hpushed.mem⟩
  case badForm =>
    rw [exec_push_of_alive ha, push_of_untaken hb hbytes hin hp (h.imp_right .inl)]
    rfl

end Sys2Proof.Machine

/-! SUPPORT. Fences under WAIT and SIGNAL: Lendor's own writes for an object and the completion of a descriptor leave every fence as it is, so a
fence keeps the value that a signal gives it while its waiters are released and its mirror is written (R297–R306). -/

namespace Sys2Proof.Machine

section
variable (s : State)

/-! ### Counters, messages and dirty logs leave the fences alone -/

@[simp] theorem State.countCtx_fen (c i n : Nat) : (s.countCtx c i n).fen = s.fen := by
  unfold State.countCtx
  dsimp only
  split <;> rfl

@[simp] theorem State.countBoth_fen (p c i n : Nat) : (s.countBoth p c i n).fen = s.fen := State.countCtx_fen ..

@[simp] theorem State.charge_fen (p a cls bytes : Nat) (waited : Bool) : (s.charge p a cls bytes waited).fen = s.fen := rfl

@[simp] theorem State.countControl_fen (a bytes : Nat) : (s.countControl a bytes).fen = s.fen := rfl

@[simp] theorem State.partEvent_fen (p : Nat) : (s.partEvent p).fen = s.fen := by rw [State.partEvent_frame]

@[simp] theorem State.indexVector_fen (p v : Nat) : (s.indexVector p v).fen = s.fen := by rw [State.indexVector_frame]

@[simp] theorem State.finish_fen (r : SlotRef) (st : Status) (d len pay : Nat) : (s.finish r st d len pay).fen = s.fen := by rw [State.finish_frame]

@[simp] theorem State.dirtyBit_fen (p o i : Nat) : (s.dirtyBit p o i).fen = s.fen := by
  unfold State.dirtyBit
  dsimp only
  split <;> rfl

@[simp] theorem State.dirtyMark_fen (r a : Nat) : (s.dirtyMark r a).fen = s.fen := by
  unfold State.dirtyMark
  dsimp only
  split
  · rfl
  · split <;> simp

@[simp] theorem State.dirtyHost_fen (p pasid a n : Nat) : (s.dirtyHost p pasid a n).fen = s.fen := by
  have hbits (o : Nat) (g : Nat → Nat) (l : List Nat) : (l.foldl (fun t i => t.dirtyBit p o (g i)) s).fen = s.fen :=
    State.foldl_keeps State.fen _ (fun t i => t.dirtyBit_fen p o (g i)) l s
  unfold State.dirtyHost
  dsimp only
  split_ifs <;> simp [hbits]

/-! ### What a lane does with a line leaves the fences alone -/

@[simp] theorem State.raiseSkim_fen (r : Nat) : (s.raiseSkim r).fen = s.fen := by
  unfold State.raiseSkim
  dsimp only
  split_ifs <;> rfl

@[simp] theorem State.tagUse_fen (l : Nat) (write : Bool) : (s.tagUse l write).fen = s.fen := by
  unfold State.tagUse
  dsimp only
  split_ifs <;> simp

@[simp] theorem State.writeLine_fen (r l : Nat) (data : LineData) (tweak : Nat) : (s.writeLine r l data tweak).fen = s.fen := by
  unfold State.writeLine
  dsimp only
  split_ifs <;> simp

@[simp] theorem State.poisonLine_fen (l : Nat) (st : LineSt) : (s.poisonLine l st).fen = s.fen := by
  unfold State.poisonLine
  dsimp only
  split <;> simp

@[simp] theorem State.bareRead_fen (r l tweak : Nat) (ecc : EccEvent) (base : Bool) : (s.bareRead r l tweak ecc base).st.fen = s.fen := by
  unfold State.bareRead
  dsimp only
  split
  · split_ifs <;> simp
  · split
    · split <;> rfl
    · split
      · split <;> rfl
      · simp only [State.logRec_fen, State.modRange_fen]
        split <;> rfl

@[simp] theorem State.bareWrite_fen (r l tweak : Nat) (data : LineData) (mask : LineMask) (ecc : EccEvent) :
    (s.bareWrite r l tweak data mask ecc).st.fen = s.fen := by
  unfold State.bareWrite
  dsimp only
  split_ifs <;> simp

@[simp] theorem State.putBack_fen (r l : Nat) (c : Copy) (d : LineData) : (s.putBack r l c d).fen = s.fen := by
  simp [State.putBack]

@[simp] theorem State.writeBack_fen (l : Nat) (c : Copy) : (s.writeBack l c).fen = s.fen := by
  unfold State.writeBack
  dsimp only [State.draw]
  split
  · rfl
  · split_ifs <;> simp

@[simp] theorem State.snoopRead_fen (l : Nat) : (s.snoopRead l).fen = s.fen := by
  unfold State.snoopRead State.dropCopy State.modCopy
  dsimp only
  split
  · split <;> simp
  · rfl

@[simp] theorem State.snoopWrite_fen (l : Nat) : (s.snoopWrite l).fen = s.fen := by
  unfold State.snoopWrite
  split
  · rfl
  · exact State.foldl_keeps State.fen _ (fun t c => t.writeBack_fen l c) _ s

@[simp] theorem State.laneRead_fen (r l tweak : Nat) (ecc : EccEvent) (base : Bool) : (s.laneRead r l tweak ecc base).st.fen = s.fen := by
  unfold State.laneRead
  split
  · rfl
  · simp

@[simp] theorem State.laneWrite_fen (r l tweak : Nat) (data : LineData) (mask : LineMask) (ecc : EccEvent) :
    (s.laneWrite r l tweak data mask ecc).st.fen = s.fen := by
  simp [State.laneWrite]

/-! ### Lendor's own writes for an object leave the fences alone -/

@[simp] theorem State.tableWord_fen (p k i : Nat) (ecc : EccEvent) : (s.tableWord p k i ecc).1.fen = s.fen := by
  unfold State.tableWord
  dsimp only
  split
  · rfl
  · split_ifs <;> simp

@[simp] theorem State.place_fen (p c a : Nat) (write : Bool) : (s.place p c a write).1.fen = s.fen := by
  unfold State.place
  dsimp only
  split
  · rfl
  split
  · rfl
  next k _ =>
    generalize (if write then (s.segAt k).write else (s.segAt k).read) = permits
    split
    · rfl
    split
    · rfl
    generalize hword : s.tableWord p k _ .clean = o
    have hfen : o.1.fen = s.fen := hword ▸ s.tableWord_fen ..
    obtain ⟨t, _ | w⟩ := o
    · exact hfen
    · dsimp only
      split_ifs <;> exact hfen

@[simp] theorem State.hotRecord_fen (p : Nat) (h : HotCount) : (s.hotRecord p h).fen = s.fen := by
  unfold State.hotRecord
  dsimp only
  split_ifs <;> simp

@[simp] theorem State.hotCount_fen (f p k page tier n : Nat) : (s.hotCount f p k page tier n).fen = s.fen := by
  unfold State.hotCount
  dsimp only
  split
  · rfl
  · split
    · split <;> simp
    · rfl

@[simp] theorem State.meter_fen (p c : Nat) (x : Place) (page cls bytes : Nat) : (s.meter p c x page cls bytes).fen = s.fen := by
  unfold State.meter
  dsimp only
  split <;> simp

@[simp] theorem State.countLink_fen (p c port bytes : Nat) (tx : Bool) : (s.countLink p c port bytes tx).fen = s.fen := by
  simp [State.countLink]

@[simp] theorem State.passPort_fen (n : Nat) (w : PortWait) : (s.passPort n w).fen = s.fen := by
  unfold State.passPort
  dsimp only
  split <;> simp

@[simp] theorem State.drainPort_fen (n k : Nat) : (s.drainPort n k).fen = s.fen := by
  induction k generalizing s with
  | zero => rfl
  | succ k ih =>
    unfold State.drainPort
    dsimp only
    split
    · rfl
    · split
      · rfl
      · simp [ih]

@[simp] theorem State.portSend_fen (n : Nat) (w : PortWait) : (s.portSend n w).fen = s.fen := by
  unfold State.portSend
  dsimp only
  split <;> simp

@[simp] theorem State.remoteWrite_fen (what : ObjWrite) (node : Nat) (w : Nat → PortWait) : (s.remoteWrite what node w).fen = s.fen := by
  simp [State.remoteWrite, State.linkAccess]

@[simp] theorem State.objWriteAs_fen (what : ObjWrite) (p c a bytes cls data : Nat) : (s.objWriteAs what p c a bytes cls data).1.fen = s.fen := by
  unfold State.objWriteAs
  generalize hplace : s.place p c a true = o
  have hfen : o.1.fen = s.fen := hplace ▸ s.place_fen ..
  obtain ⟨t, _ | x⟩ := o
  · exact hfen
  · dsimp only
    split
    · simpa using hfen
    split
    · split <;> simpa using hfen
    split
    · exact hfen
    · simpa using hfen

/-! ### Completions leave the fences alone -/

@[simp] theorem State.haltRing_fen (r code : Nat) (index : W32) : (s.haltRing r code index).fen = s.fen := by
  unfold State.haltRing
  dsimp only
  split <;> simp

@[simp] theorem State.unbindCheck_fen (r : Nat) : (s.unbindCheck r).fen = s.fen := by
  unfold State.unbindCheck State.uncache
  dsimp only
  split
  · rfl
  · split <;> simp

@[simp] theorem State.entryWritten_fen (r : Nat) (d : Desc) (late : Bool) : (s.entryWritten r d late).fen = s.fen := by
  unfold State.entryWritten
  dsimp only
  split <;> simp

@[simp] theorem State.entryFails_fen (r : Nat) (d : Desc) (started : Bool) : (s.entryFails r d started).fen = s.fen := by
  simp [State.entryFails]

@[simp] theorem State.complete_fen (r : Nat) (d : Desc) (st : Status) : (s.complete r d st).fen = s.fen := by
  unfold State.complete
  dsimp only
  generalize hw : s.objWriteAs _ _ _ _ _ _ _ = w
  have hfen : w.1.fen = s.fen := hw ▸ s.objWriteAs_fen ..
  obtain ⟨t, written⟩ := w
  cases written <;> simpa using hfen

@[simp] theorem State.startDesc_fen (r : Nat) (d : Desc) : (s.startDesc r d).fen = s.fen := rfl

@[simp] theorem State.releaseOk_fen (w : Waiter) : (s.releaseOk w).fen = s.fen := by
  unfold State.releaseOk
  split <;> simp

/-! ### The value of a fence once a signal is accepted (R297) -/

/-- The released waiters leave the fence; their completions change no fence. -/
theorem State.releaseWaiters_fen (n : Nat) :
    (s.releaseWaiters n).fen =
      (s.modFence n fun f => { f with waiters := f.waiters.filter fun w => !(s.fenceAt n).satisfies w.value }).fen :=
  State.foldl_keeps State.fen State.releaseOk State.releaseOk_fen _ _

theorem State.fenceAt_of_fen {s t : State} (h : t.fen = s.fen) (n : Nat) : t.fenceAt n = s.fenceAt n :=
  congrArg (fun x => x.fence.get Fence.init n) h

theorem State.releaseWaiters_value (n : Nat) : ((s.releaseWaiters n).fenceAt n).value = (s.fenceAt n).value := by
  rw [State.fenceAt_of_fen (s.releaseWaiters_fen n) n, State.fenceAt_modFence_self]

theorem State.mirrorFault_value (n a : Nat) : ((s.mirrorFault n a).fenceAt n).value = (s.fenceAt n).value := by
  rw [State.mirrorFault, State.fenceAt_of_fen (State.logRec_fen ..), State.fenceAt_modFence_self]

theorem State.mirror_value (n : Nat) : ((s.mirror n).fenceAt n).value = (s.fenceAt n).value := by
  unfold State.mirror
  dsimp only
  split
  · rfl
  next a _ =>
    generalize hw : s.objWriteAs _ _ _ _ _ _ _ = w
    have hvalue : (w.1.fenceAt n).value = (s.fenceAt n).value := by
      rw [State.fenceAt_of_fen (hw ▸ s.objWriteAs_fen ..) n]
    obtain ⟨t, written⟩ := w
    cases written with
    | failed => exact (State.mirrorFault_value t n a).trans hvalue
    | made => exact hvalue
    | sent => exact hvalue

/-- Neither the release of its waiters nor its mirror takes the accepted value from a fence. -/
theorem State.setFence_value (n : Nat) (v : W64) : ((s.setFence n v).fenceAt n).value = v := by
  rw [State.setFence, State.mirror_value, State.releaseWaiters_value, State.fenceAt_modFence_self]

end

/-! ### Judging a signal and a WAIT (R301–R303) -/

theorem Fence.judge_native {f : Fence} (h : f.compat = false) (v : W64) :
    f.judge v = if v = BitVec.allOnes 64 then .rejected else if v.toNat ≤ f.value.toNat then .stale else .accepted := by
  simp [Fence.judge, h]

theorem Fence.judge_compat {f : Fence} (h : f.compat = true) (v : W64) :
    f.judge v =
      let d := (v.toNat + 2 ^ 32 - f.value.toNat % 2 ^ 32) % 2 ^ 32
      if d = 0 then .stale else if d < 2 ^ 31 then .accepted else .rejected := by
  simp [Fence.judge, h]

theorem Fence.satisfies_native {f : Fence} (h : f.compat = false) (w : W64) : f.satisfies w = true ↔ w.toNat ≤ f.value.toNat := by
  simp [Fence.satisfies, h]

theorem Fence.satisfies_compat {f : Fence} (h : f.compat = true) (w : W64) :
    f.satisfies w = true ↔ (f.value.toNat + 2 ^ 32 - w.toNat % 2 ^ 32) % 2 ^ 32 < 2 ^ 31 := by
  simp [Fence.satisfies, h]

theorem mem_addWaiter_self (w : Waiter) (l : List Waiter) : w ∈ addWaiter w l := by
  induction l with
  | nil => exact List.mem_singleton.2 rfl
  | cons x l ih =>
    unfold addWaiter
    split
    · exact List.mem_cons_self
    · exact List.mem_cons_of_mem x ih

/-! ### WAIT and SIGNAL on a LIVE fence -/

section
variable {s : State} {r : Nat} {d : Desc}

theorem State.starting_of_live {type : Nat} (hd : s.head r type = some d) (hc : (s.ctxAt (s.ringAt r).ctx).st = .live) (f : Desc → State) :
    s.starting r type f = f d := by
  simp [State.starting, hd, hc]

theorem exec_wait_of_alive (ha : s.alive = true) (r : Nat) : exec (.wait r) s = .next (wait r s) := congrArg _ (State.live_of_alive ha _)

theorem exec_signal_of_alive (ha : s.alive = true) (r : Nat) : exec (.signal r) s = .next (signalDesc r s) :=
  congrArg _ (State.live_of_alive ha _)

theorem wait_of_live (hd : s.head r 3 = some d) (hc : (s.ctxAt (s.ringAt r).ctx).st = .live)
    (hfits : s.fenceFits ((s.ringPart r).getD 0xFF) (d.fence (s.ringAt r).fmt) (d.value (s.ringAt r).fmt) = true)
    (hst : (s.fenceAt (d.fence (s.ringAt r).fmt)).st = .live) :
    wait r s =
      let n := d.fence (s.ringAt r).fmt
      let w := BitVec.ofNat 64 (d.value (s.ringAt r).fmt)
      if (s.fenceAt n).satisfies w then (s.startDesc r d).complete r d .ok
      else (s.startDesc r d).modFence n fun f => { f with waiters := addWaiter ⟨w, r, d.index⟩ f.waiters } := by
  rw [wait, State.starting_of_live hd hc]
  simp [hfits, hst]

theorem signalDesc_of_live (hd : s.head r 4 = some d) (hc : (s.ctxAt (s.ringAt r).ctx).st = .live)
    (hfits : s.fenceFits ((s.ringPart r).getD 0xFF) (d.fence (s.ringAt r).fmt) (d.value (s.ringAt r).fmt) = true)
    (hkind : (s.fenceAt (d.fence (s.ringAt r).fmt)).kind = .plain) (howner : (s.fenceAt (d.fence (s.ringAt r).fmt)).owner = (s.ringAt r).ctx)
    (hst : (s.fenceAt (d.fence (s.ringAt r).fmt)).st = .live) :
    signalDesc r s =
      let n := d.fence (s.ringAt r).fmt
      let v := BitVec.ofNat 64 (d.value (s.ringAt r).fmt)
      let u := s.startDesc r d
      match (s.fenceAt n).judge v with
      | .accepted => ((u.setFence n v).updateSubs n).complete r d .ok
      | .stale => (u.modFence n fun f => { f with stale := inc32 f.stale }).complete r d .ok
      | .rejected => (u.modFence n fun f => { f with rejected := inc32 f.rejected }).complete r d .notPermitted := by
  rw [signalDesc, State.starting_of_live hd hc]
  simp only [hfits, hkind, howner, hst, State.signal, State.fenceAt_of_fen (s.startDesc_fen r d)]
  cases (s.fenceAt (d.fence (s.ringAt r).fmt)).judge (BitVec.ofNat 64 (d.value (s.ringAt r).fmt)) <;> simp

end

/-! ### The statement -/

/-- Settles O48: SIGNAL goes by the fence's judgement of its value (`signalDesc_of_live`), an accepted one stays the fence's (`State.setFence_value`), and
WAIT goes by whether the fence satisfies it (`wait_of_live`). -/
theorem waitsAndSignals : Obligations.WaitsAndSignals := by
  unfold Obligations.WaitsAndSignals
  refine ⟨fun f v hf => ?native, fun f v hf => ?compat, fun s r d ha hd hc => ?signal,
    fun f w _ => ⟨fun hf => Fence.satisfies_native hf w, fun hf => Fence.satisfies_compat hf w⟩, fun s r d ha hd hc hfits hst => ?wait⟩
  case native =>
    rw [Fence.judge_native hf]
    refine ⟨fun h => if_pos h, fun h hle => ?_, fun h hlt => ?_⟩
    · rw [if_neg h, if_pos hle]
    · rw [if_neg h, if_neg (Nat.not_le.2 hlt)]
  case compat =>
    rw [Fence.judge_compat hf]
    refine ⟨fun h => if_pos h, fun hge hlt => ?_, fun hge => ?_⟩
    · exact (if_neg (by omega)).trans (if_pos hlt)
    · exact (if_neg (by omega)).trans (if_neg (Nat.not_lt.2 hge))
  case signal =>
    intro n v f u hfits hkind howner hst
    rw [exec_signal_of_alive ha, signalDesc_of_live hd hc hfits hkind howner hst]
    refine ⟨fun h => ⟨?_, State.setFence_value u n v⟩, fun h => ?_, fun h => ?_⟩
    all_goals
      dsimp only
      rw [h]
  case wait =>
    intro f w
    rw [exec_wait_of_alive ha, wait_of_live hd hc hfits hst]
    refine ⟨fun h => congrArg _ (if_pos h), fun h => ⟨_, congrArg _ (if_neg (by simpa using h)), rfl, ?_, fun m hm => ?_⟩⟩
    · rw [State.fenceAt_modFence_self]
      exact mem_addWaiter_self ..
    · rw [State.fenceAt_modFence, if_neg hm.symm]
      rfl

end Sys2Proof.Machine

/-! SUPPORT. The watchdogs of the engines, the resets they begin, and the errors that make a chip reset due: one equation per branch of each command
(R414, R415, R513, R522–R525, R530, R545). -/

namespace Sys2Proof.Machine

section
variable {s : State} {e : Nat}

/-! ### WATCHDOG_FIRE (R522–R524) -/

section
variable {answers : Bool} {j : Job}

theorem exec_watchdogFire_of_alive (ha : s.alive = true) (e : Nat) (answers : Bool) :
    exec (.watchdogFire e answers) s = .next (watchdogFire e answers s) :=
  congrArg _ (State.live_of_alive ha _)

/-- A watchdog is blind to a replay, to a job that still has time, and while a breakpoint stops its core (R564). -/
theorem watchdogFire_of_unripe (hj : (s.engAt e).running = some j)
    (h : (s.engAt e).replay.isSome = true ∨ (s.engAt e).wd < (s.partAt j.part).wdFrames ∨ s.coreStopped (1 + e / 32) = true) :
    watchdogFire e answers s = s := by
  simp only [watchdogFire, hj]
  exact if_pos h

/-- A hang (R522): the engine's job has run `watchdog_frames` outside a replay, and no breakpoint stops the core that watches it. -/
structure State.Hangs (s : State) (e : Nat) (j : Job) : Prop where
  running : (s.engAt e).running = some j
  noReplay : (s.engAt e).replay = none
  time : (s.partAt j.part).wdFrames ≤ (s.engAt e).wd
  core : s.coreStopped (1 + e / 32) = false

theorem watchdogFire_of_hangs (h : s.Hangs e j) :
    watchdogFire e answers s =
      if (s.partAt j.part).st ≠ .live then s.resetEngine e
      else if answers = false then (s.countFire e j).loseDomain j.part e 3
      else
        let t := (s.countFire e j).modEng e fun y => { y with st := .resetting, running := none, wd := 0, nextId := 0, ran := (s.engAt e).ranNow }
        ((((((t.hangJob e j).leaveService j.part e).returnQueued e).dropTiles e).freeCredit e).probeEngine e).floorSettle := by
  simp only [watchdogFire, h.running]
  exact if_neg (by simp [h.noReplay, h.time, h.core])

end

/-! ### ENGINE_RESET_DONE (R415, R524) -/

theorem exec_engineResetDone_of_alive (ha : s.alive = true) (e : Nat) : exec (.engineResetDone e) s = .next (engineResetDone e s) :=
  congrArg _ (State.live_of_alive ha _)

theorem engineResetDone_of_traffic (hq : s.engQuiet e = false) : engineResetDone e s = s :=
  if_pos (.inr (.inr hq))

/-- The reset of an engine without a replay ends: it is back at the next frame boundary. -/
theorem engineResetDone_of_noReplay (hst : (s.engAt e).st = .resetting) (hc : s.coreStopped (1 + e / 32) = false) (hq : s.engQuiet e = true)
    (hr : (s.engAt e).replay = none) :
    engineResetDone e s = (s.probeEngine e).modEng e fun y => { y with st := .quarantined, back := true } := by
  simp [engineResetDone, hst, hc, hq, hr]

/-- The reset of an engine in a replay ends: its next suspect runs. -/
theorem engineResetDone_of_replay {r : Replay} (hst : (s.engAt e).st = .resetting) (hc : s.coreStopped (1 + e / 32) = false)
    (hq : s.engQuiet e = true) (hr : (s.engAt e).replay = some r) :
    engineResetDone e s = ((s.probeEngine e).modEng e fun y => { y with st := .quarantined }).nextReplay e (r.todo.length + 1) := by
  simp [engineResetDone, hst, hc, hq, hr]

/-! ### REPLAY_TIMEOUT (R525) -/

theorem exec_replayTimeout_of_alive (ha : s.alive = true) (e : Nat) : exec (.replayTimeout e) s = .next (replayTimeout e s) :=
  congrArg _ (State.live_of_alive ha _)

/-- The suspect that runs out of time is guilty. The engine that does not answer costs its domain; the second guilty suspect fails it. -/
theorem replayTimeout_of_due {r : Replay} {c : Nat} (hr : (s.engAt e).replay = some r) (hn : r.now = some c)
    (hrun : (s.engAt e).running.isSome = true) (ht : (s.partAt r.batch.part).replayFrames ≤ (s.engAt e).wd)
    (hc : s.coreStopped (1 + e / 32) = false) :
    replayTimeout e s =
      let q := { r with now := none, guilty := r.guilty ++ [c] }
      let u : State := { s with free := s.free + 1 }
      let t := ((u.probeEngine e).dropTiles e).modEng e fun y =>
        { y with running := none, wd := 0, replay := some q, st := .resetting, nextId := 0, ran := (s.engAt e).ranNow }
      if Config.engineAnswers s.free = false then u.loseDomain r.batch.part e 3
      else if 2 ≤ q.guilty.length then t.failEngine e q else t := by
  simp only [replayTimeout, hr, hn]
  exact if_neg (by simp [Option.isSome_iff_ne_none.1 hrun, ht, hc])

theorem two_le_length_concat_iff {α : Type} (l : List α) (a : α) : 2 ≤ (l ++ [a]).length ↔ l ≠ [] := by
  simp [← List.length_pos_iff, Nat.succ_le_iff]

/-! ### Errors that reset the chip (R37, R530, R545) -/

theorem exec_coreWatchdogExpiry_of_alive (ha : s.alive = true) (core : Nat) :
    exec (.coreWatchdogExpiry core) s =
      .next (if core < 9 ∧ s.coreStopped core = false ∧ 16 ≤ (s.coreAt core).missed then s.needReset 3 core else s) :=
  congrArg _ (State.live_of_alive ha _)

theorem exec_heartbeatTimeout_of_running (ha : s.alive = true) (hc : ∀ core, core < 9 → s.coreStopped core = false) :
    exec .heartbeatTimeout s = .next (if s.beat.hbMissed < 64 then s else s.needReset 2 0) := by
  have hany : ((List.range 9).any fun c => s.coreStopped c) = false := by simpa using hc
  refine congrArg _ ((State.live_of_alive ha _).trans ?_)
  simp [hany]

theorem exec_controlDomainError_of_alive (ha : s.alive = true) (unit syndrome : Nat) :
    exec (.controlDomainError unit syndrome) s =
      .next ((s.logRec { kind := 0x0018, part := 0xFF, a := unit, b := syndrome }).needReset 1 unit) :=
  congrArg _ (State.live_of_alive ha _)

/-- Lendor serves nothing once a chip reset is due (R37). -/
theorem State.alive_needReset (s : State) (cause unit : Nat) : (s.needReset cause unit).alive = false := by
  simp [State.alive, State.needReset_pending]

end

/-! ### The statement -/

/-- Settles O42: each command takes the branch of its equation (`watchdogFire_of_hangs`, `engineResetDone_of_replay`, `replayTimeout_of_due`), and the
errors end in `State.needReset`, after which Lendor does not serve (`State.alive_needReset`). -/
theorem watchdogsAndErrors : Obligations.WatchdogsAndErrors := by
  unfold Obligations.WatchdogsAndErrors
  refine ⟨fun s e answers j ha hj hc => ?watchdog, fun s e ha hst hc => ?resetDone, fun s e r c ha hr hn hrun ht hc => ?replay,
    fun s core ha hcore hc => ?core, fun s ha hc => ?heartbeat, fun s unit syndrome ha => exec_controlDomainError_of_alive ha unit syndrome,
    fun s cause detail hp => ⟨by simp [State.needReset_pending, hp], s.alive_needReset cause detail⟩⟩
  case watchdog =>
    rw [exec_watchdogFire_of_alive ha]
    refine ⟨fun h => congrArg _ (watchdogFire_of_unripe hj (h.imp_right .inl)), fun hr ht => ?_⟩
    rw [watchdogFire_of_hangs ⟨hj, hr, ht, hc⟩]
    refine ⟨fun hst => ?_, fun hst hans => ?_, fun hst hans => ?_⟩
    · rw [if_pos hst]
    · rw [if_neg (not_not.2 hst), if_pos hans]
    · rw [if_neg (not_not.2 hst), if_neg (by simp [hans])]
  case resetDone =>
    rw [exec_engineResetDone_of_alive ha]
    exact ⟨fun hq => congrArg _ (engineResetDone_of_traffic hq), fun hq hr => congrArg _ (engineResetDone_of_noReplay hst hc hq hr),
      fun r hq hr => congrArg _ (engineResetDone_of_replay hst hc hq hr)⟩
  case replay =>
    intro q u t
    rw [exec_replayTimeout_of_alive ha, replayTimeout_of_due hr hn hrun ht hc]
    refine ⟨fun hans => ?silent, fun hans hg => ?first, fun hans hg => ?second⟩
    case silent => exact congrArg _ (if_pos hans)
    case first =>
      refine congrArg _ ((if_neg (by simp [hans])).trans (if_neg ?_))
      rw [two_le_length_concat_iff]
      exact not_not.2 hg
    case second =>
      exact congrArg _ ((if_neg (by simp [hans])).trans (if_pos ((two_le_length_concat_iff ..).2 hg)))
  case core =>
    rw [exec_coreWatchdogExpiry_of_alive ha]
    refine ⟨fun h => ?_, fun h => ?_⟩
    · rw [if_pos ⟨hcore, hc, h⟩]
    · rw [if_neg fun ⟨_, _, hdue⟩ => Nat.not_le.2 h hdue]
  case heartbeat =>
    rw [exec_heartbeatTimeout_of_running ha hc]
    refine ⟨fun h => ?_, fun h => ?_⟩
    · rw [if_neg (Nat.not_lt.2 h)]
    · rw [if_pos h]

end Sys2Proof.Machine

/-! SUPPORT. The board side as Hawk, the board's management controller and a host see it: the answer of BOARD_STATUS, the I3C target with its sensors,
and SENSE_FAULT in the identification page (R574, R581, R582, R584). -/

namespace Sys2Proof.Machine

section
variable {s : State}

/-! ### BOARD_STATUS (R584) -/

/-- The fields of the BOARD_STATUS response payload. -/
def State.boardFields (s : State) : List (Nat × Nat) :=
  [(32, s.beatTraceReg), (32, s.senseReg), (32, s.diodeReg), (32, s.boardMisc), (32, s.board.changes.toNat), (32, s.board.stuck.toNat),
    (64, s.board.changed.toNat)] ++ ((List.range 8).map fun p => sat 16 (s.board.sense.get 0 p)) ++
    ((List.range 4).map fun d => (16, unsigned 16 (s.diodeShown d))) ++ [(64, 0)]

theorem runBoardStatus_eq (c : Cmd) (s : State) : runBoardStatus c s = s.answer s c s.boardFields := rfl

/-- The payload has 64 bytes, whatever it shows. -/
theorem State.boardFields_bytes (s : State) : (s.boardFields.map Prod.fst).sum / 8 = 64 := by
  simp [State.boardFields, sat, Function.comp_def]

theorem answers_boardStatus {k : Take} {c : Cmd} (h : s.serves k 0x1101 = some c) (hspace : 64 ≤ c.space) :
    Answers (.boardStatus k) s c (s.takeSlot c.ref) (s.takeSlot c.ref).boardFields := by
  have hfits : Fits c (s.takeSlot c.ref).boardFields := (State.boardFields_bytes _).trans_le hspace
  refine congrArg _ ((State.live_hawk_any h _).trans ?_)
  rw [runBoardStatus_eq, State.answer_of_fits hfits]

/-! ### The address of the I3C target (R581, R582) -/

theorem exec_sdaStuck_of_alive (ha : s.alive = true) :
    exec .sdaStuck s = .next (s.modBoard fun b => { b with active := false, addr := 0, stuck := inc32 b.stuck }) :=
  congrArg _ (State.live_of_alive ha _)

theorem exec_entdaa_of_alive (ha : s.alive = true) (a : BitVec 7) :
    exec (.entdaa a) s = .next (s.modBoard fun b => { b with active := true, addr := a }) :=
  congrArg _ (State.live_of_alive ha _)

theorem exec_setdasa_of_alive (ha : s.alive = true) :
    exec .setdasa s = .next (s.modBoard fun b => if b.static_ = 0 then b else { b with active := true, addr := b.static_ }) :=
  congrArg _ (State.live_of_alive ha _)

/-! ### The sensors of the I3C target (R581) -/

theorem exec_getSensorReading_of_alive (ha : s.alive = true) (n : Nat) :
    exec (.getSensorReading n) s = .next (s.i3cReply n (s.numericSensor n)) :=
  congrArg _ (State.live_of_alive ha _)

theorem exec_getStateSensorReadings_of_alive (ha : s.alive = true) (n : Nat) :
    exec (.getStateSensorReadings n) s = .next (s.i3cReply n (s.stateSensor n)) :=
  congrArg _ (State.live_of_alive ha _)

/-- A target with an address returns the reading. -/
theorem State.i3cReply_of_active (hact : s.board.active = true) (n x : Nat) :
    s.i3cReply n (some x) = { s with out := { s.out with pldm := s.out.pldm ++ [(n, x)] } } :=
  if_pos hact

/-- Without a sensor or without an address nothing is returned. -/
theorem State.i3cReply_of_silent {v : Option Nat} (h : v = none ∨ s.board.active = false) (n : Nat) : s.i3cReply n v = s := by
  cases v with
  | none => rfl
  | some x => exact if_neg (by simpa using h)

/-! ### SENSE_FAULT (R574) -/

theorem State.readWindow_senseFault (hr : s.reaches = true) (hopen : s.chip.opened = true) (r : Nat) : s.readWindow r 32 0xC4 = s.senseReg :=
  State.readWindow_idPage hr hopen (by decide) (by decide) r

/-- Bits [3p+2:3p] of SENSE_FAULT hold the code of sense pair `p`, which is pair 5 + p of the board. -/
theorem State.senseReg_field (s : State) {p : Nat} (hp : p < 8) : s.senseReg / 2 ^ (3 * p) % 8 = (s.pairAt (5 + p)).code % 8 := by
  have h := pack_uniform_field 3 (fun p => (s.pairAt (5 + p)).code) (List.range 8) p (by simpa using hp)
  rw [List.getElem_range] at h
  exact h

/-- Bits [31:24] of SENSE_FAULT are 0. -/
theorem State.senseReg_lt (s : State) : s.senseReg < 2 ^ 24 := pack_lt _

end

/-! ### The statement -/

/-- Settles O56: BOARD_STATUS answers with the 64 bytes of R584 (`answers_boardStatus`), each I3C command of a part that serves is one change of the
board side or one reply (`State.i3cReply`), and SENSE_FAULT packs eight codes of 3 bits in the identification page (`State.senseReg_field`). The
clauses rest on R574, R581, R582 and R584; the numbers of the sensors are the model's choice (DESIGN CHOICE, notes/assumptions/40.md). -/
theorem boardSide : Obligations.BoardSide := by
  unfold Obligations.BoardSide
  refine ⟨fun s k c h hspace => answers_boardStatus h hspace, fun s ha => exec_sdaStuck_of_alive ha, fun s a ha => exec_entdaa_of_alive ha a,
    fun s ha => ⟨fun hst => ?noStatic, fun hst => ?static⟩, fun s => ⟨rfl, rfl, rfl⟩, fun s n ha => ?sensors, fun s r p hr hopen hp => ?senseFault,
    fun s v => exec_registerWrite_of_ignored (writeWindow_idPage (by decide) v) s, fun p => rfl⟩
  case noStatic =>
    rw [exec_setdasa_of_alive ha, State.modBoard, if_pos hst]
  case static =>
    rw [exec_setdasa_of_alive ha, State.modBoard, if_neg hst]
  case sensors =>
    rw [exec_getSensorReading_of_alive ha, exec_getStateSensorReadings_of_alive ha]
    refine ⟨fun x hx hact => ?_, fun h => congrArg _ (State.i3cReply_of_silent h n), fun x hx hact => ?_,
      fun h => congrArg _ (State.i3cReply_of_silent h n)⟩
    all_goals rw [hx, State.i3cReply_of_active hact]
  case senseFault =>
    rw [State.readWindow_senseFault hr hopen]
    exact ⟨State.senseReg_field s hp, State.senseReg_lt s⟩

end Sys2Proof.Machine

/-! SUPPORT. What every step keeps: the lines' canonical form, the burned fuses, the queue and, but for the commands of Plumb, the beat. `Keeps`
holds of each function of the model, in the order of the model's files; the four statements over every step follow from it. -/

namespace Sys2Proof.Machine

/-- Checks pass where each does. -/
theorem passes_iff {l : List (Bool × Status × Nat)} : Passes l ↔ ∀ x ∈ l, x.1 = true := by
  induction l with
  | nil => simp [Passes, firstFail]
  | cons x l ih =>
    obtain ⟨ok, st, n⟩ := x
    cases ok
    · simp [Passes, firstFail]
    · simpa [Passes, firstFail] using ih

/-! ### Fuses only burn -/

theorem rowKept_refl (a : RootRow) : rowKept a a = true := by simp [rowKept]

theorem rowKept_trans {a b c : RootRow} (hab : rowKept a b = true) (hbc : rowKept b c = true) : rowKept a c = true := by
  simp only [rowKept, Bool.and_eq_true, beq_iff_eq] at hab hbc ⊢
  obtain ⟨hr, hc⟩ := hab
  obtain ⟨hr', hc'⟩ := hbc
  constructor
  · rw [← hr, BitVec.and_assoc, hr']
  · rw [← hc, BitVec.and_assoc, hc']

theorem Sec.burnedFrom_refl (x : Sec) : x.burnedFrom x :=
  ⟨Nat.le_refl _, Nat.le_refl _, Nat.le_refl _, rowKept_refl _, rowKept_refl _, rfl, fun _ _ h => h⟩

theorem Sec.burnedFrom_trans {x y z : Sec} (hyx : y.burnedFrom x) (hzy : z.burnedFrom y) : z.burnedFrom x := by
  obtain ⟨hb, hr, hv, hA, hB, hk, hm⟩ := hyx
  obtain ⟨hb', hr', hv', hA', hB', hk', hm'⟩ := hzy
  exact ⟨hb.trans hb', hr.trans hr', hv.trans hv', rowKept_trans hA hA', rowKept_trans hB hB', hk.trans hk', fun row i h => hm' row i (hm row i h)⟩

/-- A change of what is no fuse. -/
theorem Sec.burnedFrom_set (x : Sec) {slots : Tab KeySlot} {lc fuse : Lc} {root : Root} {start : BitVec 128} {resumed signed : Bool}
    {measured : Option (BitVec 384 × Bool × BitVec 384)} {cert : Option (Cert × Bool)} {saved : Option Cert} {grant : Option Nat}
    {challenge : Option Challenge} {challenges derived : W32} {run : Option LcRun} :
    Sec.burnedFrom
      ⟨slots, lc, fuse, x.burned, x.marks, x.rollback, x.rev, x.makerHash, x.rowA, x.rowB, root, start, resumed, signed, measured, cert, saved,
        grant, challenge, challenges, derived, run⟩
      x :=
  ⟨Nat.le_refl _, Nat.le_refl _, Nat.le_refl _, rowKept_refl _, rowKept_refl _, rfl, fun _ _ h => h⟩

theorem Sec.burnedFrom_rollback (x : Sec) (n : Nat) : Sec.burnedFrom { x with rollback := max x.rollback n } x :=
  ⟨Nat.le_refl _, Nat.le_max_left _ _, Nat.le_refl _, rowKept_refl _, rowKept_refl _, rfl, fun _ _ h => h⟩

theorem Sec.burnedFrom_rev {x : Sec} {n : Nat} (h : x.rev ≤ n) : Sec.burnedFrom { x with rev := n } x :=
  ⟨Nat.le_refl _, Nat.le_refl _, h, rowKept_refl _, rowKept_refl _, rfl, fun _ _ h => h⟩

/-- A further mark of a row (R467). -/
theorem Sec.burnedFrom_marks (x : Sec) (row k : Nat) : Sec.burnedFrom { x with marks := x.marks.upd 0 row fun m => m ||| k } x := by
  refine ⟨Nat.le_refl _, Nat.le_refl _, Nat.le_refl _, rowKept_refl _, rowKept_refl _, rfl, fun r i hi => ?_⟩
  change ((x.marks.upd 0 row fun m => m ||| k).get 0 r).testBit i = true
  rw [Tab.get_upd]
  split
  · next e => simp [Nat.testBit_or, e, hi]
  · exact hi

theorem Sec.burnedFrom_mark (x : Sec) (row k : Nat) : (x.mark row k).burnedFrom x :=
  Sec.burnedFrom_trans (x.burnedFrom_marks row (2 ^ (k - 1))) (Sec.burnedFrom_set _)

theorem rowKept_ones (a : RootRow) : rowKept a rootOnes = true := by
  simp only [rowKept, rootOnes, BitVec.and_allOnes, beq_self_eq_true, Bool.and_self]

theorem rowKept_blank (b : RootRow) : rowKept rootBlank b = true := by simp [rowKept, rootBlank]

theorem Sec.burnedFrom_burnRoot (x : Sec) : x.burnRoot.burnedFrom x :=
  ⟨Nat.le_refl _, Nat.le_refl _, Nat.le_refl _, rowKept_ones _, rowKept_ones _, rfl, fun _ _ h => h⟩

theorem Sec.burnedFrom_burnLc (x : Sec) (row : Nat) : (x.burnLc row).burnedFrom x :=
  ⟨Nat.le_succ _, Nat.le_refl _, Nat.le_refl _, rowKept_refl _, rowKept_refl _, rfl, fun _ _ h => h⟩

/-! ### What nearly every operation keeps -/

/-- From one state to another the queue stays, fuses only burn, and the stored lines keep their canonical form. -/
structure Steady (s t : State) : Prop where
  pending : t.pending = s.pending
  fuses : t.sec.burnedFrom s.sec
  lines : s.linesWf = true → t.linesWf = true

/-- So it is, and the tick counter stands. -/
structure Keeps (s t : State) : Prop extends Steady s t where
  tick : t.beat.tick = s.beat.tick

variable {s₀ s t : State}

theorem Keeps.refl (s : State) : Keeps s s := ⟨⟨rfl, Sec.burnedFrom_refl _, id⟩, rfl⟩

/-- An operation on other units. -/
theorem Keeps.of_eq (h : Keeps s₀ s) (hp : t.pending = s.pending) (hs : t.sec = s.sec) (hl : t.mem.line = s.mem.line)
    (ht : t.beat.tick = s.beat.tick) : Keeps s₀ t :=
  ⟨⟨hp.trans h.pending, hs ▸ h.fuses, fun w => by simpa [State.linesWf, hl] using h.lines w⟩, ht.trans h.tick⟩

/-- An operation on other units, by the fields that it may write. -/
theorem Keeps.set {chip : Chip} {box : Box} {org : Org} {ten : Tenant} {fen : FenceUnit} {eng : Tab Engine} {reg : Reg} {xl : Xlate} {coh : Coh}
    {net : Net} {pwr : Power} {watch : Watch} {log : Log} {obs : Obs} {board : Board} {free : Nat} {out : Out} {plumb : Plumb}
    {run hold drift never refused fire : Bool} {source : Option BeatSource} {freerun bad hbMissed nextAct : Nat}
    {faults switches errQt heartbeat blocked : W32} {lastLock hawkPass : W64} {err : Int} {seen laneOf : Tab (Option Nat)} {ports : BitVec 18}
    {trim : BitVec 16} {tickHi : Tab W32} {due : List Nat} {range : Tab Range} {tags tagDirty : Tab (List Nat)} {lanes : Tab (List Held)}
    {extents : List (Nat × Nat)} {saves : Tab (Option (Nat × Nat))} {laneLast : Tab Nat} {acts : List Activity} {rewrites : List Rewrite}
    (h : Keeps s₀ s) :
    Keeps s₀
      ⟨s.pending, chip, ⟨plumb, s.beat.tick, run, hold, drift, never, refused, source, freerun, faults, lastLock, switches, errQt, err, bad, seen,
        fire, ports, trim, tickHi, heartbeat, hbMissed, hawkPass, due⟩, box, org, ten, fen, eng, reg, xl, ⟨range, s.mem.line, tags, tagDirty,
        lanes, laneOf, extents, saves, laneLast, acts, nextAct, rewrites, blocked⟩, coh, s.sec, net, pwr, watch, log, obs, board, free, out⟩ :=
  h.of_eq rfl rfl rfl rfl

/-- An operation on the security state, too. -/
theorem Keeps.setSec {chip : Chip} {box : Box} {org : Org} {ten : Tenant} {fen : FenceUnit} {eng : Tab Engine} {reg : Reg} {xl : Xlate}
    {coh : Coh} {net : Net} {pwr : Power} {watch : Watch} {log : Log} {obs : Obs} {board : Board} {free : Nat} {out : Out} {sec : Sec}
    {range : Tab Range} {tags tagDirty : Tab (List Nat)} {lanes : Tab (List Held)} {laneOf : Tab (Option Nat)} {extents : List (Nat × Nat)}
    {saves : Tab (Option (Nat × Nat))} {laneLast : Tab Nat} {acts : List Activity} {nextAct : Nat} {rewrites : List Rewrite} {blocked : W32}
    (h : Keeps s₀ s) (hs : sec.burnedFrom s.sec) :
    Keeps s₀
      ⟨s.pending, chip, s.beat, box, org, ten, fen, eng, reg, xl, ⟨range, s.mem.line, tags, tagDirty, lanes, laneOf, extents, saves, laneLast,
        acts, nextAct, rewrites, blocked⟩, coh, sec, net, pwr, watch, log, obs, board, free, out⟩ :=
  ⟨⟨h.pending, Sec.burnedFrom_trans h.fuses hs, h.lines⟩, h.tick⟩

/-- An operation on the lines. -/
theorem Keeps.setLines {mem : Mem} {coh : Coh} (h : Keeps s₀ s) (hl : Tab.wf Line.init s.mem.line = true → Tab.wf Line.init mem.line = true) :
    Keeps s₀ { s with mem := mem, coh := coh } :=
  ⟨⟨h.pending, h.fuses, fun w => hl (h.lines w)⟩, h.tick⟩

/-! ### Branches and folds -/

theorem Keeps.ite {c : Prop} [Decidable c] (hs : Keeps s₀ s) (ht : Keeps s₀ t) : Keeps s₀ (if c then s else t) := by
  split
  · exact hs
  · exact ht

theorem Keeps.of_fst {α : Type} {p : State × α} {x : α} (h : Keeps s₀ p.1) (e : p = (s, x)) : Keeps s₀ s := by
  rw [e] at h
  exact h

theorem Keeps.of_snd {α : Type} {p : α × State} {x : α} (h : Keeps s₀ p.2) (e : p = (x, s)) : Keeps s₀ s := by
  rw [e] at h
  exact h

theorem Keeps.mk_fst {α : Type} {x : α} (h : Keeps s₀ s) : Keeps s₀ (s, x).1 := h

theorem Keeps.ite_fst {α : Type} {c : Prop} [Decidable c] {p q : State × α} (hp : Keeps s₀ p.1) (hq : Keeps s₀ q.1) :
    Keeps s₀ (if c then p else q).1 := by
  split
  · exact hp
  · exact hq

theorem Keeps.foldl {α : Type} {f : State → α → State} {l : List α} (h : Keeps s₀ s) (hf : ∀ t a, Keeps s₀ t → Keeps s₀ (f t a)) :
    Keeps s₀ (l.foldl f s) :=
  State.foldl_inv (Keeps s₀) f hf l s h

theorem Keeps.foldl_fst {α β : Type} {f : State × β → α → State × β} {l : List α} {b : β} (h : Keeps s₀ s)
    (hf : ∀ x a, Keeps s₀ x.1 → Keeps s₀ (f x a).1) : Keeps s₀ (l.foldl f (s, b)).1 :=
  List.foldlRecOn l f (motive := fun x => Keeps s₀ x.1) h fun x hx a _ => hf x a hx

end Sys2Proof.Machine

namespace Sys2Proof.Machine
variable {s₀ s t : State}

/-! ### Objects, messages and records -/

theorem Keeps.live {f : State → State} (h : Keeps s₀ s) (hf : ∀ t, Keeps s₀ t → Keeps s₀ (f t)) : Keeps s₀ (s.live f) :=
  .ite (hf s h) h

theorem Keeps.needReset {cause unit : ℕ} (h : Keeps s₀ s) : Keeps s₀ (s.needReset cause unit) := .ite h h.set

theorem Keeps.draw (h : Keeps s₀ s) : Keeps s₀ (s.draw).2 := h.set

theorem Keeps.modPart {n : ℕ} {f : Part → Part} (h : Keeps s₀ s) : Keeps s₀ (s.modPart n f) := h.set

theorem Keeps.modPfield {p f : ℕ} {g : PField → PField} (h : Keeps s₀ s) : Keeps s₀ (s.modPfield p f g) := h.set

theorem Keeps.modCtx {c : ℕ} {f : Ctx → Ctx} (h : Keeps s₀ s) : Keeps s₀ (s.modCtx c f) := h.set

theorem Keeps.modCtxf {c f : ℕ} {g : CtxField → CtxField} (h : Keeps s₀ s) : Keeps s₀ (s.modCtxf c f g) := h.set

theorem Keeps.modRing {r : ℕ} {f : Ring → Ring} (h : Keeps s₀ s) : Keeps s₀ (s.modRing r f) := h.set

theorem Keeps.modSeq {q : ℕ} {f : Seq → Seq} (h : Keeps s₀ s) : Keeps s₀ (s.modSeq q f) := h.set

theorem Keeps.modReserve {c : ℕ} {f : Reserve → Reserve} (h : Keeps s₀ s) : Keeps s₀ (s.modReserve c f) := h.set

theorem Keeps.modGroup {g : ℕ} {f : Group → Group} (h : Keeps s₀ s) : Keeps s₀ (s.modGroup g f) := h.set

theorem Keeps.modEng {e : ℕ} {f : Engine → Engine} (h : Keeps s₀ s) : Keeps s₀ (s.modEng e f) := h.set

theorem Keeps.modFence {f : ℕ} {g : Fence → Fence} (h : Keeps s₀ s) : Keeps s₀ (s.modFence f g) := h.set

theorem Keeps.modSeg {k : ℕ} {f : Seg → Seg} (h : Keeps s₀ s) : Keeps s₀ (s.modSeg k f) := h.set

theorem Keeps.modMigrate {p : ℕ} {f : Migrate → Migrate} (h : Keeps s₀ s) : Keeps s₀ (s.modMigrate p f) := h.set

theorem Keeps.modRange {r : ℕ} {f : Range → Range} (h : Keeps s₀ s) : Keeps s₀ (s.modRange r f) := h.set

theorem Keeps.putLine {l : ℕ} {v : Line} (h : Keeps s₀ s) : Keeps s₀ (s.putLine l v) :=
  h.setLines fun w => Tab.wf_put l v w

theorem Keeps.modAct {id : ℕ} {f : Activity → Activity} (h : Keeps s₀ s) : Keeps s₀ (s.modAct id f) := h.set

theorem Keeps.modPow {p : ℕ} {f : PowPart → PowPart} (h : Keeps s₀ s) : Keeps s₀ (s.modPow p f) := h.set

theorem Keeps.countGlob {i n : ℕ} (h : Keeps s₀ s) : Keeps s₀ (s.countGlob i n) := h.set

theorem Keeps.modRegField {p f : ℕ} {g : RegField → RegField} (h : Keeps s₀ s) : Keeps s₀ (s.modRegField p f g) := h.set

theorem Keeps.modRegClass {p f k : ℕ} {g : RegClass → RegClass} (h : Keeps s₀ s) : Keeps s₀ (s.modRegClass p f k g) := h.set

theorem Keeps.modCore {c : ℕ} {f : Core → Core} (h : Keeps s₀ s) : Keeps s₀ (s.modCore c f) := h.set

theorem Keeps.hawkCount (h : Keeps s₀ s) : Keeps s₀ s.hawkCount := .ite h h.set

theorem Keeps.watchCores (h : Keeps s₀ s) : Keeps s₀ s.watchCores := h.draw.set

theorem Keeps.servicePass (h : Keeps s₀ s) : Keeps s₀ s.servicePass := .ite h.set.hawkCount h

theorem Keeps.tickOrder (h : Keeps s₀ s) : Keeps s₀ s.tickOrder := h.set

theorem Keeps.msix {v : ℕ} (h : Keeps s₀ s) : Keeps s₀ (s.msix v) := h.set

theorem Keeps.partEvent {p : ℕ} (h : Keeps s₀ s) : Keeps s₀ (s.partEvent p) := .ite h h.msix

theorem Keeps.chipEvent (h : Keeps s₀ s) : Keeps s₀ s.chipEvent := h.msix

theorem Keeps.indexVector {p v : ℕ} (h : Keeps s₀ s) : Keeps s₀ (s.indexVector p v) := .ite h h.msix

theorem Keeps.hostWrite {addr : ℕ} {pasid : Option ℕ} {bytes data : ℕ} (h : Keeps s₀ s) : Keeps s₀ (s.hostWrite addr pasid bytes data) :=
  h.set

theorem Keeps.hostRead {addr : ℕ} {pasid : Option ℕ} {bytes : ℕ} (h : Keeps s₀ s) : Keeps s₀ (s.hostRead addr pasid bytes) := h.set

theorem Keeps.countMsg {port kind : ℕ} {tx : Bool} (h : Keeps s₀ s) : Keeps s₀ (s.countMsg port kind tx) := h.countGlob

theorem Keeps.linkSend {m : LinkMsg} (h : Keeps s₀ s) : Keeps s₀ (s.linkSend m) := h.set

theorem Keeps.logRec {r : RecBody} (h : Keeps s₀ s) : Keeps s₀ (s.logRec r) := h.set

/-! ### Slots and responses -/

theorem Keeps.modMb {m : Mailbox} {f : Mbx → Mbx} (h : Keeps s₀ s) : Keeps s₀ (s.modMb m f) := h.set

theorem Keeps.setDone {m : Mailbox} {slot : ℕ} (h : Keeps s₀ s) : Keeps s₀ (s.setDone m slot) := .ite (by
  split
  · exact h.modMb.msix
  · exact h.modMb) h.modMb

theorem Keeps.respond {ref : SlotRef} {st : Status} {detail len pay : ℕ} {session : Option W32} (h : Keeps s₀ s) :
    Keeps s₀ (s.respond ref st detail len pay session) := (Keeps.ite h.hostWrite h).modMb.setDone

theorem Keeps.finish {ref : SlotRef} {st : Status} {detail len pay : ℕ} (h : Keeps s₀ s) : Keeps s₀ (s.finish ref st detail len pay) :=
  .ite h.respond h

theorem Keeps.finishOpt {ref : Option SlotRef} {st : Status} {detail len pay : ℕ} (h : Keeps s₀ s) :
    Keeps s₀ (s.finishOpt ref st detail len pay) := by
  unfold State.finishOpt
  split
  · exact h.finish
  · exact h

theorem Keeps.refuseHello {ref : SlotRef} {st : Status} {d : ℕ} (h : Keeps s₀ s) : Keeps s₀ (s.refuseHello ref st d) :=
  .ite h.respond h.respond

theorem Keeps.turnAway {ref : SlotRef} {op : ℕ} {st : Status} {d : ℕ} (h : Keeps s₀ s) : Keeps s₀ (s.turnAway ref op st d) :=
  .ite h.refuseHello h.respond

theorem Keeps.reject {c : Cmd} {st : Status} {detail : ℕ} (h : Keeps s₀ s) : Keeps s₀ (s.reject c st detail) := h.respond

theorem Keeps.answer {after : State} {c : Cmd} {fields : List (ℕ × ℕ)} (h : Keeps s₀ s) (h2 : Keeps s₀ after) :
    Keeps s₀ (s.answer after c fields) := .ite h2.respond h.respond

theorem Keeps.background {after : State} {c : Cmd} {len : ℕ} (h : Keeps s₀ s) (h2 : Keeps s₀ after) : Keeps s₀ (s.background after c len) :=
  .ite h2 h.respond

theorem Keeps.checked {c : Cmd} {l : List (Bool × Status × ℕ)} {f : State → State} (h : Keeps s₀ s) (hf : ∀ t, Keeps s₀ t → Keeps s₀ (f t)) :
    Keeps s₀ (s.checked c l f) := by
  unfold State.checked
  split
  · exact h.reject
  · exact hf s h

theorem Keeps.takeSlot {ref : SlotRef} (h : Keeps s₀ s) : Keeps s₀ (s.takeSlot ref) := h.set

theorem Keeps.forgedRequest {ref : SlotRef} (h : Keeps s₀ s) : Keeps s₀ (s.forgedRequest ref) := h.respond.logRec.needReset

theorem Keeps.hawk {op : ℕ} {mine : Cmd → Bool} {k : Take} {run : Cmd → State → State} (h : Keeps s₀ s)
    (hrun : ∀ c t, Keeps s₀ t → Keeps s₀ (run c t)) : Keeps s₀ (hawk op mine k run s) := by
  unfold Machine.hawk
  split
  · exact h
  · refine .ite h (.ite h.takeSlot.turnAway ?_)
    split
    · exact h.takeSlot.turnAway
    · exact .ite h (.ite h.takeSlot.forgedRequest (hrun _ _ h.takeSlot))

/-! ### The dirty log -/

theorem Keeps.modDirty {p : ℕ} {f : DirtyLog → DirtyLog} (h : Keeps s₀ s) : Keeps s₀ (s.modDirty p f) := h.set

theorem Keeps.dirtyBit {p offset i : ℕ} (h : Keeps s₀ s) : Keeps s₀ (s.dirtyBit p offset i) := .ite h.hostRead h.hostRead.modDirty.hostWrite

theorem Keeps.dirtyMark {r a : ℕ} (h : Keeps s₀ s) : Keeps s₀ (s.dirtyMark r a) := .ite h (by
  split
  · exact h.dirtyBit
  · exact h)

theorem Keeps.dirtyHost {p pasid a n : ℕ} (h : Keeps s₀ s) : Keeps s₀ (s.dirtyHost p pasid a n) :=
  .ite h (.ite (.ite (h.foldl fun _ _ h => h.dirtyBit) h) (Keeps.ite (h.foldl fun _ _ h => h.dirtyBit) h).modDirty)

/-! ### Lines at a lane -/

theorem Keeps.markSlot {e : ℕ} {v : Option (ℕ × ℕ)} (h : Keeps s₀ s) : Keeps s₀ (s.markSlot e v) :=
  h.setLines fun w => Tab.wf_filter _ w

theorem Keeps.charge {p a cls bytes : ℕ} {waited : Bool} (h : Keeps s₀ s) : Keeps s₀ (s.charge p a cls bytes waited) := h.set.countGlob

theorem Keeps.countPart {p i n : ℕ} (h : Keeps s₀ s) : Keeps s₀ (s.countPart p i n) := h.set

theorem Keeps.countCtx {c i n : ℕ} (h : Keeps s₀ s) : Keeps s₀ (s.countCtx c i n) := .ite h.set.modCtx h.set

theorem Keeps.countBoth {p c i n : ℕ} (h : Keeps s₀ s) : Keeps s₀ (s.countBoth p c i n) := h.countPart.countCtx

theorem Keeps.chargeMaint {p a bytes : ℕ} (h : Keeps s₀ s) : Keeps s₀ (s.chargeMaint p a bytes) :=
  h.modRegField.countPart.countPart.countGlob.countGlob

theorem Keeps.countControl {a bytes : ℕ} (h : Keeps s₀ s) : Keeps s₀ (s.countControl a bytes) := h.countGlob.countGlob

theorem Keeps.addAct {a : Activity} (h : Keeps s₀ s) : Keeps s₀ (s.addAct a) := h.set

theorem Keeps.raiseSkim {r : ℕ} (h : Keeps s₀ s) : Keeps s₀ (s.raiseSkim r) :=
  .ite h (.ite h.modRange (.ite h.modRange.logRec.chipEvent h.modRange.addAct))

theorem Keeps.tagUse {l : ℕ} {write : Bool} (h : Keeps s₀ s) : Keeps s₀ (s.tagUse l write) :=
  .ite (Keeps.ite (Keeps.ite h h.countControl).countControl (.ite h h.countControl)).set (Keeps.ite h h.countControl).set

theorem Keeps.writeLine {r l : ℕ} {data : LineData} {tweak : ℕ} (h : Keeps s₀ s) : Keeps s₀ (s.writeLine r l data tweak) := by
  unfold State.writeLine
  extract_lets old g same n put marked frozen
  have hmarked : Keeps s₀ marked := .ite h.tagUse.putLine h.tagUse.putLine.dirtyMark
  have hfrozen : Keeps s₀ frozen := .ite hmarked.modRange hmarked
  exact .ite hfrozen.raiseSkim hfrozen

theorem Keeps.poisonLine {l : ℕ} {st : LineSt} (h : Keeps s₀ s) : Keeps s₀ (s.poisonLine l st) := by
  unfold State.poisonLine
  dsimp only
  split
  · exact h.tagUse.putLine.dirtyMark
  · exact h.tagUse.putLine

theorem Keeps.loseTagLine {r l : ℕ} (h : Keeps s₀ s) : Keeps s₀ (s.loseTagLine r l) := by
  unfold State.loseTagLine
  exact .ite (h.foldl fun _ _ h => h.poisonLine.putLine).modRange (h.foldl fun _ _ h => h.poisonLine.putLine).modRange.addAct

theorem Keeps.bareRead {r l tweak : ℕ} {ecc : EccEvent} {base : Bool} (h : Keeps s₀ s) : Keeps s₀ (s.bareRead r l tweak ecc base).st := by
  unfold State.bareRead
  dsimp only
  split
  · split
    · exact (Keeps.ite h.modRange h).poisonLine
    · split
      · exact .ite (Keeps.ite h.modRange h).poisonLine (.ite h.modRange h)
      · exact .ite (Keeps.ite h.modRange h).poisonLine (.ite h.modRange h)
  · split
    · exact .ite h.modRange h
    · split
      · exact .ite h.modRange h
      · exact (Keeps.ite h.modRange h).modRange.logRec

theorem Keeps.bareWrite {r l tweak : ℕ} {data : LineData} {mask : LineMask} {ecc : EccEvent} (h : Keeps s₀ s) :
    Keeps s₀ (s.bareWrite r l tweak data mask ecc).st := by
  unfold State.bareWrite
  dsimp only
  split
  · exact h.writeLine
  · split
    · exact h
    · split
      · exact h.poisonLine
      · exact (Keeps.ite h.modRange h).writeLine

/-! ### Copies and homes -/

theorem Keeps.putCopies {l : ℕ} {c : List Copy} (h : Keeps s₀ s) : Keeps s₀ (s.putCopies l c) := h.set

theorem Keeps.modCopy {l a : ℕ} {f : Copy → Copy} (h : Keeps s₀ s) : Keeps s₀ (s.modCopy l a f) := h.putCopies

theorem Keeps.dropCopy {l a : ℕ} (h : Keeps s₀ s) : Keeps s₀ (s.dropCopy l a) := h.putCopies

theorem Keeps.addCopy {l : ℕ} {c : Copy} (h : Keeps s₀ s) : Keeps s₀ (s.addCopy l c) := h.putCopies

theorem Keeps.putBack {r l : ℕ} {c : Copy} {d : LineData} (h : Keeps s₀ s) : Keeps s₀ (s.putBack r l c d) := h.charge.countBoth.writeLine

theorem Keeps.writeBack {l : ℕ} {c : Copy} (h : Keeps s₀ s) : Keeps s₀ (s.writeBack l c) := by
  unfold State.writeBack
  split
  · exact h
  · exact .ite h (.ite (.ite h.draw.putBack h.draw) (.ite h.putBack h))

theorem Keeps.snoopRead {l : ℕ} (h : Keeps s₀ s) : Keeps s₀ (s.snoopRead l) := by
  unfold State.snoopRead
  split
  · exact .ite h.writeBack.dropCopy h.writeBack.modCopy
  · exact h

theorem Keeps.snoopWrite {l : ℕ} (h : Keeps s₀ s) : Keeps s₀ (s.snoopWrite l) := by
  unfold State.snoopWrite
  split
  · exact h
  · exact (h.foldl fun _ _ h => h.writeBack).putCopies

theorem Keeps.probeOut {agent : ℕ} {f : ℕ → Bool} (h : Keeps s₀ s) : Keeps s₀ (s.probeOut agent f) := h.foldl fun _ _ h => .ite (by
  split
  · exact h.writeBack.dropCopy
  · exact h) h

theorem Keeps.probeEngine {e : ℕ} (h : Keeps s₀ s) : Keeps s₀ (s.probeEngine e) := h.probeOut

theorem Keeps.ticketNext {h' : ℕ} (h : Keeps s₀ s) : Keeps s₀ (s.ticketNext h') := by
  unfold State.ticketNext
  split
  · exact h
  · exact .ite h.set h

theorem Keeps.ticketAll {home n : ℕ} (h : Keeps s₀ s) : Keeps s₀ (s.ticketAll home n) := by
  induction n generalizing s with
  | zero => exact h
  | succ n ih => exact ih h.ticketNext

theorem Keeps.tagMismatch {r l tweak : ℕ} (h : Keeps s₀ s) : Keeps s₀ (s.tagMismatch r l tweak) := h.modRange.logRec

theorem Keeps.laneRead {r l tweak : ℕ} {ecc : EccEvent} {base : Bool} (h : Keeps s₀ s) : Keeps s₀ (s.laneRead r l tweak ecc base).st := by
  unfold State.laneRead
  split
  · exact h.tagMismatch
  · exact h.snoopRead.tagUse.bareRead

theorem Keeps.laneWrite {r l tweak : ℕ} {data : LineData} {mask : LineMask} {ecc : EccEvent} (h : Keeps s₀ s) :
    Keeps s₀ (s.laneWrite r l tweak data mask ecc).st := h.snoopWrite.tagUse.bareWrite

/-! ### Translation and Lendor's own accesses -/

theorem Keeps.tableWord {p k i : ℕ} {ecc : EccEvent} (h : Keeps s₀ s) : Keeps s₀ (s.tableWord p k i ecc).1 := by
  unfold State.tableWord
  dsimp only
  split
  · exact h
  · split
    · exact h
    · split
      · exact h.laneRead
      · exact h.laneRead.logRec

theorem Keeps.putWords {p k first : ℕ} {ws : List W64} (h : Keeps s₀ s) : Keeps s₀ (s.putWords p k first ws) := h.foldl fun _ _ h => by
  dsimp only
  split
  · exact h
  · exact .ite h (.ite h.writeLine (.ite h h.laneWrite))

theorem Keeps.stlbFill {f : ℕ} {e : TlbEntry} (h : Keeps s₀ s) : Keeps s₀ (s.stlbFill f e) := h.set

theorem Keeps.etlbFill {eng : ℕ} {e : TlbEntry} (h : Keeps s₀ s) : Keeps s₀ (s.etlbFill eng e) := h.set

theorem Keeps.walk {f p k page : ℕ} {ecc : EccEvent} (h : Keeps s₀ s) : Keeps s₀ (s.walk f p k page ecc).1 := by
  unfold State.walk
  split
  · next _ u1 e1 =>
      exact (h.tableWord.of_fst e1)
  · next _ u1 _ e1 =>
      split
      · exact (h.tableWord.of_fst e1).stlbFill
      · exact (h.tableWord.of_fst e1)

theorem Keeps.lookup {eng p k page : ℕ} (h : Keeps s₀ s) : Keeps s₀ (s.lookup eng p k page).1 := by
  unfold State.lookup
  dsimp only
  split
  · exact h.etlbFill
  · split
    · exact h.stlbFill.etlbFill
    · split
      · next _ u1 _ _ e1 =>
          exact (h.walk.of_fst e1).etlbFill
      · next _ u1 _ e1 =>
          exact (h.walk.of_fst e1)

theorem Keeps.dropTlb {f : TlbEntry → Bool} (h : Keeps s₀ s) : Keeps s₀ (s.dropTlb f) := h.set

theorem Keeps.dropKv {f : ℕ → Bool} (h : Keeps s₀ s) : Keeps s₀ (s.dropKv f) := h.set

theorem Keeps.hotRecord {p : ℕ} {h' : HotCount} (h : Keeps s₀ s) : Keeps s₀ (s.hotRecord p h') :=
  .ite h.hostWrite.modMigrate h.set.partEvent

theorem Keeps.hotCount {f p k page tier n : ℕ} (h : Keeps s₀ s) : Keeps s₀ (s.hotCount f p k page tier n) := .ite h (by
  split
  · exact .ite h.set.hotRecord h.set
  · exact h.set)

theorem Keeps.countLink {p c port bytes : ℕ} {tx : Bool} (h : Keeps s₀ s) : Keeps s₀ (s.countLink p c port bytes tx) :=
  h.set.countBoth.countGlob

theorem Keeps.passPort {n : ℕ} {w : PortWait} (h : Keeps s₀ s) : Keeps s₀ (s.passPort n w) := (Keeps.ite h.set h.set.countLink).linkSend

theorem Keeps.drainPort {n k : ℕ} (h : Keeps s₀ s) : Keeps s₀ (s.drainPort n k) := by
  induction k generalizing s with
  | zero => exact h
  | succ k ih =>
    unfold State.drainPort
    dsimp only
    split
    · exact h
    · exact .ite h (ih (Keeps.passPort h.set))

theorem Keeps.drainPorts (h : Keeps s₀ s) : Keeps s₀ s.drainPorts := h.foldl fun _ _ h => h.set.drainPort

theorem Keeps.portSend {n : ℕ} {w : PortWait} (h : Keeps s₀ s) : Keeps s₀ (s.portSend n w) := .ite h.passPort h.set.drainPort

theorem Keeps.linkAccess {node : ℕ} {w : PortWait} (h : Keeps s₀ s) : Keeps s₀ (s.linkAccess node w) := h.portSend

theorem Keeps.freeCredit4 {id : ℕ} (h : Keeps s₀ s) : Keeps s₀ (s.freeCredit4 id) := by
  unfold State.freeCredit4
  split
  · exact h.set.drainPort
  · exact h

theorem Keeps.freeCredits {id : ℕ} (h : Keeps s₀ s) : Keeps s₀ (s.freeCredits id) := h.set

theorem Keeps.place {p c a : ℕ} {write : Bool} (h : Keeps s₀ s) : Keeps s₀ (s.place p c a write).1 := by
  unfold State.place
  split
  · exact h
  · split
    · exact h
    · dsimp only
      split
      · split
        · exact h
        · split
          · exact h
          · split
            · next _ u1 e1 =>
                exact (h.tableWord.of_fst e1)
            · next _ u1 _ e1 =>
                split
                · exact (h.tableWord.of_fst e1)
                · split
                  · exact (h.tableWord.of_fst e1)
                  · exact (h.tableWord.of_fst e1)
      · split
        · exact h
        · split
          · exact h
          · split
            · next _ u1 e1 =>
                exact (h.tableWord.of_fst e1)
            · next _ u1 _ e1 =>
                split
                · exact (h.tableWord.of_fst e1)
                · split
                  · exact (h.tableWord.of_fst e1)
                  · exact (h.tableWord.of_fst e1)

theorem Keeps.meter {p c : ℕ} {x : Place} {page cls bytes : ℕ} (h : Keeps s₀ s) : Keeps s₀ (s.meter p c x page cls bytes) :=
  .ite h.charge.countBoth.hotCount h.charge.countBoth

theorem Keeps.remoteWrite {what : ObjWrite} {node : ℕ} {w : ℕ → PortWait} (h : Keeps s₀ s) : Keeps s₀ (s.remoteWrite what node w) :=
  h.set.linkAccess

theorem Keeps.objWriteAs {what : ObjWrite} {p c a bytes cls data : ℕ} (h : Keeps s₀ s) : Keeps s₀ (s.objWriteAs what p c a bytes cls data).1 := by
  unfold State.objWriteAs
  split
  · next e => exact h.place.of_fst e
  · next e =>
    have ht := h.place.of_fst e
    refine .ite_fst ht.hostWrite.countBoth.dirtyHost (.ite_fst (.ite_fst ht (.mk_fst ht.remoteWrite)) ?_)
    dsimp only
    split
    · exact ht
    · exact ht.laneWrite.meter

theorem Keeps.objRead {p c a bytes cls : ℕ} {host : Option ℕ} (h : Keeps s₀ s) : Keeps s₀ (s.objRead p c a bytes cls host).1 := by
  unfold State.objRead
  split
  · next _ u1 e1 =>
      exact (h.place.of_fst e1)
  · next _ u1 _ e1 =>
      split
      · exact (h.place.of_fst e1).countBoth
      · dsimp only
        split
        · split
          · exact (h.place.of_fst e1)
          · exact (h.place.of_fst e1).linkAccess.countLink
        · split
          · exact (h.place.of_fst e1)
          · split
            · exact (h.place.of_fst e1).laneRead.meter
            · exact (h.place.of_fst e1).laneRead.meter

/-! ### Rings, fences, sequences and groups -/

theorem Keeps.uncache {r : ℕ} (h : Keeps s₀ s) : Keeps s₀ (s.uncache r) := h.set

theorem Keeps.cacheRing {r : ℕ} (h : Keeps s₀ s) (e : s.cacheRing r = some t) : Keeps s₀ t := by
  unfold State.cacheRing at e
  dsimp only at e
  split at e
  · cases e
    exact h
  · split at e
    · cases e
      exact h.set
    · split at e
      · cases e
        exact Keeps.modRing h.set
      · cases e

theorem Keeps.haltRing {r code : ℕ} {index : W32} (h : Keeps s₀ s) : Keeps s₀ (s.haltRing r code index) :=
  .ite h.modRing h.modRing.modRing.logRec.partEvent

theorem Keeps.unbindCheck {r : ℕ} (h : Keeps s₀ s) : Keeps s₀ (s.unbindCheck r) := by
  unfold State.unbindCheck
  dsimp only
  split
  · exact h
  · exact .ite h.modRing.uncache.finish h

theorem Keeps.entryWritten {r : ℕ} {d : Desc} {late : Bool} (h : Keeps s₀ s) : Keeps s₀ (s.entryWritten r d late) :=
  (Keeps.ite h.modRing.modCtx.indexVector h.modRing.modCtx).unbindCheck

theorem Keeps.entryFails {r : ℕ} {d : Desc} {started : Bool} (h : Keeps s₀ s) : Keeps s₀ (s.entryFails r d started) :=
  h.modRing.haltRing.unbindCheck

theorem Keeps.complete {r : ℕ} {d : Desc} {st : Status} (h : Keeps s₀ s) : Keeps s₀ (s.complete r d st) := by
  unfold State.complete
  dsimp only
  split
  · next _ u1 e1 =>
      exact (h.objWriteAs.of_fst e1).entryFails
  · next _ u1 e1 =>
      exact (h.objWriteAs.of_fst e1).entryWritten
  · next _ u1 e1 =>
      exact (h.objWriteAs.of_fst e1).modRing

theorem Keeps.startDesc {r : ℕ} {d : Desc} (h : Keeps s₀ s) : Keeps s₀ (s.startDesc r d) := h.modRing

theorem Keeps.flushRing {r : ℕ} {st : Status} (h : Keeps s₀ s) : Keeps s₀ (s.flushRing r st) :=
  .ite h ((Keeps.ite h h.modRing).foldl fun _ _ h => .ite h.complete h)

theorem Keeps.mirrorFault {n a : ℕ} (h : Keeps s₀ s) : Keeps s₀ (s.mirrorFault n a) := h.modFence.logRec

theorem Keeps.mirror {n : ℕ} (h : Keeps s₀ s) : Keeps s₀ (s.mirror n) := by
  unfold State.mirror
  dsimp only
  split
  · exact h
  · split
    · next _ u1 e1 =>
        exact (h.objWriteAs.of_fst e1).mirrorFault
    · next _ u1 _ _ e1 =>
        exact (h.objWriteAs.of_fst e1)

theorem Keeps.releaseOk {w : Waiter} (h : Keeps s₀ s) : Keeps s₀ (s.releaseOk w) := by
  unfold State.releaseOk
  split
  · exact h.complete
  · exact h

theorem Keeps.releaseAbandoned {w : Waiter} (h : Keeps s₀ s) : Keeps s₀ (s.releaseAbandoned w) := by
  unfold State.releaseAbandoned
  split
  · exact h.complete.flushRing
  · exact h

theorem Keeps.releaseWaiters {n : ℕ} (h : Keeps s₀ s) : Keeps s₀ (s.releaseWaiters n) := h.modFence.foldl fun _ _ h => h.releaseOk

theorem Keeps.setFence {n : ℕ} {v : W64} (h : Keeps s₀ s) : Keeps s₀ (s.setFence n v) := h.modFence.releaseWaiters.mirror

theorem Keeps.updateProxy {n : ℕ} {v : W64} (h : Keeps s₀ s) : Keeps s₀ (s.updateProxy n v) := .ite (by
  split
  · exact h.setFence
  · exact h.modFence
  · exact h.modFence) h

theorem Keeps.updateSubs {n : ℕ} (h : Keeps s₀ s) : Keeps s₀ (s.updateSubs n) := h.foldl fun _ _ h => .ite h.updateProxy h.linkSend

theorem Keeps.signal {n : ℕ} {v : W64} (h : Keeps s₀ s) : Keeps s₀ (s.signal n v).1 := by
  unfold State.signal
  dsimp only
  split
  · exact h.setFence.updateSubs
  · exact h.modFence
  · exact h.modFence

theorem Keeps.abandonOne {n : ℕ} (h : Keeps s₀ s) : Keeps s₀ (s.abandonOne n) :=
  .ite h (h.modFence.foldl fun _ _ h => h.releaseAbandoned).mirror

theorem Keeps.tellAbandon {node proxy : ℕ} (h : Keeps s₀ s) : Keeps s₀ (s.tellAbandon node proxy) := .ite h.set h.linkSend

theorem Keeps.abandonSubs {subs : List (ℕ × ℕ)} (h : Keeps s₀ s) : Keeps s₀ (s.abandonSubs subs) :=
  h.foldl fun _ _ h => .ite h.abandonOne h.tellAbandon

theorem Keeps.abandonFence {n : ℕ} (h : Keeps s₀ s) : Keeps s₀ (s.abandonFence n) := .ite h h.abandonOne.abandonSubs

theorem Keeps.unsubscribe {n : ℕ} (h : Keeps s₀ s) : Keeps s₀ (s.unsubscribe n) := by
  unfold State.unsubscribe
  split
  · exact h
  · exact .ite h.modFence h.linkSend

theorem Keeps.freeFence {n : ℕ} (h : Keeps s₀ s) : Keeps s₀ (s.freeFence n) := h.unsubscribe.modFence

theorem Keeps.orphanSteps {gone : ℕ → Bool} (h : Keeps s₀ s) : Keeps s₀ (s.orphanSteps gone) := h.set

theorem Keeps.stepGroup {g : ℕ} (h : Keeps s₀ s) : Keeps s₀ (s.stepGroup g) :=
  h.foldl fun _ _ h => .ite h.setFence.updateSubs (.ite h.modFence h.setFence.updateSubs)

theorem Keeps.recordFault {p c : ℕ} (h : Keeps s₀ s) : Keeps s₀ (s.recordFault p c) := h.logRec

theorem Keeps.stepRecord {n pos : ℕ} {st : Status} {late stop end_ : Bool} {baseGen : Byte} {token : ℕ} (h : Keeps s₀ s) :
    Keeps s₀ (s.stepRecord n pos st late stop end_ baseGen token).1 := by
  unfold State.stepRecord
  dsimp only
  split
  · next _ u1 e1 =>
      exact (h.objWriteAs.of_fst e1).recordFault
  · next _ u1 e1 =>
      exact .ite (h.objWriteAs.of_fst e1).modSeq.indexVector (h.objWriteAs.of_fst e1).modSeq
  · next _ u1 e1 =>
      exact (h.objWriteAs.of_fst e1).modSeq

theorem Keeps.dropChunks {n : ℕ} {st : Status} (h : Keeps s₀ s) : Keeps s₀ (s.dropChunks n st) := h.modSeq.foldl fun _ _ h => h.complete

theorem Keeps.failSeq {n : ℕ} {st : Status} {pos : ℕ} {baseGen : Byte} {record late stop : Bool} (h : Keeps s₀ s) :
    Keeps s₀ (s.failSeq n st pos baseGen record late stop) := (Keeps.ite h.modSeq.stepRecord h.modSeq).dropChunks

theorem Keeps.unstall {c fast slow : ℕ} (h : Keeps s₀ s) : Keeps s₀ (s.unstall c fast slow) :=
  Keeps.foldl_fst h fun _ _ h => .ite_fst h.modSeq (.ite_fst h.modSeq h)

theorem Keeps.returnPages {c : ℕ} {l : List (ℕ × ℕ)} (h : Keeps s₀ s) : Keeps s₀ (s.returnPages c l).1 := by
  induction l generalizing s with
  | nil => exact h
  | cons e l ih =>
    unfold State.returnPages
    exact .ite_fst (ih h.modReserve) (ih h)

theorem Keeps.endSeq {n : ℕ} {ref : Option SlotRef} {keep : Bool} (h : Keeps s₀ s) : Keeps s₀ (s.endSeq n ref keep) :=
  (Keeps.ite_fst h.returnPages h).modSeq.unstall.set.dropKv.finishOpt

theorem Keeps.seqLanded {n : ℕ} (h : Keeps s₀ s) : Keeps s₀ (s.seqLanded n) := .ite (by
  split
  · exact h.endSeq
  · exact h.endSeq) h

theorem Keeps.swapCheck {g : ℕ} (h : Keeps s₀ s) : Keeps s₀ (s.swapCheck g) := by
  unfold State.swapCheck
  dsimp only
  split
  · exact h
  · exact .ite h.modGroup.finish h

theorem Keeps.swapChecks {p : ℕ} (h : Keeps s₀ s) : Keeps s₀ (s.swapChecks p) := h.foldl fun _ _ h => h.swapCheck

theorem Keeps.unadmit {f : ℕ} {r : Row} (h : Keeps s₀ s) : Keeps s₀ (s.unadmit f r) := h.modCtxf.modSeq.seqLanded

theorem Keeps.dropOpenRows {c : ℕ} (h : Keeps s₀ s) : Keeps s₀ (s.dropOpenRows c) := h.foldl fun _ _ h => by
  split
  · exact h
  · exact (h.modEng.foldl fun _ _ h => h.modSeq.seqLanded).swapCheck

theorem Keeps.clearFloor {c : ℕ} (h : Keeps s₀ s) : Keeps s₀ (s.clearFloor c) := h.foldl fun _ _ h => h.modCtxf

theorem Keeps.loseCtx {c reason addr obj : ℕ} (h : Keeps s₀ s) : Keeps s₀ (s.loseCtx c reason addr obj) :=
  .ite h (h.modCtx.dropOpenRows.clearFloor.foldl fun _ _ h => .ite h.failSeq h).logRec.modPart

/-! ### The mailbox window and sessions -/

theorem Keeps.bar {f : State → State} (h : Keeps s₀ s) (hf : ∀ t, Keeps s₀ t → Keeps s₀ (f t)) : Keeps s₀ (s.bar f) :=
  h.live fun t ht => .ite ht (hf t ht)

theorem Keeps.requestAreaWrite {mb : Mailbox} {slot word : ℕ} {v : W32} (h : Keeps s₀ s) : Keeps s₀ (requestAreaWrite mb slot word v s) :=
  .ite h (.ite h.modMb h.modMb)

theorem Keeps.mbSubmit {mb : Mailbox} {v : W32} (h : Keeps s₀ s) : Keeps s₀ (mbSubmit mb v s) := .ite h (.ite h.set h.modMb)

theorem Keeps.mbDoneClear {mb : Mailbox} {v : W32} (h : Keeps s₀ s) : Keeps s₀ (mbDoneClear mb v s) := .ite h h.modMb

theorem Keeps.endSession {m : Mailbox} {byLendor : Bool} (h : Keeps s₀ s) : Keeps s₀ (s.endSession m byLendor) := .ite h h.modMb

theorem Keeps.writeCtrl {mb : Mailbox} {v : W32} (h : Keeps s₀ s) : Keeps s₀ (writeCtrl mb v s) := .ite h (.ite (Keeps.endSession (by
  split
  · exact .ite h.modMb.modMb h.modMb.modMb
  · exact h.modMb)) (by
  split
  · exact .ite h.modMb.modMb h.modMb.modMb
  · exact h.modMb))

theorem Keeps.modWin {p w : ℕ} {f : Win → Win} (h : Keeps s₀ s) : Keeps s₀ (s.modWin p w f) := h.set

theorem Keeps.ctxWinSel {p w : ℕ} {v : W32} (h : Keeps s₀ s) : Keeps s₀ (ctxWinSel p w v s) := .ite h h.modWin

theorem Keeps.ctxWinCtl {p w : ℕ} {v : W32} (h : Keeps s₀ s) : Keeps s₀ (ctxWinCtl p w v s) := .ite h h.modWin

theorem Keeps.writeTelemetry {o : ℕ} {v : W32} (h : Keeps s₀ s) : Keeps s₀ (writeTelemetry o v s) :=
  .ite h (.ite h.ctxWinSel (.ite h.ctxWinCtl h))

theorem Keeps.writeWindow {offset : ℕ} {v : W32} (h : Keeps s₀ s) : Keeps s₀ (writeWindow offset v s) := .ite h.writeTelemetry (by
  split
  · exact h
  · exact .ite h (.ite h.writeCtrl (.ite h.mbSubmit (.ite h.mbDoneClear (.ite (.ite h h.modMb) (.ite h.requestAreaWrite h))))))

theorem Keeps.burnVersion (h : Keeps s₀ s) : Keeps s₀ s.burnVersion :=
  .ite (h.setSec (s.sec.burnedFrom_rollback _)) h

theorem Keeps.runHello {c : Cmd} (h : Keeps s₀ s) : Keeps s₀ (runHello c s) :=
  .ite h.refuseHello (.ite h.refuseHello (.ite h.refuseHello (.ite h.refuseHello (.ite h.respond
    (Keeps.ite h.endSession.modMb.set.logRec.burnVersion h.endSession.modMb.set.logRec).respond))))

theorem Keeps.runGoodbye {c : Cmd} (h : Keeps s₀ s) : Keeps s₀ (runGoodbye c s) := h.endSession.respond

theorem Keeps.runPing {c : Cmd} (h : Keeps s₀ s) : Keeps s₀ (runPing c s) := h.respond

theorem Keeps.runBeatStatus {c : Cmd} (h : Keeps s₀ s) : Keeps s₀ (runBeatStatus c s) := h.answer h

theorem Keeps.runPeerOffsets {c : Cmd} (h : Keeps s₀ s) : Keeps s₀ (runPeerOffsets c s) := h.answer h

/-! ### Credits, deliveries and admissions -/

theorem Keeps.useCredit {p f e : ℕ} {w : Work} {urgent : Bool} (h : Keeps s₀ s) : Keeps s₀ (s.useCredit p f e w urgent) :=
  .ite (.ite h.tickOrder.modEng.modPfield h.tickOrder.modEng) (by
  split
  · split
    · exact (Keeps.ite h.tickOrder.modPfield h.tickOrder).modEng.modEng
    · exact (Keeps.ite h.tickOrder.modPfield h.tickOrder).modEng
  · exact (Keeps.ite h.tickOrder.modPfield h.tickOrder).modEng)

theorem Keeps.chooseFor {p f e n : ℕ} (h : Keeps s₀ s) : Keeps s₀ (s.chooseFor p f e n) := by
  induction n generalizing s with
  | zero => exact h
  | succ n ih =>
    unfold State.chooseFor
    split
    · exact h
    · split
      · exact h
      · exact ih h.useCredit

theorem Keeps.enqueue {e : ℕ} {j : Job} (h : Keeps s₀ s) : Keeps s₀ (s.enqueue e j) := h.modEng

theorem Keeps.dispatchOut {e : ℕ} {d : BitVec 512} (h : Keeps s₀ s) : Keeps s₀ (s.dispatchOut e d) := h.set

theorem Keeps.dispatchBatch {e : ℕ} {d : BitVec 512} {b : Batch} (h : Keeps s₀ s) : Keeps s₀ (s.dispatchBatch e d b) := h.set

theorem Keeps.deliver {e : ℕ} (h : Keeps s₀ s) : Keeps s₀ (s.deliver e) := by
  unfold State.deliver
  split
  · exact h
  · exact (Keeps.ite h.probeEngine.modEng h).modEng.enqueue.dispatchBatch.modPart

theorem Keeps.closeIf {e : ℕ} {more : Bool} (h : Keeps s₀ s) : Keeps s₀ (s.closeIf e more) := by
  unfold State.closeIf
  dsimp only
  split
  · exact h
  · exact .ite h (.ite h.deliver h)

theorem Keeps.reserveRec {p c kind list count seq : ℕ} (h : Keeps s₀ s) : Keeps s₀ (s.reserveRec p c kind list count seq) :=
  .ite h.logRec h.set.partEvent

theorem Keeps.drawPage {p n pos : ℕ} (h : Keeps s₀ s) : Keeps s₀ (s.drawPage p n pos).1 := by
  unfold State.drawPage
  dsimp only
  split
  · exact h
  · split
    · split
      · exact .ite (Keeps.reserveRec (by
          split
          · exact h.modReserve
          · exact h.modReserve.modSeq)) (by
          split
          · exact h.modReserve
          · exact h.modReserve.modSeq)
      · split
        · exact .ite (Keeps.reserveRec (by
            split
            · exact h.modReserve
            · exact h.modReserve.modSeq)) (by
            split
            · exact h.modReserve
            · exact h.modReserve.modSeq)
        · exact h.tickOrder.modSeq.modReserve.reserveRec
    · split
      · exact .ite (Keeps.reserveRec (by
          split
          · exact h.modReserve
          · exact h.modReserve.modSeq)) (by
          split
          · exact h.modReserve
          · exact h.modReserve.modSeq)
      · split
        · exact .ite (Keeps.reserveRec (by
            split
            · exact h.modReserve
            · exact h.modReserve.modSeq)) (by
            split
            · exact h.modReserve
            · exact h.modReserve.modSeq)
        · exact h.tickOrder.modSeq.modReserve.reserveRec

theorem Keeps.chargeCtx {p c f : ℕ} {amount : ℤ} (h : Keeps s₀ s) : Keeps s₀ (s.chargeCtx p c f amount) := h.modCtxf

theorem Keeps.admitCtx {p c f cls charge : ℕ} {edf row : Bool} (h : Keeps s₀ s) : Keeps s₀ (s.admitCtx p c f cls charge edf row) :=
  h.set.clearFloor.modCtxf.modCtx.modPart.modRegClass.modPfield.countGlob

theorem Keeps.noteGap {p c : ℕ} (h : Keeps s₀ s) : Keeps s₀ (s.noteGap p c) := by
  unfold State.noteGap
  split
  · exact h
  · exact h.set.modPart

theorem Keeps.admitRow {p f e : ℕ} {b : Batch} {w : Work} {tier : Tier} (h : Keeps s₀ s) : Keeps s₀ (s.admitRow p f e b w tier).1 := by
  unfold State.admitRow
  split
  · next _ u1 e1 =>
      exact (h.drawPage.of_fst e1)
  · next _ u1 e1 =>
      exact (Keeps.ite (h.drawPage.of_fst e1).noteGap.modEng.modSeq.modCtxf (h.drawPage.of_fst e1).noteGap.modEng.modSeq).set.admitCtx

theorem Keeps.deliverWork {p f e r : ℕ} {d : Desc} {tier : Tier} (h : Keeps s₀ s) : Keeps s₀ (s.deliverWork p f e r d tier) :=
  h.noteGap.startDesc.modEng.enqueue.dispatchOut.admitCtx.modCtxf

theorem Keeps.floorSettle (h : Keeps s₀ s) : Keeps s₀ s.floorSettle := h.foldl fun _ _ h => .ite h (by
  split
  · exact .ite h h.modCtxf
  · exact h)

theorem Keeps.markWaits (h : Keeps s₀ s) : Keeps s₀ s.markWaits := h.set

theorem Keeps.dropStale {p f e : ℕ} (h : Keeps s₀ s) : Keeps s₀ (s.dropStale p f e) := by
  unfold State.dropStale
  split
  · exact .ite h h.modEng
  · exact h.modEng

theorem Keeps.settlePart {p f : ℕ} (h : Keeps s₀ s) : Keeps s₀ (s.settlePart p f) :=
  (h.floorSettle.foldl fun _ _ h => h.dropStale.closeIf.chooseFor).floorSettle

theorem Keeps.settle {f : ℕ} (h : Keeps s₀ s) : Keeps s₀ (s.settle f) := h.foldl fun _ _ h => .ite h h.settlePart

theorem Keeps.leaveService {p e : ℕ} (h : Keeps s₀ s) : Keeps s₀ (s.leaveService p e) := by
  unfold State.leaveService
  dsimp only
  split
  · exact h.modEng
  · split
    · exact h.modEng.modEng
    · exact (h.modEng.foldl fun _ _ h => h.unadmit).swapCheck

/-! ### Contexts and rings as commands change them -/

theorem Keeps.newCtx {p c : ℕ} {owner : W32} (h : Keeps s₀ s) : Keeps s₀ (s.newCtx p c owner) := h.set

theorem Keeps.runCtxCreate {c : Cmd} (h : Keeps s₀ s) : Keeps s₀ (runCtxCreate c s) := by
  unfold Machine.runCtxCreate
  exact h.checked (fun _ h => h.answer h.newCtx)

theorem Keeps.leaveGroups {c : ℕ} (h : Keeps s₀ s) : Keeps s₀ (s.leaveGroups c) := h.set

theorem Keeps.runCtxDestroy {c : Cmd} (h : Keeps s₀ s) : Keeps s₀ (runCtxDestroy c s) := by
  unfold Machine.runCtxDestroy
  exact h.checked (fun _ h => h.answer h.set)

theorem Keeps.runRingBind {c : Cmd} (h : Keeps s₀ s) : Keeps s₀ (Machine.runRingBind c s) := by
  unfold Machine.runRingBind
  refine h.checked fun t ht => ht.answer ?_
  split
  · next e => exact ht.modRing.cacheRing e
  · exact ht.modRing.modRing

theorem Keeps.dropWaiters {r : ℕ} (h : Keeps s₀ s) : Keeps s₀ (s.dropWaiters r) := h.set

theorem Keeps.discardRing {r : ℕ} (h : Keeps s₀ s) : Keeps s₀ (s.discardRing r) := h.dropWaiters.modRing

theorem Keeps.runRingUnbind {c : Cmd} (h : Keeps s₀ s) : Keeps s₀ (runRingUnbind c s) :=
  h.checked (fun _ h => .ite (.ite h.respond h.discardRing.respond.unbindCheck.floorSettle) (h.background
    (Keeps.ite h.modRing.discardRing h.modRing).unbindCheck.floorSettle))

theorem Keeps.runCtxQuery {c : Cmd} (h : Keeps s₀ s) : Keeps s₀ (runCtxQuery c s) := h.checked (fun _ h => h.answer h)

/-! ### Digests -/

theorem Keeps.modProbe {p i : ℕ} {f : Probe → Probe} (h : Keeps s₀ s) : Keeps s₀ (s.modProbe p i f) := h.set

theorem Keeps.digestLine {part ctx : ℕ} {seq : Option ℕ} {key a : ℕ} {data : LineData} {mask : LineMask} (h : Keeps s₀ s) :
    Keeps s₀ (s.digestLine part ctx seq key a data mask) := h.foldl fun _ _ h => .ite h h.modProbe

theorem Keeps.digestUnseen {part ctx : ℕ} {seq : Option ℕ} {key a n : ℕ} (h : Keeps s₀ s) : Keeps s₀ (s.digestUnseen part ctx seq key a n) :=
  h.foldl fun _ _ h => .ite h h.modProbe

/-! ### Tiles -/

theorem Keeps.failRow {e i : ℕ} {f : Fail} (h : Keeps s₀ s) : Keeps s₀ (s.failRow e i f) := h.modEng

theorem Keeps.failWork {e : ℕ} {f : Fail} (h : Keeps s₀ s) : Keeps s₀ (s.failWork e f) := h.modEng

theorem Keeps.degrade {p g slot : ℕ} (h : Keeps s₀ s) : Keeps s₀ (s.degrade p g slot) := .ite h.modGroup.partEvent h

theorem Keeps.failBatch {e : ℕ} {f : Fail} (h : Keeps s₀ s) : Keeps s₀ (s.failBatch e f) := by
  unfold State.failBatch
  split
  · exact h.modEng.degrade
  · exact h

theorem Keeps.failTag {e : ℕ} {tag : TileTag} {f : Fail} (h : Keeps s₀ s) : Keeps s₀ (s.failTag e tag f) := by
  unfold State.failTag
  split
  · exact h.failRow
  · exact h.failBatch
  · exact h.failWork

theorem Keeps.badTag {e cause : ℕ} (h : Keeps s₀ s) : Keeps s₀ (s.badTag e cause) := h.modEng.logRec

theorem Keeps.lookups {e p k : ℕ} {l : List ℕ} (h : Keeps s₀ s) : Keeps s₀ (s.lookups e p k l).1 := by
  induction l generalizing s with
  | nil => exact h
  | cons n l ih => exact ih h.lookup

theorem Keeps.footprint {e : ℕ} {x : Span} (h : Keeps s₀ s) : Keeps s₀ (s.footprint e x).1 := by
  unfold State.footprint
  split
  · exact h
  · split
    · exact h
    · split
      · exact h
      · dsimp only
        split
        · exact h
        · split
          · exact h
          · split
            · next _ u1 _ e1 =>
                exact (h.lookups.of_fst e1)
            · next _ u1 _ e1 =>
                split
                · exact (h.lookups.of_fst e1)
                · split
                  · exact (h.lookups.of_fst e1)
                  · exact (h.lookups.of_fst e1)

theorem Keeps.tileCheck {t : TileReq} {x : Span} (h : Keeps s₀ s) : Keeps s₀ (s.tileCheck t x).1 := by
  unfold State.tileCheck
  split
  · split
    · split
      · exact h.footprint
      · exact h
    · split
      · exact h.footprint
      · exact h
  · exact h.footprint

theorem Keeps.dropTile {id : ℕ} (h : Keeps s₀ s) : Keeps s₀ (s.dropTile id) := h.set

theorem Keeps.putTile {id : ℕ} {t : TileRun} (h : Keeps s₀ s) : Keeps s₀ (s.putTile id t) := h.set

theorem Keeps.unseenOn {t : TileReq} {x : Span} {k page : ℕ} (h : Keeps s₀ s) : Keeps s₀ (s.unseenOn t x k page) :=
  .ite h (h.foldl fun _ _ h => .ite h.digestUnseen h)

theorem Keeps.setStream {e : ℕ} {x : Option Stream} (h : Keeps s₀ s) : Keeps s₀ (s.setStream e x) := h.set

theorem Keeps.zeroTile {id : ℕ} {t : TileReq} {addr : ℕ} {st : Status} (h : Keeps s₀ s) : Keeps s₀ (s.zeroTile id t addr st) :=
  .ite h.dropTile.freeCredits.setStream h.set

theorem Keeps.endTileWith {id : ℕ} {t : TileReq} {f : Fail} (h : Keeps s₀ s) : Keeps s₀ (s.endTileWith id t f) := h.failTag.zeroTile

theorem Keeps.moveTile {id : ℕ} {t : TileReq} {x : Span} {k : ℕ} {pages : List (ℕ × ℕ × ℕ)} {cls dl : ℕ} (h : Keeps s₀ s) :
    Keeps s₀ (s.moveTile id t x k pages cls dl) := by
  unfold State.moveTile
  extract_lets g remote moved
  have hmoved : Keeps s₀ moved := h.foldl fun _ _ h => by
    extract_lets n runs seen pcie
    have hseen : Keeps s₀ seen := .ite h.unseenOn h
    exact .ite (Keeps.ite (hseen.set.foldl fun _ _ h => h.dirtyHost) hseen.set).countBoth.hotCount (.ite hseen.linkAccess hseen)
  exact .ite h.endTileWith (.ite hmoved.dropTile hmoved.putTile)

theorem Keeps.faultTile {id : ℕ} {t : TileReq} {x : Span} {k page : ℕ} (h : Keeps s₀ s) : Keeps s₀ (s.faultTile id t x k page) := by
  unfold State.faultTile
  dsimp only
  split
  · exact h.set.modMigrate.endTileWith
  · exact (Keeps.ite h.modMigrate.hostWrite h.set.partEvent).putTile

theorem Keeps.kvFill {t : TileReq} (h : Keeps s₀ s) : Keeps s₀ (s.kvFill t) := by
  unfold State.kvFill
  split
  · split
    · dsimp only
      split
      · exact h.set
      · exact h
    · exact h
  · exact h

theorem Keeps.sendToken {t : TileReq} (h : Keeps s₀ s) : Keeps s₀ (s.sendToken t) := by
  unfold State.sendToken
  split
  · exact h.set
  · exact h

theorem Keeps.fetchPages {f p k : ℕ} {l : List ℕ} (h : Keeps s₀ s) : Keeps s₀ (s.fetchPages f p k l).1 := by
  induction l generalizing s with
  | nil => exact h
  | cons n l ih =>
    unfold State.fetchPages
    split
    · exact ih h
    · split
      · next e => exact ih (h.walk.of_fst e)
      · next e => exact h.walk.of_fst e

theorem Keeps.stream {e k : ℕ} {x : Span} (h : Keeps s₀ s) : Keeps s₀ (s.stream e k x) := by
  unfold State.stream
  dsimp only
  split
  · exact .ite (.ite h.setStream.fetchPages h.setStream.fetchPages.setStream) h.setStream
  · exact h.setStream

theorem Keeps.runTile {id : ℕ} {t : TileReq} (h : Keeps s₀ s) : Keeps s₀ (s.runTile id t) := by
  unfold State.runTile
  dsimp only
  split
  · exact h.dropTile
  · exact h.sendToken.dropTile
  · exact h.endTileWith
  · split
    · next _ u1 e1 =>
        exact (h.kvFill.tileCheck.of_fst e1).endTileWith
    · next _ u1 _ _ e1 =>
        exact .ite (h.kvFill.tileCheck.of_fst e1).faultTile (h.kvFill.tileCheck.of_fst e1).endTileWith
    · next _ u1 _ _ e1 =>
        split
        · exact (h.kvFill.tileCheck.of_fst e1).stream.putTile
        · exact (h.kvFill.tileCheck.of_fst e1).stream.moveTile

theorem Keeps.freeFaultSlot {p i : ℕ} (h : Keeps s₀ s) : Keeps s₀ (s.freeFaultSlot p i) := h.modMigrate

theorem Keeps.endWait {id : ℕ} {t : TileRun} (h : Keeps s₀ s) : Keeps s₀ (s.endWait id t) := by
  unfold State.endWait
  split
  · exact h.freeFaultSlot.endTileWith
  · exact h

theorem Keeps.endWaits {f : TileRun → Bool} (h : Keeps s₀ s) : Keeps s₀ (s.endWaits f) := h.foldl fun _ _ h => h.endWait

theorem Keeps.retryWaits {k : ℕ} (h : Keeps s₀ s) : Keeps s₀ (s.retryWaits k) := h.foldl fun _ _ h => by
  dsimp only
  split
  · next _ u2 _ e2 =>
      exact .ite (by
        split
        · exact (h.tableWord.of_fst e2).freeFaultSlot.runTile
        · exact (h.tableWord.of_fst e2)) (h.tableWord.of_fst e2)
  · next _ u2 e2 =>
      exact (h.tableWord.of_fst e2).endWait

theorem Keeps.releaseMove {a : ℕ} (h : Keeps s₀ s) : Keeps s₀ (s.releaseMove a) := h.foldl fun _ _ h => h.runTile

/-! ### Staging -/

theorem Keeps.stage {c : Cmd} {es : List (ℕ × ℕ)} (h : Keeps s₀ s) : Keeps s₀ (s.stage c es) := .ite h.reject h.modMb.respond

/-! ### Segments and walks -/

theorem Keeps.segFail {c : Cmd} {index : ℕ} (h : Keeps s₀ s) : Keeps s₀ (s.segFail c index) := .ite h.respond h.respond

theorem Keeps.runSegLoad {table : HostTable} {c : Cmd} (h : Keeps s₀ s) : Keeps s₀ (runSegLoad table c s) := by
  unfold Machine.runSegLoad
  refine h.checked fun t ht => ?_
  dsimp only
  split
  · exact ht.segFail
  · exact ht.answer ht.modSeg.putWords

theorem Keeps.runSegEntries {table : HostTable} {c : Cmd} (h : Keeps s₀ s) : Keeps s₀ (runSegEntries table c s) := by
  unfold Machine.runSegEntries
  refine h.checked fun t ht => ?_
  dsimp only
  split
  · exact ht.segFail
  · exact ht.answer ht.putWords.modSeg.retryWaits

theorem Keeps.drainTlb {c : Cmd} {f : ℕ → ℕ → Bool} {unload : Bool} (hb : Keeps s₀ t) (h : Keeps s₀ s) : Keeps s₀ (t.drainTlb s c f unload) :=
  .ite (hb.answer h.dropTlb) (hb.background (Keeps.set h.dropTlb))

theorem Keeps.stopMoves {k : ℕ} (h : Keeps s₀ s) : Keeps s₀ (s.stopMoves k) := h.foldl fun _ _ h => h.set.finishOpt.releaseMove

theorem Keeps.runSegUnload {c : Cmd} (h : Keeps s₀ s) : Keeps s₀ (runSegUnload c s) :=
  h.checked fun _ h => Keeps.drainTlb h h.modSeg.endWaits.stopMoves

theorem Keeps.runSegCheck {table : HostTable} {c : Cmd} (h : Keeps s₀ s) : Keeps s₀ (runSegCheck table c s) := by
  unfold Machine.runSegCheck
  exact h.checked (fun _ h => h.answer h)

theorem Keeps.runTlbInvalidate {c : Cmd} (h : Keeps s₀ s) : Keeps s₀ (runTlbInvalidate c s) :=
  h.checked fun _ h => Keeps.drainTlb h (.ite h.dropKv (.ite h.dropKv h))

theorem Keeps.tlbDrainEnd {mb : Mailbox} {slot : ℕ} (h : Keeps s₀ s) : Keeps s₀ (tlbDrainEnd mb slot s) := by
  unfold Machine.tlbDrainEnd
  split
  · exact h
  · exact .ite h h.set.finish

theorem Keeps.runMigrateMode {c : Cmd} (h : Keeps s₀ s) : Keeps s₀ (runMigrateMode c s) := h.checked (fun _ h => h.stage)

theorem Keeps.tile {t : TileReq} (h : Keeps s₀ s) : Keeps s₀ (tile t s) := .ite h (.ite h.badTag.endTileWith h.set.runTile)

theorem Keeps.faultWaitExpiry {p slot : ℕ} (h : Keeps s₀ s) : Keeps s₀ (faultWaitExpiry p slot s) := by
  unfold Machine.faultWaitExpiry
  dsimp only
  split
  · exact h
  · exact .ite h (by
      split
      · exact h.endWait
      · exact h.freeFaultSlot)

theorem Keeps.copyRead {paid : Bool} {p range a tweak : ℕ} {ecc : EccEvent} (h : Keeps s₀ s) :
    Keeps s₀ (s.copyRead paid p range a tweak ecc).1 := by
  unfold State.copyRead
  split
  · exact h
  · exact .ite h.laneRead h.laneRead.chargeMaint

theorem Keeps.copyWrite {paid : Bool} {p range a tweak : ℕ} {data : Option LineData} (h : Keeps s₀ s) :
    Keeps s₀ (s.copyWrite paid p range a tweak data) := by
  unfold State.copyWrite
  split
  · exact h
  · dsimp only
    split
    · exact (Keeps.ite h h.chargeMaint).snoopWrite.writeLine
    · exact (Keeps.ite h h.chargeMaint).poisonLine

theorem Keeps.copyPage {a : Activity} {from_ tier : ℕ} {host : List LineData} {bad : List (ℕ × EccEvent)} (h : Keeps s₀ s) :
    Keeps s₀ (s.copyPage a from_ tier host bad).1 := by
  refine Keeps.foldl_fst h fun x i hx => ?_
  have hread : Keeps s₀ (if tier = 0 then (x.1, some ((host[i]?).getD 0)) else
      x.1.copyRead true a.part ((s.segAt a.seg).keyFor tier) (localAddr from_ + 128 * i) (segTweak a.part a.seg) (eccAt bad
        (localAddr from_ + 128 * i))).1 := by
    split
    · exact hx
    · exact hx.copyRead
  exact .ite (hread.dirtyHost.hostWrite) hread.copyWrite

theorem Keeps.tierMoveSwap {id : ℕ} {host : List LineData} {bad : List (ℕ × EccEvent)} (h : Keeps s₀ s) :
    Keeps s₀ (tierMoveSwap id host bad s) := by
  unfold Machine.tierMoveSwap
  split
  · exact h
  · exact .ite h (by
      split
      · exact h
      · exact h.copyPage.putWords.hostWrite.dropTlb.modAct.releaseMove)

/-! ### The memory gate -/

theorem Keeps.tagFetch {a : ℕ} {ecc : EccEvent} (h : Keeps s₀ s) : Keeps s₀ (s.tagFetch a ecc) :=
  .ite h.tagUse (.ite (.ite h.tagUse h.tagUse.needReset) (by
  split
  · exact .ite h.tagUse.loseTagLine h.tagUse
  · exact .ite (h.tagUse.foldl fun _ _ h => h.poisonLine) h.tagUse))

theorem Keeps.reportShared {p a : ℕ} (h : Keeps s₀ s) : Keeps s₀ (s.reportShared p a) := by
  unfold State.reportShared
  split
  · exact h
  · exact .ite h h.set

theorem Keeps.retryStep {e : ℕ} (h : Keeps s₀ s) : Keeps s₀ (s.retryStep e) := h.modEng

theorem Keeps.sharedPoison {e p a : ℕ} (h : Keeps s₀ s) : Keeps s₀ (s.sharedPoison e p a) := h.retryStep.reportShared

theorem Keeps.gateFail {who : Requester} {f : Fail} (h : Keeps s₀ s) : Keeps s₀ (s.gateFail who f) := by
  unfold State.gateFail
  split
  · exact h.failTag
  · exact h

theorem Keeps.gateRefuse {who : Requester} {a step : ℕ} (h : Keeps s₀ s) : Keeps s₀ (s.gateRefuse who a step) := .ite (by
  split
  · exact h.modRange
  · exact h.set) (by
  dsimp only
  split
  · exact h.gateFail.badTag
  · exact h.gateFail)

theorem Keeps.regionAccess {a : ℕ} {acc : Access} {ecc : EccEvent} (h : Keeps s₀ s) : Keeps s₀ (s.regionAccess a acc ecc).1 := by
  unfold State.regionAccess
  dsimp only
  split
  · split
    · exact .ite h.countControl.tagUse.needReset h.countControl.tagUse.poisonLine
    · split
      · exact h.countControl.tagUse
      · split
        · exact h.countControl.tagUse
        · exact h.countControl.tagUse.logRec
      · exact h.countControl.tagUse
  · split
    · exact h.countControl.tagUse.putLine
    · split
      · split
        · exact h.countControl.tagUse.needReset
        · split
          · exact h.countControl.tagUse
          · exact h.countControl.tagUse.putLine
      · split
        · exact h.countControl.tagUse.poisonLine
        · split
          · exact h.countControl.tagUse
          · exact h.countControl.tagUse.putLine

theorem Keeps.gateLine {g : GateReq} {c : Charged} {a : ℕ} (h : Keeps s₀ s) : Keeps s₀ (s.gateLine g c a).1 := by
  unfold State.gateLine
  dsimp only
  split
  · split
    · exact h.laneRead.sharedPoison
    · exact h.laneRead.sharedPoison
    · exact .ite (.ite h.laneRead.reportShared h.laneRead) (Keeps.ite h.laneRead.reportShared h.laneRead).gateFail
  · split
    · exact h.laneWrite
    · exact .ite (by
        split
        · exact (Keeps.ite h.laneWrite.reportShared h.laneWrite).gateFail
        · exact (Keeps.ite h.laneWrite.reportShared h.laneWrite).gateFail
        · exact (Keeps.ite h.laneWrite.reportShared h.laneWrite).gateFail.loseCtx) (Keeps.ite h.laneWrite.reportShared h.laneWrite).gateFail

theorem Keeps.gateDigest {g : GateReq} {c : Charged} {a : ℕ} (h : Keeps s₀ s) : Keeps s₀ (s.gateDigest g c a) := by
  unfold State.gateDigest
  split
  · exact .ite h h.digestLine
  · exact h

theorem Keeps.gateHot {g : GateReq} {c : Charged} {a : ℕ} (h : Keeps s₀ s) : Keeps s₀ (s.gateHot g c a) := by
  unfold State.gateHot
  split
  · exact .ite h.hotCount h
  · exact h

theorem Keeps.gate {g : GateReq} (h : Keeps s₀ s) : Keeps s₀ (s.gate g).1 := by
  unfold State.gate
  dsimp only
  split
  · exact h.gateRefuse
  · refine .ite_fst h.tagFetch.regionAccess ?_
    split
    · exact h.countControl.tagFetch.gateLine
    · refine .ite (Keeps.gateDigest (Keeps.gateLine (Keeps.gateHot ?_))) (Keeps.gateLine (Keeps.gateHot ?_))
      all_goals exact .ite h.tagFetch.chargeMaint (.ite h.tagFetch.countControl h.tagFetch.charge.countBoth)

theorem Keeps.endTile {g : GateReq} (h : Keeps s₀ s) : Keeps s₀ (s.endTile g) := by
  unfold State.endTile
  split
  · exact .ite h.dropTile h
  · exact h

theorem Keeps.reply {g : GateReq} {st : Status} {d : LineData} (h : Keeps s₀ s) : Keeps s₀ (s.reply g st d) := .ite h h.set

theorem Keeps.leaveLane {k : ℕ} {h' : Held} (h : Keeps s₀ s) : Keeps s₀ (s.leaveLane k h') := h.set

theorem Keeps.answerWith {g : GateReq} {st : Status} {d : LineData} (h : Keeps s₀ s) : Keeps s₀ (s.answerWith g st d) := by
  unfold State.answerWith
  split
  · exact h.linkSend
  · exact h.reply.endTile

theorem Keeps.answerGate {h' : Held} (h : Keeps s₀ s) : Keeps s₀ (s.answerGate h') := by
  unfold State.answerGate
  dsimp only
  split
  · exact (Keeps.ite h.gate.countLink h.gate).portSend
  · exact h.gate.answerWith

theorem Keeps.serveLane {k n : ℕ} (h : Keeps s₀ s) : Keeps s₀ (s.serveLane k n) := by
  induction n generalizing s with
  | zero => exact h
  | succ n ih =>
    unfold State.serveLane
    split
    · exact h
    · exact ih h.leaveLane.answerGate

theorem Keeps.serveLanes (h : Keeps s₀ s) : Keeps s₀ s.serveLanes := h.foldl fun _ _ h => h.serveLane

theorem Keeps.purgeLanes {f : GateReq → Bool} (h : Keeps s₀ s) : Keeps s₀ (s.purgeLanes f) := h.set

theorem Keeps.noteWait {g : GateReq} (h : Keeps s₀ s) : Keeps s₀ (s.noteWait g) := by
  unfold State.noteWait
  dsimp only
  split
  · exact h.set
  · exact h

theorem Keeps.enterLane {g : GateReq} {dl : ℕ} (h : Keeps s₀ s) : Keeps s₀ (s.enterLane g dl) := .ite h h.set.noteWait.serveLane

theorem Keeps.poisonLanes {d : ℕ} (h : Keeps s₀ s) : Keeps s₀ (s.poisonLanes d) := h.purgeLanes.foldl fun _ _ h => h.answerWith

theorem Keeps.gateRequest {asked : GateReq} (h : Keeps s₀ s) : Keeps s₀ (gateRequest asked s) := .ite h (.ite (by
  split
  · exact h.badTag.reply
  · exact h) (.ite h (by
  split
  · exact h.enterLane
  · exact h)))

theorem Keeps.linkRequest {g : GateReq} {deadline : ℕ} {drift : Bool} (h : Keeps s₀ s) : Keeps s₀ (linkRequest g deadline drift s) := by
  unfold Machine.linkRequest
  split
  · exact .ite h h.enterLane
  · exact h

theorem Keeps.copyLines {p base : ℕ} {ecc : EccEvent} {l : List ℕ} (h : Keeps s₀ s) : Keeps s₀ (s.copyLines p base ecc l).1 := by
  induction l generalizing s with
  | nil => exact h
  | cons i l ih =>
    unfold State.copyLines
    split
    · exact h
    · split
      · exact h
      · split
        · next e => exact h.copyRead.of_fst e
        · next e =>
          have hrest := ih (h.copyRead.of_fst e)
          split
          · next e' => exact hrest.of_fst e'
          · next e' => exact hrest.of_fst e'

theorem Keeps.loseMembers {g : ℕ} (h : Keeps s₀ s) : Keeps s₀ (s.loseMembers g) := h.foldl fun _ _ h => h.loseCtx

theorem Keeps.sharedPoisonRewrite {g n block : ℕ} {ecc : EccEvent} (h : Keeps s₀ s) : Keeps s₀ (sharedPoisonRewrite g n block ecc s) := by
  unfold Machine.sharedPoisonRewrite
  split
  · exact h
  · dsimp only
    split
    · next _ u1 _ e1 =>
        exact ((h.set.copyLines.of_fst e1).foldl fun _ _ h => by
          split
          · exact h.copyWrite
          · exact h).logRec.partEvent
    · next _ u1 e1 =>
        exact .ite (h.set.copyLines.of_fst e1).degrade.loseMembers.logRec (h.set.copyLines.of_fst e1)

theorem Keeps.clearLines {base len : ℕ} (h : Keeps s₀ s) : Keeps s₀ (s.clearLines base len) := by
  refine h.setLines fun w => ?_
  dsimp only
  exact Tab.wf_mapAll _ w

theorem Keeps.rangeClearingDone {r : ℕ} (h : Keeps s₀ s) : Keeps s₀ (rangeClearingDone r s) := .ite h h.clearLines.countControl.modRange

/-! ### Walks of maintenance -/

theorem Keeps.startActivity {after : State} {c : Cmd} {a : Activity} {len : ℕ} (h : Keeps s₀ s) (h2 : Keeps s₀ after) :
    Keeps s₀ (s.startActivity after c a len) := .ite h.respond (.ite h2.addAct.respond h2.addAct)

theorem Keeps.dropAct {id : ℕ} (h : Keeps s₀ s) : Keeps s₀ (s.dropAct id) := h.set

theorem Keeps.skimLine {a : Activity} {r g : ℕ} {bad : List (ℕ × EccEvent)} {l : ℕ} (h : Keeps s₀ s) : Keeps s₀ (s.skimLine a r g bad l) :=
  .ite h.snoopRead (.ite h.snoopRead.modAct.tagUse.putLine (by
  split
  · exact h.snoopRead.modAct.tagUse.putLine.dirtyMark.modAct
  · exact .ite h.snoopRead.modAct.tagUse.putLine.dirtyMark.modAct (Keeps.ite h.snoopRead.modAct.modRange.modAct h.snoopRead.modAct).tagUse.putLine))

theorem Keeps.skim {a : Activity} {bad : List (ℕ × EccEvent)} (h : Keeps s₀ s) : Keeps s₀ (s.skim a bad) := by
  unfold State.skim
  split
  · exact h
  · exact (h.foldl fun _ _ h => h.skimLine).modRange

theorem Keeps.rebuiltData {v : Line} {key tweak : ℕ} (h : Keeps s₀ s) : Keeps s₀ (s.rebuiltData v key tweak).1 := by
  unfold State.rebuiltData
  split
  · exact h
  · split
    · exact h
    · exact h.set

theorem Keeps.rebuildLine {a : Activity} {r : ℕ} {bad : List (ℕ × EccEvent)} {l : ℕ} (h : Keeps s₀ s) : Keeps s₀ (s.rebuildLine a r bad l) :=
  .ite (.ite h.snoopRead h) (by
  split
  · exact (Keeps.ite h.snoopRead h).modAct
  · exact .ite (Keeps.ite h.snoopRead h).modAct (Keeps.ite (Keeps.ite h.snoopRead h).modAct.modRange.modAct
      (Keeps.ite h.snoopRead h).modAct).rebuiltData.tagUse.putLine)

theorem Keeps.rebuild {a : Activity} {bad : List (ℕ × EccEvent)} (h : Keeps s₀ s) : Keeps s₀ (s.rebuild a bad) := by
  unfold State.rebuild
  split
  · exact h
  · exact .ite (h.foldl fun _ _ h => h.rebuildLine).modRange (h.foldl fun _ _ h => h.rebuildLine).modRange.raiseSkim

theorem Keeps.patrolLine {a : Activity} {r : ℕ} {e : ℕ × EccEvent} (h : Keeps s₀ s) : Keeps s₀ (s.patrolLine a r e) := .ite (.ite h (by
  split
  · exact h.loseTagLine.modAct
  · exact h.chargeMaint
  · exact h)) (.ite h (.ite (.ite h h.poisonLine.modAct) h.modRange.chargeMaint.modAct))

theorem Keeps.patrol {a : Activity} {bad : List (ℕ × EccEvent)} (h : Keeps s₀ s) : Keeps s₀ (s.patrol a bad) := by
  unfold State.patrol
  split
  · exact h
  · exact ((h.foldl fun _ _ h => h.snoopRead).foldl fun _ _ h => h.patrolLine).modAct

theorem Keeps.paceAct {n id : ℕ} (h : Keeps s₀ s) : Keeps s₀ (s.paceAct n id) := by
  unfold State.paceAct
  split
  · exact h
  · exact h.foldl fun _ _ h => .ite h h.chargeMaint.modAct

theorem Keeps.paceActs (h : Keeps s₀ s) : Keeps s₀ s.paceActs := .ite h ((h.foldl fun _ _ h => h.paceAct).foldl fun _ _ h => h.paceAct)

/-! ### Base slots and groups -/

theorem Keeps.runCbgSet {c : Cmd} (h : Keeps s₀ s) : Keeps s₀ (runCbgSet c s) := h.checked (fun _ h => h.stage)

theorem Keeps.failSwap {g : ℕ} {st : Status} {d : ℕ} (h : Keeps s₀ s) : Keeps s₀ (s.failSwap g st d) := by
  unfold State.failSwap
  split
  · exact h.modGroup.finish
  · exact h

theorem Keeps.applyCbg {p d : ℕ} (h : Keeps s₀ s) : Keeps s₀ (s.applyCbg p d) := by
  unfold State.applyCbg
  dsimp only
  split
  · exact h.modGroup
  · exact h.modGroup
  · exact h.modGroup.orphanSteps
  · exact h.modGroup

theorem Keeps.runBaseLoad {c : Cmd} (h : Keeps s₀ s) : Keeps s₀ (runBaseLoad c s) := h.checked (fun _ h => h.startActivity h.modGroup)

theorem Keeps.loadLines {p : ℕ} {sl : BaseSlot} {bad : List (ℕ × EccEvent)} {done : ℕ} {l : List ℕ} (h : Keeps s₀ s) :
    Keeps s₀ (s.loadLines p sl bad done l).1 := by
  induction l generalizing s done with
  | nil => exact h
  | cons i l ih =>
    unfold State.loadLines
    dsimp only
    split
    · split
      · exact h
      · split
        · next e => exact h.copyRead.of_fst e
        · next e => exact ih (h.copyRead.of_fst e).copyWrite
    · exact h
    · exact h

theorem Keeps.baseLoadEnd {g n : ℕ} {bad : List (ℕ × EccEvent)} (h : Keeps s₀ s) : Keeps s₀ (baseLoadEnd g n bad s) := by
  unfold Machine.baseLoadEnd
  split
  · exact h
  · exact .ite h (.ite h h.loadLines.modAct)

theorem Keeps.endLoad {a : Activity} (h : Keeps s₀ s) : Keeps s₀ (s.endLoad a) := h.modGroup.finishOpt

theorem Keeps.runBaseSwap {c : Cmd} (h : Keeps s₀ s) : Keeps s₀ (runBaseSwap c s) := h.checked (fun _ h => h.background h.modGroup)

theorem Keeps.dropEmptyBatches {g n : ℕ} (h : Keeps s₀ s) : Keeps s₀ (s.dropEmptyBatches g n) := h.set

theorem Keeps.swapPoint {g : ℕ} (h : Keeps s₀ s) : Keeps s₀ (s.swapPoint g) := by
  unfold State.swapPoint
  split
  · exact h
  · exact .ite h.failSwap (.ite h.dropEmptyBatches.modGroup.modGroup.modGroup.finish h.dropEmptyBatches.modGroup.modGroup.swapCheck)

/-! ### Fences over the links, and the graph -/

theorem Keeps.runFenceAlloc {c : Cmd} (h : Keeps s₀ s) : Keeps s₀ (runFenceAlloc c s) := by
  unfold Machine.runFenceAlloc
  exact h.checked (fun _ h => h.answer h.modFence)

theorem Keeps.runFenceFree {c : Cmd} (h : Keeps s₀ s) : Keeps s₀ (runFenceFree c s) :=
  h.checked (fun _ h => h.answer h.abandonFence.freeFence)

theorem Keeps.runFenceExport {c : Cmd} (h : Keeps s₀ s) : Keeps s₀ (runFenceExport c s) := by
  unfold Machine.runFenceExport
  exact h.checked (fun _ h => h.answer h.modFence)

theorem Keeps.runFenceWithdraw {c : Cmd} (h : Keeps s₀ s) : Keeps s₀ (runFenceWithdraw c s) := by
  unfold Machine.runFenceWithdraw
  exact h.checked (fun _ h => h.answer h.modFence.abandonSubs)

theorem Keeps.newProxy {n ctx : ℕ} {src : Source} {compat : Bool} {value : W64} (h : Keeps s₀ s) :
    Keeps s₀ (s.newProxy n ctx src compat value) := h.modFence

theorem Keeps.subscribe {fence node part proxy : ℕ} (h : Keeps s₀ s) : Keeps s₀ (s.subscribe fence node part proxy) := h.modFence

theorem Keeps.runFenceImport {c : Cmd} (h : Keeps s₀ s) : Keeps s₀ (runFenceImport c s) := by
  unfold Machine.runFenceImport
  exact h.checked (fun _ h => .ite (by
  split
  · exact h.answer h.newProxy.subscribe
  · exact h.reject
  · exact h.reject) (.ite h.reject (h.background h.set)))

theorem Keeps.importRequest {port : ℕ} {r : ImportReq} (h : Keeps s₀ s) : Keeps s₀ (importRequest port r s) := .ite h (Keeps.countMsg (by
  split
  · exact h.subscribe
  · exact h)).linkSend

theorem Keeps.endImport {w : ImportWait} (h : Keeps s₀ s) : Keeps s₀ (s.endImport w) := h.set.modFence

theorem Keeps.importTimeout {mb : Mailbox} {slot : ℕ} (h : Keeps s₀ s) : Keeps s₀ (importTimeout mb slot s) := by
  unfold Machine.importTimeout
  split
  · exact h
  · exact h.endImport.finish

theorem Keeps.importAnswer {mb : Mailbox} {slot : ℕ} {a : ImportAns} (h : Keeps s₀ s) : Keeps s₀ (importAnswer mb slot a s) := by
  unfold Machine.importAnswer
  split
  · exact h
  · dsimp only
    split
    · exact h.countMsg.endImport.finish
    · exact h.countMsg.endImport.finish
    · exact .ite h.countMsg.endImport.finish (.ite h.countMsg.endImport.newProxy.finish h.countMsg.endImport.linkSend.finish)

theorem Keeps.heardFrom {n kind : ℕ} (h : Keeps s₀ s) : Keeps s₀ (s.heardFrom n kind) := by
  unfold State.heardFrom
  split
  · exact h.countMsg
  · exact h

theorem Keeps.wfgScanEnd {host : List (ℕ × ℕ × BitVec 512)} (h : Keeps s₀ s) : Keeps s₀ (wfgScanEnd host s) := by
  unfold Machine.wfgScanEnd
  split
  · exact h
  · exact h.set.foldl fun _ _ h => .ite (h.foldl fun _ _ h => h.logRec).partEvent (h.foldl fun _ _ h => h.logRec)

theorem Keeps.runWfgRead {c : Cmd} (h : Keeps s₀ s) : Keeps s₀ (runWfgRead c s) := h.checked (fun _ h => h.answer h)

/-! ### Power and Capo -/

theorem Keeps.snoopEngines {p : ℕ} (h : Keeps s₀ s) : Keeps s₀ (s.snoopEngines p) := h.foldl fun _ _ h => h.probeEngine

theorem Keeps.snoopWays {p : ℕ} (h : Keeps s₀ s) : Keeps s₀ (s.snoopWays p) := h.foldl fun _ _ h => h.probeOut

theorem Keeps.powDone {p : ℕ} (h : Keeps s₀ s) : Keeps s₀ (s.powDone p) := h.modPow.finishOpt

theorem Keeps.startSave {p : ℕ} (h : Keeps s₀ s) : Keeps s₀ (s.startSave p) := h.snoopEngines.snoopWays.modPow

theorem Keeps.powMove {p target : ℕ} {ref : Option SlotRef} (h : Keeps s₀ s) : Keeps s₀ (s.powMove p target ref) := by
  unfold State.powMove
  dsimp only
  split
  · exact .ite h.modPow.modPow h.modPow.modPow
  · exact .ite h.modPow.modPow h.modPow.modPow
  · exact .ite h.modPow.startSave h.modPow.modPow
  · exact h.modPow.modPow
  · exact h

theorem Keeps.runPwrStateSet {c : Cmd} (h : Keeps s₀ s) : Keeps s₀ (runPwrStateSet c s) :=
  h.checked (fun _ h => .ite (h.answer h.modPow) (h.background h.modPow.modPow.powMove))

theorem Keeps.drainIdle {p : ℕ} (h : Keeps s₀ s) : Keeps s₀ (drainIdle p s) := .ite h (.ite h.startSave h.snoopEngines.modPow.powDone)

theorem Keeps.markSlots {p : ℕ} {full : Bool} (h : Keeps s₀ s) : Keeps s₀ (s.markSlots p full) :=
  (Keeps.ite h.set h).foldl fun _ _ h => h.markSlot

theorem Keeps.saveDone {p : ℕ} (h : Keeps s₀ s) : Keeps s₀ (saveDone p s) := .ite h.markSlots.modPow.powDone h

theorem Keeps.restored {p : ℕ} (h : Keeps s₀ s) : Keeps s₀ (s.restored p) := .ite h.markSlots.modPow.powDone h.markSlots.modPow

theorem Keeps.wake {p : ℕ} (h : Keeps s₀ s) : Keeps s₀ (wake p s) := .ite h.powMove.partEvent h

theorem Keeps.powReset {p : ℕ} (h : Keeps s₀ s) : Keeps s₀ (s.powReset p) := h.markSlots.modPow.finishOpt

theorem Keeps.lowEntry {p : ℕ} (h : Keeps s₀ s) : Keeps s₀ (s.lowEntry p) := .ite h (Keeps.ite h.modPow.powDone h).modPow.powMove

theorem Keeps.powStep {p : ℕ} (h : Keeps s₀ s) : Keeps s₀ (s.powStep p) := .ite (by
  split
  · exact h.modPow.foldl fun _ _ h => h.leaveService
  · exact h.modPow.powDone) (by
  split
  · exact h.modPow.modPow
  · exact h)

theorem Keeps.powPace {p : ℕ} (h : Keeps s₀ s) : Keeps s₀ (s.powPace p) := .ite h h.modPow.chargeMaint

theorem Keeps.powClose {reports : List (ℕ × ℕ)} {p : ℕ} (h : Keeps s₀ s) : Keeps s₀ (s.powClose reports p) := h.modPow.modPart

theorem Keeps.takeReports {reports : List (ℕ × ℕ)} (h : Keeps s₀ s) : Keeps s₀ (s.takeReports reports) := h.set

theorem Keeps.avsPoll {v : Option (ℕ × ℕ)} (h : Keeps s₀ s) : Keeps s₀ (s.avsPoll v) := by
  unfold State.avsPoll
  dsimp only
  split
  · exact h.set
  · exact .ite h.set.chipEvent h.set

theorem Keeps.powerAction {reports : List (ℕ × ℕ)} {avs : Option (ℕ × ℕ)} (h : Keeps s₀ s) : Keeps s₀ (s.powerAction reports avs) :=
  ((h.takeReports.foldl fun _ _ h => h.powStep.powPace).foldl fun _ _ h => h.powClose).avsPoll.set

theorem Keeps.setEff {p : ℕ} (h : Keeps s₀ s) : Keeps s₀ (s.setEff p) := h.modPow

theorem Keeps.thermalClose {tMax : ℤ} {diode : ℕ} (h : Keeps s₀ s) : Keeps s₀ (s.thermalClose tMax diode) :=
  .ite (h.set.foldl fun _ _ h => h.setEff.modPow).chipEvent (h.set.foldl fun _ _ h => h.setEff.modPow)

theorem Keeps.runPwrBudgetSet {c : Cmd} (h : Keeps s₀ s) : Keeps s₀ (runPwrBudgetSet c s) := h.checked (fun _ h => h.stage)

theorem Keeps.applyPower {p d : ℕ} (h : Keeps s₀ s) : Keeps s₀ (s.applyPower p d) := .ite h.modPow.setEff h.set

theorem Keeps.powCreate {p : ℕ} (h : Keeps s₀ s) : Keeps s₀ (s.powCreate p) := h.modPow.setEff

theorem Keeps.modCapo {f : ℕ} {g : Capo → Capo} (h : Keeps s₀ s) : Keeps s₀ (s.modCapo f g) := h.set

theorem Keeps.capoMoved {f : ℕ} (h : Keeps s₀ s) : Keeps s₀ (s.capoMoved f) := h.modCapo

theorem Keeps.setKeeps {f : ℕ} {k : ℕ → ℕ} (h : Keeps s₀ s) : Keeps s₀ (s.setKeeps f k) := h.set

theorem Keeps.capoFrame (h : Keeps s₀ s) : Keeps s₀ s.capoFrame := h.set

theorem Keeps.droopTrip {f n : ℕ} (h : Keeps s₀ s) : Keeps s₀ (droopTrip f n s) := .ite h h.modCapo.setKeeps

theorem Keeps.stretchReassign {f : ℕ} (h : Keeps s₀ s) : Keeps s₀ (stretchReassign f s) := .ite h h.modCapo.setKeeps

theorem Keeps.keepRampStep {f : ℕ} (h : Keeps s₀ s) : Keeps s₀ (keepRampStep f s) := .ite h (.ite h.setKeeps.modCapo h.setKeeps)

theorem Keeps.sensorMask {f n : ℕ} (h : Keeps s₀ s) : Keeps s₀ (sensorMask f n s) := .ite h h.modCapo.logRec.chipEvent

/-! ### Cards -/

theorem Keeps.writeCard {p : ℕ} (h : Keeps s₀ s) : Keeps s₀ (s.writeCard p) := h.modPart.modPart

/-! ### Replays -/

theorem Keeps.dropTiles {e : ℕ} (h : Keeps s₀ s) : Keeps s₀ (s.dropTiles e) := h.purgeLanes.foldl fun _ _ h => by
  split
  · exact h.freeFaultSlot.dropTile
  · exact h.dropTile

theorem Keeps.dropRow {r : Row} (h : Keeps s₀ s) : Keeps s₀ (s.dropRow r) := h.modSeq.seqLanded

theorem Keeps.returnRow {e : ℕ} {r : Row} (h : Keeps s₀ s) : Keeps s₀ (s.returnRow e r) := .ite h.unadmit h.dropRow

theorem Keeps.verdict {e : ℕ} {r : Replay} {v guilty : ℕ} (h : Keeps s₀ s) : Keeps s₀ (s.verdict e r v guilty) := h.logRec

theorem Keeps.endReplay {e : ℕ} {r : Replay} (h : Keeps s₀ s) : Keeps s₀ (s.endReplay e r) := Keeps.swapCheck (by
  split
  · exact h.modEng.verdict
  · exact h.modEng.verdict.loseCtx.foldl fun _ _ h => h.dropRow)

theorem Keeps.nextReplay {e n : ℕ} (h : Keeps s₀ s) : Keeps s₀ (s.nextReplay e n) := by
  induction n generalizing s with
  | zero => exact h
  | succ n ih =>
    unfold State.nextReplay
    split
    · exact h
    · split
      · exact h.endReplay
      · exact .ite h.modEng.dispatchBatch (ih (h.foldl fun _ _ h => h.dropRow).modEng)

/-! ### Completions -/

theorem Keeps.refund {p c f : ℕ} {back : ℤ} (h : Keeps s₀ s) : Keeps s₀ (s.refund p c f back) := h.chargeCtx

theorem Keeps.engineTime {c ns : ℕ} (h : Keeps s₀ s) : Keeps s₀ (s.engineTime c ns) := h.modCtx

theorem Keeps.countOps {p : ℕ} {l : List (ℕ × ℕ)} (h : Keeps s₀ s) : Keeps s₀ (s.countOps p l) := h.foldl fun _ _ h => .ite h.set h

theorem Keeps.freeCredit {e : ℕ} (h : Keeps s₀ s) : Keeps s₀ (s.freeCredit e) := by
  unfold State.freeCredit
  split
  · exact h.set
  · exact h

theorem Keeps.endJob {e : ℕ} (h : Keeps s₀ s) : Keeps s₀ (s.endJob e) := h.dropTiles.freeCredit.modEng

theorem Keeps.passChunks {n : ℕ} (h : Keeps s₀ s) : Keeps s₀ (s.passChunks n) := h.modSeq.foldl fun _ _ h => h.complete

theorem Keeps.enterReady {n : ℕ} (h : Keeps s₀ s) : Keeps s₀ (s.enterReady n) := h.tickOrder.modSeq

theorem Keeps.prefillOk {r : Row} {x : RowReport} (h : Keeps s₀ s) : Keeps s₀ (s.prefillOk r x) :=
  .ite h (.ite h.modSeq.passChunks.enterReady h.modSeq.passChunks)

theorem Keeps.decodeOk {b : Batch} {r : Row} {x : RowReport} {late : Bool} (h : Keeps s₀ s) : Keeps s₀ (s.decodeOk b r x late) := .ite h (by
  split
  · next _ u1 e1 =>
      exact (h.stepRecord.of_fst e1).modSeq.failSeq
  · next _ u1 e1 =>
      exact .ite (h.stepRecord.of_fst e1).modSeq.modSeq (h.stepRecord.of_fst e1).modSeq.enterReady)

theorem Keeps.retryRow {r : Row} (h : Keeps s₀ s) : Keeps s₀ (s.retryRow r) := h.modSeq

theorem Keeps.landRow {b : Batch} {r : Row} {x : RowReport} (h : Keeps s₀ s) : Keeps s₀ (s.landRow b r x) := Keeps.seqLanded (by
  split
  · exact .ite h.modSeq.modPart.modCtx.prefillOk h.modSeq.modPart.modCtx.decodeOk
  · exact h.modSeq.modPart.modCtx.retryRow
  · exact .ite h.modSeq.modPart.modCtx.failSeq h.modSeq.modPart.modCtx)

theorem Keeps.completeRow {b : Batch} {r : Row} {x : RowReport} (h : Keeps s₀ s) : Keeps s₀ (s.completeRow b r x) :=
  .ite h.dropRow.modCtx h.landRow

theorem Keeps.loseRow {b : Batch} {r : Row} (h : Keeps s₀ s) : Keeps s₀ (s.loseRow b r) := .ite h h.loseCtx

theorem Keeps.settleCtx {b : Batch} {f time sram c : ℕ} (h : Keeps s₀ s) : Keeps s₀ (s.settleCtx b f time sram c) :=
  .ite h h.refund.engineTime.countCtx

theorem Keeps.completeBatch {e : ℕ} {b : Batch} {reports : List RowReport} {r : EngineReport} (h : Keeps s₀ s) :
    Keeps s₀ (s.completeBatch e b reports r) := by
  unfold State.completeBatch
  extract_lets f time n current rows ctxs est parts ops lost retry stepped
  have hctxs : Keeps s₀ ctxs := (h.foldl fun _ _ h => h.completeRow).foldl fun _ _ h => h.settleCtx
  have hparts : Keeps s₀ parts := (Keeps.ite hctxs hctxs.modGroup).countPart
  have hlost : Keeps s₀ lost := (Keeps.ite hparts.countOps hparts).foldl fun _ _ h => h.loseRow
  exact (Keeps.ite hlost.stepGroup hlost).swapCheck

theorem Keeps.drainEngine {p e : ℕ} (h : Keeps s₀ s) : Keeps s₀ (s.drainEngine p e) := .ite h h.probeEngine.modPart.markSlot

theorem Keeps.drained {e : ℕ} (h : Keeps s₀ s) : Keeps s₀ (s.drained e) := h.foldl fun _ _ h => h.drainEngine

theorem Keeps.jobEnded {e : ℕ} (h : Keeps s₀ s) : Keeps s₀ (s.jobEnded e) := by
  unfold State.jobEnded
  split
  · exact h.settlePart.drained
  · exact h.drained

theorem Keeps.batchCompletion {e : ℕ} {rows : List RowReport} {r : EngineReport} (h : Keeps s₀ s) : Keeps s₀ (batchCompletion e rows r s) := by
  unfold Machine.batchCompletion
  split
  · dsimp only
    split
    · exact h.endJob.modEng.modEng.completeBatch.nextReplay.jobEnded
    · exact h.endJob.modEng.completeBatch.jobEnded
  · exact h

theorem Keeps.workCompletion {e : ℕ} {r : EngineReport} (h : Keeps s₀ s) : Keeps s₀ (workCompletion e r s) := by
  unfold Machine.workCompletion
  split
  next w _ =>
    extract_lets f time st ended tally same timed counted ops lost
    have hcounted : Keeps s₀ counted :=
      (Keeps.ite h.endJob.complete.modPart.refund.engineTime.countCtx.modCtxf h.endJob.complete.modPart).countPart
    have hops : Keeps s₀ ops := .ite hcounted.countOps hcounted
    have hlost : Keeps s₀ lost := by
      unfold lost
      split
      · exact .ite hops.loseCtx hops
      · exact hops
    exact hlost.jobEnded
  next => exact h

/-! ### Ranges and maintenance -/

theorem Keeps.runRangeSet {c : Cmd} (h : Keeps s₀ s) : Keeps s₀ (runRangeSet c s) := h.checked (fun _ h => h.stage)

theorem Keeps.useSlots {n : ℕ} (h : Keeps s₀ s) : Keeps s₀ (s.useSlots n) := h.foldl fun _ _ h => (h.setSec (Sec.burnedFrom_set _))

theorem Keeps.applyRange {d : ℕ} (h : Keeps s₀ s) : Keeps s₀ (s.applyRange d) := by
  unfold State.applyRange
  dsimp only
  split
  · exact h.modRange
  · exact h.modRange
  · exact h.modRange

theorem Keeps.replaceSkim {c : Cmd} {old new : Activity} (h : Keeps s₀ s) : Keeps s₀ (s.replaceSkim c old new) :=
  .ite h.respond (.ite h.modAct.respond h.modAct)

theorem Keeps.runMaintStart {c : Cmd} (h : Keeps s₀ s) : Keeps s₀ (runMaintStart c s) := by
  unfold Machine.runMaintStart
  refine h.checked fun t ht => ?_
  dsimp only
  refine .ite (ht.startActivity ht) ?_
  split
  · exact ht.replaceSkim
  · exact ht.startActivity ht

theorem Keeps.runMaintQuery {c : Cmd} (h : Keeps s₀ s) : Keeps s₀ (runMaintQuery c s) := by
  unfold Machine.runMaintQuery
  exact h.checked (fun _ h => h.answer h)

theorem Keeps.endActivity {bad : List (ℕ × EccEvent)} {id : ℕ} (h : Keeps s₀ s) : Keeps s₀ (s.endActivity bad id) := by
  unfold State.endActivity
  split
  · exact h
  · exact .ite h (.ite (Keeps.dropAct (by
      split
      · exact h.rebuild
      · exact h.skim
      · exact h.patrol
      · exact h)).endLoad (Keeps.dropAct (by
      split
      · exact h.rebuild
      · exact h.skim
      · exact h.patrol
      · exact h)).finishOpt)

theorem Keeps.beginActivity {id : ℕ} (h : Keeps s₀ s) : Keeps s₀ (s.beginActivity id) := by
  unfold State.beginActivity
  split
  · exact h
  · exact .ite h (.ite h.modAct.useSlots h.modAct)

theorem Keeps.maintenanceSlot {bad : List (ℕ × EccEvent)} (h : Keeps s₀ s) : Keeps s₀ (maintenanceSlot bad s) :=
  .ite h (Keeps.ite h.set ((h.set.foldl fun _ _ h => h.endActivity).foldl fun _ _ h => h.beginActivity)).servicePass

theorem Keeps.parkedResume {mb : Mailbox} {slot : ℕ} (h : Keeps s₀ s) : Keeps s₀ (parkedResume mb slot s) := by
  unfold Machine.parkedResume
  dsimp only
  split
  · exact .ite h.modMb.modAct h
  · exact h

/-! ### Recovery -/

theorem Keeps.endRingWaits {r : ℕ} {st : Status} (h : Keeps s₀ s) : Keeps s₀ (s.endRingWaits r st) :=
  h.dropWaiters.foldl fun _ _ h => h.complete

theorem Keeps.disarm {p : ℕ} {f : Probe → Bool} (h : Keeps s₀ s) : Keeps s₀ (s.disarm p f) := h.set

theorem Keeps.revokeCtx {p c why : ℕ} {st : Status} (h : Keeps s₀ s) : Keeps s₀ (s.revokeCtx p c why st) := by
  unfold State.revokeCtx
  extract_lets rings seqs fences descs lost tally flushed dropped rows failed abandoned waits
  have htally : Keeps s₀ tally := .ite h.disarm.modCtx.modPart h.disarm.modCtx
  have hrows : Keeps s₀ rows :=
    ((htally.foldl fun _ _ h => h.flushRing.endRingWaits).foldl fun _ _ h => h.dropChunks).dropOpenRows.clearFloor
  have hwaits : Keeps s₀ waits := ((hrows.foldl fun _ _ h => .ite h.failSeq h).foldl fun _ _ h => h.abandonFence).endWaits
  refine hwaits.foldl fun _ _ h => ?_
  split
  · exact .ite h.set h
  · exact h

theorem Keeps.revokeAll {p why : ℕ} {st : Status} (h : Keeps s₀ s) : Keeps s₀ (s.revokeAll p why st) :=
  h.disarm.foldl fun _ _ h => h.revokeCtx

theorem Keeps.dropSets {p : ℕ} (h : Keeps s₀ s) : Keeps s₀ (s.dropSets p) := h.set.foldl fun _ _ h => h.finish

theorem Keeps.staleAll {p : ℕ} {but : Option SlotRef} (h : Keeps s₀ s) : Keeps s₀ (s.staleAll p but) :=
  h.foldl fun _ _ h => h.foldl fun _ _ h => .ite h.finish h

theorem Keeps.stopCommand {ref : SlotRef} (h : Keeps s₀ s) : Keeps s₀ (s.stopCommand ref) :=
  ((h.set.foldl fun _ _ h => h.endImport).set.foldl fun _ _ h => .ite h.modGroup h).set

theorem Keeps.staleSession {p : ℕ} (h : Keeps s₀ s) : Keeps s₀ (s.staleSession p) := .ite h (h.foldl fun _ _ h => h.stopCommand.finish)

theorem Keeps.returnQueued {e : ℕ} (h : Keeps s₀ s) : Keeps s₀ (s.returnQueued e) := by
  unfold State.returnQueued
  split
  · exact h
  · exact (h.modEng.foldl fun _ _ h => h.returnRow).swapCheck
  · exact (Keeps.ite h.modEng.modRing.refund h.modEng.modRing).unbindCheck

theorem Keeps.dropJob {st : Status} {a : Option Job} (h : Keeps s₀ s) : Keeps s₀ (s.dropJob st a) := by
  unfold State.dropJob
  split
  · exact h
  · exact (h.foldl fun _ _ h => h.dropRow).swapCheck
  · exact h.complete

theorem Keeps.resetEngine {e : ℕ} (h : Keeps s₀ s) : Keeps s₀ (s.resetEngine e) := by
  unfold State.resetEngine
  dsimp only
  split
  · exact (h.probeEngine.dropTiles.modEng.dropJob.foldl fun _ _ h => h.dropRow).swapCheck
  · exact h.probeEngine.dropTiles.modEng.dropJob.dropJob

theorem Keeps.endReplays {p : ℕ} (h : Keeps s₀ s) : Keeps s₀ (s.endReplays p) := h.foldl fun _ _ h => by
  split
  · exact h.resetEngine
  · exact .ite h.resetEngine h.modEng

theorem Keeps.stopForming {p : ℕ} (h : Keeps s₀ s) : Keeps s₀ (s.stopForming p) := (h.foldl fun _ _ h => h.modEng).swapChecks

theorem Keeps.startReset {p reason : ℕ} {ref : Option SlotRef} {write : Bool} (h : Keeps s₀ s) :
    Keeps s₀ (s.startReset p reason ref write) := by
  unfold State.startReset
  extract_lets lost fences begun ended stopped aborted
  have haborted : Keeps s₀ aborted :=
    h.modPart.dropSets.staleSession.endSession.revokeAll.stopForming.endReplays.foldl fun _ _ h => .ite h.set h
  exact (Keeps.ite haborted.snoopEngines.snoopWays haborted).powReset

theorem Keeps.loseDomain {d agent cause : ℕ} (h : Keeps s₀ s) : Keeps s₀ (s.loseDomain d agent cause) := by
  unfold State.loseDomain
  extract_lets mine poisoned ended coh cleared ticketed logged
  have hpoisoned : Keeps s₀ poisoned := h.foldl fun _ _ h => .ite h.poisonLine h
  have hcleared : Keeps s₀ cleared := hpoisoned.set
  have hticketed : Keeps s₀ ticketed := hcleared.poisonLanes.foldl fun _ _ h => h.ticketAll
  have hlogged : Keeps s₀ logged := hticketed.logRec
  exact .ite h.needReset (.ite h (.ite hlogged.startReset hlogged))

/-! ### Debug rights -/

theorem Keeps.releaseCore {c : ℕ} (h : Keeps s₀ s) : Keeps s₀ (s.releaseCore c) := .ite h.modCore h

theorem Keeps.releaseHolds (h : Keeps s₀ s) : Keeps s₀ s.releaseHolds := h.foldl fun _ _ h => h.releaseCore

theorem Keeps.clearBps (h : Keeps s₀ s) : Keeps s₀ s.clearBps := h.foldl fun _ _ h => h.modCore

theorem Keeps.modTrace {f : Trace → Trace} (h : Keeps s₀ s) : Keeps s₀ (s.modTrace f) := h.set

theorem Keeps.leaveScan {ir : TapIr} (h : Keeps s₀ s) : Keeps s₀ (s.leaveScan ir) := .ite h.set.needReset h.set

theorem Keeps.endRights {old : BitVec 8} (h : Keeps s₀ s) : Keeps s₀ (s.endRights old) := by
  unfold State.endRights
  extract_lets gone counter instr port holds
  have hcounter : Keeps s₀ counter := .ite h.modTrace h
  have hinstr : Keeps s₀ instr := .ite hcounter.modTrace hcounter
  have hport : Keeps s₀ port := .ite hinstr.modTrace hinstr
  have hholds : Keeps s₀ holds := .ite hport.releaseHolds.clearBps hport
  exact .ite hholds.leaveScan hholds

theorem Keeps.changeSec {f : Sec → Sec} (h : Keeps s₀ s) (hf : (f s.sec).burnedFrom s.sec :=
  by exact (Sec.burnedFrom_set _)) : Keeps s₀ (s.changeSec f) :=
  Keeps.endRights (h.setSec hf)

/-! ### Trace packets and pairs -/

theorem Keeps.setCode {n code : ℕ} (h : Keeps s₀ s) : Keeps s₀ (s.setCode n code) := h.set

theorem Keeps.samplePair {n code : ℕ} (h : Keeps s₀ s) : Keeps s₀ (s.samplePair n code) :=
  .ite h (.ite (.ite h.setCode h.set) (.ite h.setCode h.set))

theorem Keeps.pushPacket {ptype source tick payload : ℕ} {stall : Bool} (h : Keeps s₀ s) :
    Keeps s₀ (s.pushPacket ptype source tick payload stall) := .ite h (.ite h.modTrace.countGlob h.modTrace)

theorem Keeps.syncPacket (h : Keeps s₀ s) : Keeps s₀ s.syncPacket := h.pushPacket

theorem Keeps.packet {ptype source payload : ℕ} {stall : Bool} (h : Keeps s₀ s) : Keeps s₀ (s.packet ptype source payload stall) :=
  .ite h.pushPacket.syncPacket h.pushPacket

theorem Keeps.offsetPacket {p : ℕ} (h : Keeps s₀ s) : Keeps s₀ (s.offsetPacket p) := .ite h.packet h

theorem Keeps.offsetPackets (h : Keeps s₀ s) : Keeps s₀ s.offsetPackets := h.foldl fun _ _ h => h.offsetPacket

theorem Keeps.haltPacket {c st : ℕ} (h : Keeps s₀ s) : Keeps s₀ (s.haltPacket c st) := .ite h.packet h

theorem Keeps.counterStream (h : Keeps s₀ s) : Keeps s₀ s.counterStream :=
  .ite h (.ite h.modTrace (h.modTrace.foldl fun _ _ h => h.foldl fun _ _ h => h.packet))

/-! ### Observation -/

theorem Keeps.runDigestSet {c : Cmd} (h : Keeps s₀ s) : Keeps s₀ (runDigestSet c s) := h.checked (fun _ h => h.stage)

theorem Keeps.applyDigest {p d : ℕ} (h : Keeps s₀ s) : Keeps s₀ (s.applyDigest p d) := h.modProbe

theorem Keeps.digestSum {d : Digest} (h : Keeps s₀ s) : Keeps s₀ (s.digestSum d).2 := by
  unfold State.digestSum
  split
  · exact h
  · exact h.set

theorem Keeps.digestLost {p i : ℕ} (h : Keeps s₀ s) : Keeps s₀ (s.digestLost p i) := h.modProbe.countGlob.partEvent

theorem Keeps.digestWindowClose {p i : ℕ} (h : Keeps s₀ s) : Keeps s₀ (digestWindowClose p i s) := by
  refine .ite h (.ite h.modProbe ?_)
  dsimp only
  split
  · next e => exact (h.digestSum.digestSum.objWriteAs.of_fst e).digestLost
  · next e =>
    have ht := h.digestSum.digestSum.objWriteAs.of_fst e
    exact .ite ht.modProbe ht.modProbe

theorem Keeps.modBp {c b : ℕ} {f : Bp → Bp} (h : Keeps s₀ s) : Keeps s₀ (s.modBp c b f) := h.modCore

theorem Keeps.breakDo {extra : List (Bool × Status × ℕ)} {f : State → State} {c : Cmd} (h : Keeps s₀ s) (hf : ∀ t, Keeps s₀ t → Keeps s₀ (f t)) :
    Keeps s₀ (breakDo extra f c s) :=
  h.checked fun t ht => ht.answer (hf t ht)

theorem Keeps.runBreakSet {c : Cmd} (h : Keeps s₀ s) : Keeps s₀ (runBreakSet c s) := h.breakDo (fun _ h => h.modBp)

theorem Keeps.runBreakClear {c : Cmd} (h : Keeps s₀ s) : Keeps s₀ (runBreakClear c s) := h.breakDo (fun _ h => h.modBp)

theorem Keeps.runBreakResume {c : Cmd} (h : Keeps s₀ s) : Keeps s₀ (runBreakResume c s) := h.breakDo (fun _ h => h.releaseCore)

theorem Keeps.runBreakQuery {c : Cmd} (h : Keeps s₀ s) : Keeps s₀ (runBreakQuery c s) := h.breakDo (fun _ h => h)

theorem Keeps.holdCheck {c : ℕ} (h : Keeps s₀ s) : Keeps s₀ (s.holdCheck c) :=
  .ite h (.ite (h.foldl fun _ _ h => h.probeEngine).modCore.haltPacket h)

theorem Keeps.breakpointHit {c b : ℕ} {pc : W32} (h : Keeps s₀ s) : Keeps s₀ (breakpointHit c b pc s) :=
  .ite h (.ite h.modBp (h.modBp.modCore.haltPacket.foldl fun _ _ h => by
  split
  · exact h.leaveService
  · exact h).holdCheck)

theorem Keeps.coresTick (h : Keeps s₀ s) : Keeps s₀ s.coresTick := h.foldl fun _ _ h => .ite h.modCore.holdCheck (.ite h.modCore h)

theorem Keeps.applyTrace {d : ℕ} (h : Keeps s₀ s) : Keeps s₀ (s.applyTrace d) := .ite h h.modTrace

theorem Keeps.runTraceSet {c : Cmd} (h : Keeps s₀ s) : Keeps s₀ (runTraceSet c s) := h.checked (fun _ h => h.background h.set)

theorem Keeps.traceFifoRoom {n : ℕ} (h : Keeps s₀ s) : Keeps s₀ (traceFifoRoom n s) :=
  .ite h.modTrace (h.modTrace.modTrace.foldl fun _ _ h => h.packet)

/-! ### Watchdogs and resets -/

theorem Keeps.runCtxRevoke {c : Cmd} (h : Keeps s₀ s) : Keeps s₀ (runCtxRevoke c s) :=
  h.checked (fun _ h => h.background h.modCtx.revokeCtx)

theorem Keeps.revokeDrainEnd {c : ℕ} (h : Keeps s₀ s) : Keeps s₀ (revokeDrainEnd c s) := by
  unfold Machine.revokeDrainEnd
  split
  · exact h
  · exact .ite h.modCtx.finish h

theorem Keeps.runPartReset {c : Cmd} (h : Keeps s₀ s) : Keeps s₀ (runPartReset c s) := h.checked (fun _ h => h.background h.startReset)

theorem Keeps.runPartResetConfig {c : Cmd} (h : Keeps s₀ s) : Keeps s₀ (runPartResetConfig c s) := by
  unfold Machine.runPartResetConfig
  exact h.checked (fun _ h => h.answer h.modPart)

theorem Keeps.partitionResetComplete {p : ℕ} (h : Keeps s₀ s) : Keeps s₀ (partitionResetComplete p s) := by
  unfold Machine.partitionResetComplete
  dsimp only
  split
  · exact h
  · exact .ite h (h.snoopWays.foldl fun _ _ h => h.resetEngine).set.modPart.logRec.writeCard.finishOpt

theorem Keeps.countFire {e : ℕ} {j : Job} (h : Keeps s₀ s) : Keeps s₀ (s.countFire e j) := h.set.logRec.partEvent

theorem Keeps.hangJob {e : ℕ} {a : Job} (h : Keeps s₀ s) : Keeps s₀ (s.hangJob e a) := by
  unfold State.hangJob
  split
  · exact (h.foldl fun _ _ h => h.returnRow).modEng.foldl fun _ _ h => h.clearFloor
  · exact .ite h.complete.logRec.loseCtx h.complete.logRec

theorem Keeps.watchdogFire {e : ℕ} {answers : Bool} (h : Keeps s₀ s) : Keeps s₀ (watchdogFire e answers s) := by
  unfold Machine.watchdogFire
  dsimp only
  split
  · exact h
  · exact .ite h (.ite h.resetEngine (.ite h.countFire.loseDomain h.countFire.modEng.hangJob.leaveService.returnQueued.dropTiles.freeCredit.probeEngine.floorSettle))

theorem Keeps.engineResetDone {e : ℕ} (h : Keeps s₀ s) : Keeps s₀ (engineResetDone e s) := .ite h (by
  split
  · exact h.probeEngine.modEng.nextReplay
  · exact h.probeEngine.modEng)

theorem Keeps.failEngine {e : ℕ} {r : Replay} (h : Keeps s₀ s) : Keeps s₀ (s.failEngine e r) :=
  (h.modEng.foldl fun _ _ h => h.returnRow).verdict.logRec.swapCheck

theorem Keeps.replayTimeout {e : ℕ} (h : Keeps s₀ s) : Keeps s₀ (replayTimeout e s) := by
  unfold Machine.replayTimeout
  dsimp only
  split
  · exact h
  · split
    · exact h
    · exact .ite h (.ite h.draw.loseDomain (.ite h.draw.probeEngine.dropTiles.modEng.failEngine h.draw.probeEngine.dropTiles.modEng))

/-! ### Coherence -/

theorem Keeps.badMsg {m : Msg} {cause : ℕ} (h : Keeps s₀ s) : Keeps s₀ (s.badMsg m cause) := .ite h.loseDomain h

theorem Keeps.send {cls : ℕ} {m : Msg} (h : Keeps s₀ s) : Keeps s₀ (s.send cls m) := h.set

theorem Keeps.homeHot {p tweak a : ℕ} (h : Keeps s₀ s) : Keeps s₀ (s.homeHot p tweak a) := .ite h (by
  split
  · exact h.hotCount
  · exact h)

theorem Keeps.cohCount {m : Msg} {bytes : ℕ} (h : Keeps s₀ s) : Keeps s₀ (s.cohCount m bytes) := .ite h h.tagFetch.charge.countBoth.homeHot

theorem Keeps.cohRead {m : Msg} (h : Keeps s₀ s) : Keeps s₀ (s.cohRead m).1 :=
  (Keeps.ite_fst h.cohCount.putCopies.regionAccess h.cohCount.putCopies.gateLine).putCopies

theorem Keeps.cohPut {m : Msg} {tweak : ℕ} {d : LineData} (h : Keeps s₀ s) : Keeps s₀ (s.cohPut m tweak d) :=
  .ite h.cohCount.regionAccess (by
  split
  · exact h.cohCount.writeLine
  · exact h.cohCount)

theorem Keeps.modTxn {m : Msg} {f : Txn → Txn} (h : Keeps s₀ s) : Keeps s₀ (s.modTxn m f) := h.set

theorem Keeps.endTxn {m : Msg} (h : Keeps s₀ s) : Keeps s₀ (s.endTxn m) := h.set.ticketNext

theorem Keeps.closeTxn {t : Txn} (h : Keeps s₀ s) : Keeps s₀ (s.closeTxn t) := .ite h.modTxn h.endTxn

theorem Keeps.fillTo {m : Msg} {st : Status} {state : CacheSt} {dirty : Bool} {d : LineData} (h : Keeps s₀ s) :
    Keeps s₀ (s.fillTo m st state dirty d) := .ite h.send.addCopy h.send

theorem Keeps.fillFails {m : Msg} {st : Status} (h : Keeps s₀ s) : Keeps s₀ (s.fillFails m st) := h.fillTo.dropCopy

theorem Keeps.doneTo {m : Msg} {st : Status} {noop : Bool} (h : Keeps s₀ s) : Keeps s₀ (s.doneTo m st noop) := h.send

theorem Keeps.upgraded {m : Msg} (h : Keeps s₀ s) : Keeps s₀ (s.upgraded m) := h.modCopy

theorem Keeps.fillFromMemory {m : Msg} {state : CacheSt} (h : Keeps s₀ s) : Keeps s₀ (s.fillFromMemory m state) :=
  .ite h.cohRead.fillTo h.cohRead.fillFails

theorem Keeps.probeAll {m : Msg} {own hold : ℕ} {direct self : Bool} (h : Keeps s₀ s) : Keeps s₀ (s.probeAll m own hold direct self) :=
  (h.foldl fun _ _ h => h.send).modTxn

theorem Keeps.cohMismatch {m : Msg} (h : Keeps s₀ s) : Keeps s₀ (s.cohMismatch m) := by
  unfold State.cohMismatch
  exact Keeps.fillTo (by
  split
  · exact h.modRange.logRec.gateFail
  · exact h.modRange.logRec)

theorem Keeps.displace {agent way : ℕ} (h : Keeps s₀ s) : Keeps s₀ (s.displace agent way) := by
  unfold State.displace
  dsimp only
  split
  · exact h.draw
  · split
    · exact h.draw.writeBack.dropCopy
    · exact h.draw

theorem Keeps.victim {m : Msg} {x : Copy} {u : State} (h : Keeps s₀ s) (e : s.victim m x = some u) : Keeps s₀ u := by
  unfold State.victim at e
  dsimp only at e
  split at e
  · cases e
    exact h.draw.displace.addCopy
  · cases e

theorem Keeps.victim_getD {m : Msg} {x : Copy} {u : State} (h : Keeps s₀ s) (hu : Keeps s₀ u) : Keeps s₀ ((s.victim m x).getD u) := by
  cases e : s.victim m x with
  | none => exact hu
  | some t => exact h.victim e

theorem Keeps.startTxn {x : Txn} (h : Keeps s₀ s) : Keeps s₀ (s.startTxn x) := by
  refine .ite h.cohMismatch.closeTxn ?_
  split
  · exact .ite h.probeAll h.fillFromMemory.closeTxn
  · exact .ite h.fillFromMemory.closeTxn h.probeAll
  · exact .ite h.probeAll h.fillFromMemory.closeTxn
  · exact .ite (.ite h.upgraded.doneTo.closeTxn h.probeAll) (.ite h.fillFromMemory.closeTxn h.probeAll)
  · exact .ite h.modTxn.send h.probeAll
  · exact .ite h.modTxn.send h.doneTo.endTxn
  · refine Keeps.endTxn (Keeps.doneTo ?_)
    split
    · exact h.dropCopy.victim_getD h.dropCopy
    · exact h.dropCopy
  · exact .ite (.ite h.fillFromMemory.closeTxn h.probeAll) (.ite h.modTxn.send h.probeAll)

theorem Keeps.pump {line n : ℕ} (h : Keeps s₀ s) : Keeps s₀ (s.pump line n) := by
  induction n generalizing s with
  | zero => exact h
  | succ n ih =>
    unfold State.pump
    split
    · exact .ite (ih h.startTxn) h
    · exact h

theorem Keeps.pumpLine {line : ℕ} (h : Keeps s₀ s) : Keeps s₀ (s.pumpLine line) := h.pump.serveLanes

theorem Keeps.proceed {t : Txn} (h : Keeps s₀ s) : Keeps s₀ (s.proceed t) := by
  unfold State.proceed
  dsimp only
  split
  · exact .ite (.ite (Keeps.ite h.modCopy h.addCopy).endTxn (Keeps.ite h.modCopy h.addCopy).closeTxn) (by
      split
      · exact h.fillTo.closeTxn
      · exact h.fillFromMemory.closeTxn)
  · exact .ite (.ite (Keeps.ite h.modCopy h.addCopy).endTxn (Keeps.ite h.modCopy h.addCopy).closeTxn) (by
      split
      · exact h.fillTo.closeTxn
      · exact h.fillFromMemory.closeTxn)
  · split
    · exact h.fillTo.closeTxn
    · exact h.fillFromMemory.closeTxn
  · exact .ite h.upgraded.doneTo.closeTxn (.ite (.ite (Keeps.ite h.modCopy h.addCopy).endTxn (Keeps.ite h.modCopy h.addCopy).closeTxn) (by
      split
      · exact h.fillTo.closeTxn
      · exact h.fillFromMemory.closeTxn))
  · exact h.modTxn.send
  · exact .ite (.ite (.ite (Keeps.ite h.modCopy h.addCopy).endTxn (Keeps.ite h.modCopy h.addCopy).closeTxn) (by
      split
      · exact h.fillTo.closeTxn
      · exact h.fillFromMemory.closeTxn)) h.modTxn.send

theorem Keeps.placeAtomic {m : Msg} (h : Keeps s₀ s) : Keeps s₀ (s.placeAtomic m).1 := by
  unfold State.placeAtomic
  dsimp only
  split
  · exact h
  · split
    · exact h
    · exact h.set

theorem Keeps.orderReq {m : Msg} (h : Keeps s₀ s) : Keeps s₀ (s.orderReq m) := by
  unfold State.orderReq
  dsimp only
  split
  · exact .ite h.badTag.fillFails h.badTag.doneTo
  · split
    · exact .ite h.gateRefuse.fillFails h.gateRefuse.doneTo
    · exact (Keeps.ite h.placeAtomic.set.modCopy h.placeAtomic.set).pumpLine

theorem Keeps.request {op : ℕ} {m : Msg} (h : Keeps s₀ s) : Keeps s₀ (request op m s) :=
  .ite h (.ite h.badMsg (.ite h (.ite h.set.orderReq (.ite h (.ite (.ite h.set.send h.orderReq) (.ite h h.orderReq))))))

theorem Keeps.arrive {cls op : ℕ} {m : Msg} {f : Msg → State → State} (h : Keeps s₀ s) (hf : ∀ x t, Keeps s₀ t → Keeps s₀ (f x t)) :
    Keeps s₀ (arrive cls op m f s) := by
  unfold Machine.arrive
  refine .ite (.ite h h.badMsg) (.ite h.badMsg (.ite h ?_))
  split
  · exact hf _ _ h.set
  · exact .ite h.badMsg h

theorem Keeps.modProbing {p m : Msg} {f : Txn → Txn} (h : Keeps s₀ s) : Keeps s₀ (s.modProbing p m f) := h.set

theorem Keeps.answerProbe {p m : Msg} {state : CacheSt} {d : LineData} {dirty withData : Bool} (h : Keeps s₀ s) :
    Keeps s₀ (s.answerProbe p m state d dirty withData) := h.send

theorem Keeps.missProbe {p m : Msg} (h : Keeps s₀ s) : Keeps s₀ (s.missProbe p m) := h.modProbing.modCopy.answerProbe

theorem Keeps.countServe {p m : Msg} (h : Keeps s₀ s) : Keeps s₀ (s.countServe p m) := .ite h (by
  split
  · exact .ite h.countBoth h
  · exact h)

theorem Keeps.supply {take : Bool} {m p : Msg} (h : Keeps s₀ s) : Keeps s₀ (supply take m p s) := by
  unfold Machine.supply
  split
  · exact h.missProbe
  · exact .ite (.ite h.countServe.modCopy.send.answerProbe.modProbing.answerProbe h.countServe.modCopy.send.answerProbe) h.countServe.modCopy.answerProbe

theorem Keeps.flush {m p : Msg} (h : Keeps s₀ s) : Keeps s₀ (flush m p s) := by
  unfold Machine.flush
  split
  · exact h.missProbe
  · exact h.modCopy.answerProbe

theorem Keeps.probeAnswer {withData : Bool} {m : Msg} (h : Keeps s₀ s) : Keeps s₀ (probeAnswer withData m s) := by
  unfold Machine.probeAnswer
  dsimp only
  split
  · exact h
  · exact .ite (Keeps.ite (Keeps.ite h.cohPut h).dropCopy (Keeps.ite h.cohPut h).modCopy).modTxn.proceed.pumpLine (Keeps.ite
      (Keeps.ite h.cohPut h).dropCopy (Keeps.ite h.cohPut h).modCopy).modTxn

theorem Keeps.doneAck {m : Msg} (h : Keeps s₀ s) : Keeps s₀ (doneAck m s) := by
  unfold Machine.doneAck
  split
  · exact h
  · exact .ite h.endTxn.pumpLine h.modTxn

theorem Keeps.spillData {m : Msg} (h : Keeps s₀ s) : Keeps s₀ (spillData m s) := by
  unfold Machine.spillData
  split
  · exact h
  · exact (h.dropCopy.victim_getD h.dropCopy.cohPut).doneTo.endTxn.pumpLine

theorem Keeps.atomicAt {q m : Msg} (h : Keeps s₀ s) : Keeps s₀ (s.atomicAt q m) :=
  (Keeps.ite_fst h.cohCount.regionAccess h.cohCount.gateLine).fillTo

theorem Keeps.storeData {m : Msg} (h : Keeps s₀ s) : Keeps s₀ (storeData m s) := by
  unfold Machine.storeData
  split
  · exact h
  · exact (Keeps.ite h.atomicAt (Keeps.ite_fst h.dropCopy.cohCount.regionAccess h.dropCopy.cohCount.gateLine).doneTo).endTxn.pumpLine

theorem Keeps.ackHome {agent txn line : ℕ} (h : Keeps s₀ s) : Keeps s₀ (s.ackHome agent txn line) := by
  unfold State.ackHome
  split
  · exact .ite h.send h
  · exact h

theorem Keeps.fillArrives {m : Msg} (h : Keeps s₀ s) : Keeps s₀ (fillArrives m s) := (Keeps.ite h (.ite h.addCopy h.modCopy)).ackHome

theorem Keeps.doneArrives {m : Msg} (h : Keeps s₀ s) : Keeps s₀ (doneArrives m s) := h.modCopy.ackHome

theorem Keeps.dataGo {m p : Msg} (h : Keeps s₀ s) : Keeps s₀ (dataGo m p s) := by
  unfold Machine.dataGo
  split
  · exact h
  · exact .ite h.send h.send

theorem Keeps.snoopTimeout {home agent domain : ℕ} (h : Keeps s₀ s) : Keeps s₀ (snoopTimeout home agent domain s) := .ite h.loseDomain h

theorem Keeps.snoopFilterError {home line : ℕ} {readable : Bool} (h : Keeps s₀ s) : Keeps s₀ (snoopFilterError home line readable s) :=
  .ite h (.ite h.needReset (.ite h.loseDomain (by
  split
  · exact h.loseDomain
  · exact h)))

theorem Keeps.runCohModeSet {c : Cmd} (h : Keeps s₀ s) : Keeps s₀ (runCohModeSet c s) := h.checked (fun _ h => h.stage)

theorem Keeps.applyCoh {p d : ℕ} (h : Keeps s₀ s) : Keeps s₀ (s.applyCoh p d) := .ite h.set (h.foldl fun _ _ h => .ite h.set (by
  split
  · exact h.set.leaveService
  · exact h.set))

theorem Keeps.switchModes (h : Keeps s₀ s) : Keeps s₀ s.switchModes := h.foldl fun _ _ h => .ite h.set (.ite h.probeEngine.modEng.set h)

/-! ### Descriptors -/

theorem Keeps.badBell {r : ℕ} (h : Keeps s₀ s) : Keeps s₀ (s.badBell r) := h.modRing.countGlob

theorem Keeps.ringTouch {r : ℕ} (h : Keeps s₀ s) : Keeps s₀ (s.ringTouch r) := .ite h h.modRing

theorem Keeps.countBell {r : ℕ} (h : Keeps s₀ s) : Keeps s₀ (s.countBell r) := h.countGlob.countGlob

theorem Keeps.bell {r : ℕ} {whole : Bool} {v : W32} (h : Keeps s₀ s) : Keeps s₀ (s.bell r whole v) :=
  .ite h (.ite h.badBell (.ite h.modRing.tickOrder.countBell h.modRing.tickOrder.countBell.ringTouch))

theorem Keeps.doorbell {w : WindowWrite} (h : Keeps s₀ s) : Keeps s₀ (doorbell w s) := .ite h (h.foldl fun _ _ h => h.bell)

theorem Keeps.push {offset bytes : ℕ} {data : BitVec 512} (h : Keeps s₀ s) : Keeps s₀ (push offset bytes data s) :=
  .ite h (.ite h.badBell (by
  split
  · next _ u1 e1 =>
      exact (h.objWriteAs.of_fst e1).haltRing
  · next _ u1 _ _ e1 =>
      exact (h.objWriteAs.of_fst e1).modRing.tickOrder.countBell.ringTouch))

theorem Keeps.ringStateFill {r : ℕ} (h : Keeps s₀ s) : Keeps s₀ (ringStateFill r s) := by
  refine .ite h ?_
  split
  · next e => exact (h.cacheRing e).modRing
  · exact h

theorem Keeps.descriptorFetch {r : ℕ} {host : Option (BitVec 512)} (h : Keeps s₀ s) : Keeps s₀ (descriptorFetch r host s) :=
  .ite h (.ite h (by
  split
  · exact (Keeps.haltRing (by
      split
      · exact h
      · exact h.objRead)).unbindCheck.floorSettle
  · exact .ite (Keeps.modRing (by
      split
      · exact h
      · exact h.objRead)).modRing.haltRing.unbindCheck.floorSettle (by
      split
      · exact (Keeps.modRing (by
          split
          · exact h
          · exact h.objRead)).complete
      · exact (Keeps.modRing (by
          split
          · exact h
          · exact h.objRead)).modRing)))

theorem Keeps.starting {r type : ℕ} {f : Desc → State} (h : Keeps s₀ s) (hf : ∀ d, Keeps s₀ (f d)) : Keeps s₀ (s.starting r type f) := by
  unfold State.starting
  split
  · exact h
  · exact .ite (hf _) h.complete

theorem Keeps.prefill {r : ℕ} (h : Keeps s₀ s) : Keeps s₀ (prefill r s) :=
  h.starting (fun _ => .ite h.complete (.ite h.complete (.ite h.complete (.ite h (.ite h.complete h.startDesc.modSeq)))))

theorem Keeps.wait {r : ℕ} (h : Keeps s₀ s) : Keeps s₀ (wait r s) :=
  h.starting (fun _ => .ite h.complete (.ite h.startDesc.complete.flushRing (.ite h.startDesc.complete h.startDesc.modFence)))

theorem Keeps.signalDesc {r : ℕ} (h : Keeps s₀ s) : Keeps s₀ (signalDesc r s) := h.starting (fun _ => .ite h.complete (.ite h.complete (by
  split
  · next _ u1 e1 =>
      exact (h.startDesc.signal.of_fst e1).complete
  · next _ u1 _ _ e1 =>
      exact (h.startDesc.signal.of_fst e1).complete)))

/-! ### Admission cycles and the floor -/

theorem Keeps.runSchedSet {c : Cmd} (h : Keeps s₀ s) : Keeps s₀ (runSchedSet c s) := h.checked (fun _ h => h.stage)

theorem Keeps.modSched {p : ℕ} {f : SchedPol → SchedPol} (h : Keeps s₀ s) : Keeps s₀ (s.modSched p f) := h.set

theorem Keeps.applySched {p d : ℕ} (h : Keeps s₀ s) : Keeps s₀ (s.applySched p d) := by
  unfold State.applySched
  split
  · exact h.modSched
  · exact h.foldl fun _ _ h => .ite h h.modCtx
  · exact h.modSched

theorem Keeps.grants {p f : ℕ} (h : Keeps s₀ s) : Keeps s₀ (s.grants p f) :=
  (h.foldl fun _ _ h => .ite h.modCtxf (.ite h.modCtxf h)).modPfield

theorem Keeps.runSchedQuery {c : Cmd} (h : Keeps s₀ s) : Keeps s₀ (runSchedQuery c s) := h.checked (fun _ h => h.answer h)

theorem Keeps.once {n : ℕ} {f : State → State} (h : Keeps s₀ s) (hf : ∀ t, Keeps s₀ t → Keeps s₀ (f t)) : Keeps s₀ (s.once n f) :=
  .ite (hf _ h.set).servicePass h

theorem Keeps.floorOpen (h : Keeps s₀ s) : Keeps s₀ (floorOpen s) :=
  h.set.foldl fun _ _ h => h.foldl fun _ _ h => h.foldl fun _ _ h => .ite h.modCtxf h

theorem Keeps.floorDue (h : Keeps s₀ s) : Keeps s₀ (floorDue s) :=
  h.floorSettle.tickOrder.set.foldl fun _ _ h => h.foldl fun _ _ h => h.set

theorem Keeps.floorClose (h : Keeps s₀ s) : Keeps s₀ (floorClose s) :=
  ((h.floorSettle.foldl fun _ _ h => h.modPfield.logRec).foldl fun _ _ h => h.partEvent).set

theorem Keeps.admitOne {p f : ℕ} {l : List Offer} (h : Keeps s₀ s) : Keeps s₀ (s.admitOne p f l).1 := by
  induction l generalizing s with
  | nil => exact h
  | cons o l ih =>
    unfold State.admitOne
    split
    · exact h.deliverWork
    · exact ih h
    · split
      · exact ih h
      · split
        · next e => exact (h.admitRow.of_fst e).closeIf
        · next e => exact ih (h.admitRow.of_fst e)

theorem Keeps.spareTurn {f p : ℕ} {cand : List ℕ} (h : Keeps s₀ s) : Keeps s₀ (s.spareTurn f p cand) :=
  (Keeps.ite h (h.foldl fun _ _ h => h.modPfield)).modPfield

theorem Keeps.takeCycle {f p : ℕ} {spare : Bool} (h : Keeps s₀ s) : Keeps s₀ (s.takeCycle f p spare) := by
  unfold State.takeCycle
  extract_lets cand turned denied
  have hdenied : Keeps s₀ denied := (Keeps.ite h.spareTurn h).foldl fun _ _ h => h.modPfield
  split
  next e => exact (hdenied.admitOne.of_fst e).floorSettle
  next e =>
    have hadmitted := hdenied.admitOne.of_fst e
    exact (Keeps.ite hadmitted.modPfield.countGlob hadmitted.modPfield).settlePart

theorem Keeps.admissionCycle {f : ℕ} (h : Keeps s₀ s) : Keeps s₀ (admissionCycle f s) := .ite h (by
  dsimp only
  split
  · exact h.floorSettle.settle
  · exact h.floorSettle.settle.takeCycle)

theorem Keeps.work {r e : ℕ} (h : Keeps s₀ s) : Keeps s₀ (work r e s) := by
  unfold Machine.work
  split
  · exact h
  · exact .ite h.complete (by
      dsimp only
      split
      · exact h.floorSettle.settle
      · split
        · exact .ite h.floorSettle.settle.takeCycle h.floorSettle.settle
        · exact h.floorSettle.settle)

/-! ### Regulation -/

theorem Keeps.runRegSet {c : Cmd} (h : Keeps s₀ s) : Keeps s₀ (runRegSet c s) := h.checked (fun _ h => h.stage)

theorem Keeps.modBucket {k : ℕ} {f : Bucket → Bucket} (h : Keeps s₀ s) : Keeps s₀ (s.modBucket k f) := h.set

theorem Keeps.applyReg {p d : ℕ} (h : Keeps s₀ s) : Keeps s₀ (s.applyReg p d) := by
  unfold State.applyReg
  split
  · exact h.foldl fun _ _ h => h.foldl fun _ _ h => h.modBucket
  · exact h.foldl fun _ _ h => h.foldl fun _ _ h => h.modRegClass
  · exact h.foldl fun _ _ h => h.modRegClass
  · exact h.foldl fun _ _ h => h.modRegField

theorem Keeps.runRegQuery {c : Cmd} (h : Keeps s₀ s) : Keeps s₀ (runRegQuery c s) := h.checked (fun _ h => h.answer h)

theorem Keeps.missRec {p kind cls place short causes : ℕ} (h : Keeps s₀ s) : Keeps s₀ (s.missRec p kind cls place short causes) :=
  h.logRec.modPart

theorem Keeps.closeBucket {k : ℕ} {b : Bucket} {causes : ℕ} (h : Keeps s₀ s) : Keeps s₀ (s.closeBucket k b causes) :=
  .ite h.modBucket.missRec.modBucket h.modBucket

theorem Keeps.refillBuckets (h : Keeps s₀ s) : Keeps s₀ s.refillBuckets := h.set

theorem Keeps.modLink {k : ℕ} {f : LinkBucket → LinkBucket} (h : Keeps s₀ s) : Keeps s₀ (s.modLink k f) := h.set

theorem Keeps.linkMiss {k share passed : ℕ} {waited : Bool} {causes : ℕ} (h : Keeps s₀ s) :
    Keeps s₀ (s.linkMiss k share passed waited causes) := .ite h.modLink.missRec h

theorem Keeps.closeLink {k : ℕ} {tx rx : Bool} {causes : ℕ} (h : Keeps s₀ s) : Keeps s₀ (s.closeLink k tx rx causes) :=
  h.modLink.linkMiss.linkMiss

theorem Keeps.refillLinks {p : ℕ} (h : Keeps s₀ s) : Keeps s₀ (s.refillLinks p) := h.foldl fun _ _ h => h.modLink

theorem Keeps.closeCycles {p f cycles denied causes : ℕ} (h : Keeps s₀ s) : Keeps s₀ (s.closeCycles p f cycles denied causes) :=
  .ite h.set.missRec h.modPfield

theorem Keeps.closeFields (h : Keeps s₀ s) : Keeps s₀ s.closeFields := h.set

theorem Keeps.refillFields (h : Keeps s₀ s) : Keeps s₀ s.refillFields := h.set

/-! ### Pending sets -/

theorem Keeps.moveRanges {p : ℕ} {old new : BitVec 128} (h : Keeps s₀ s) : Keeps s₀ (s.moveRanges p old new) :=
  (h.foldl fun _ _ h => h.modRange).foldl fun _ _ h => h.modRange

theorem Keeps.applyStage {p g d : ℕ} (h : Keeps s₀ s) : Keeps s₀ (s.applyStage p g d) := h.modPart.moveRanges

theorem Keeps.applySpan {p d : ℕ} (h : Keeps s₀ s) : Keeps s₀ (s.applySpan p d) := h.modPart

theorem Keeps.applyMigrate {p d : ℕ} (h : Keeps s₀ s) : Keeps s₀ (s.applyMigrate p d) := h.modMigrate

theorem Keeps.applyEntry {e : Entry} (h : Keeps s₀ s) : Keeps s₀ (s.applyEntry e) := by
  unfold State.applyEntry
  split
  · exact h.applyStage
  · exact h.applySpan
  · exact h.applySched
  · exact h.applyReg
  · exact h.applyCbg
  · exact h.applyMigrate
  · exact h.applyRange
  · exact h.applyCoh
  · exact h.applyPower
  · exact h.applyDigest
  · exact h.applyTrace
  · exact h

theorem Keeps.standing {p : ℕ} (h : Keeps s₀ s) : Keeps s₀ (s.standing p) := h.moveRanges.powCreate

theorem Keeps.applyPend {x : PendSet} (h : Keeps s₀ s) : Keeps s₀ (s.applyPend x) := by
  unfold State.applyPend
  split
  · exact h.standing
  · exact h.foldl fun _ _ h => h.applyEntry

theorem Keeps.projected (h : Keeps s₀ s) : Keeps s₀ s.projected := h.foldl fun _ _ h => h.applyPend

/-! ### Dirty-page logging -/

theorem Keeps.dirtyHeader {p : ℕ} {closed ended : Bool} {endFrame : ℕ} (h : Keeps s₀ s) : Keeps s₀ (s.dirtyHeader p closed ended endFrame) :=
  h.foldl fun _ _ h => h.hostWrite

theorem Keeps.closePass {p : ℕ} {ended : Bool} (h : Keeps s₀ s) : Keeps s₀ (s.closePass p ended) := h.dirtyHeader

theorem Keeps.openPass {p : ℕ} (h : Keeps s₀ s) : Keeps s₀ (s.openPass p) := h.modDirty.dirtyHeader

theorem Keeps.closeLog {p : ℕ} (h : Keeps s₀ s) : Keeps s₀ (s.closeLog p) := (Keeps.ite h.closePass h).set

theorem Keeps.dirtyAct {p : ℕ} (h : Keeps s₀ s) : Keeps s₀ (s.dirtyAct p) := by
  unfold State.dirtyAct
  dsimp only
  split
  · exact h
  · exact .ite h (.ite h.openPass.finish (.ite h.closePass.modDirty.openPass.finish h.closePass.set.finish))

theorem Keeps.areaFault {p : ℕ} (h : Keeps s₀ s) : Keeps s₀ (s.areaFault p) := .ite h h.set.finishOpt

theorem Keeps.dirtyActs (h : Keeps s₀ s) : Keeps s₀ s.dirtyActs := h.foldl fun _ _ h => h.dirtyAct

theorem Keeps.runDirtyLogBegin {c : Cmd} (h : Keeps s₀ s) : Keeps s₀ (runDirtyLogBegin c s) := by
  unfold Machine.runDirtyLogBegin
  exact h.checked (fun _ h => h.background h.modDirty)

theorem Keeps.runDirtyLogFlip {c : Cmd} (h : Keeps s₀ s) : Keeps s₀ (runDirtyLogFlip c s) := h.checked (fun _ h => h.background h.modDirty)

theorem Keeps.runDirtyLogStop {c : Cmd} (h : Keeps s₀ s) : Keeps s₀ (runDirtyLogStop c s) := h.checked (fun _ h => h.background h.modDirty)

/-! ### Partitions -/

theorem Keeps.runPartStage {c : Cmd} (h : Keeps s₀ s) : Keeps s₀ (runPartStage c s) := h.checked (fun _ h => h.stage)

theorem Keeps.runSpanSet {c : Cmd} (h : Keeps s₀ s) : Keeps s₀ (runSpanSet c s) := h.checked (fun _ h => h.stage)

theorem Keeps.runPartCommit {c : Cmd} (h : Keeps s₀ s) : Keeps s₀ (runPartCommit c s) := h.checked (fun _ h => by
  dsimp only
  split
  · exact h.modMb.respond
  · split
    · exact h.modMb.respond
    · exact .ite h.modMb.respond (h.modMb.background h.set))

theorem Keeps.clearSettings {p : ℕ} (h : Keeps s₀ s) : Keeps s₀ (s.clearSettings p) := h.set

theorem Keeps.zeroCounters {p : ℕ} (h : Keeps s₀ s) : Keeps s₀ (s.zeroCounters p) := h.set

theorem Keeps.reserve {p : ℕ} {r : PartRec} (h : Keeps s₀ s) : Keeps s₀ (s.reserve p r) := h.clearSettings.modPart

theorem Keeps.created {p : ℕ} {r : PartRec} (h : Keeps s₀ s) : Keeps s₀ (s.created p r) := h.reserve.standing

theorem Keeps.runPartCreate {c : Cmd} (h : Keeps s₀ s) : Keeps s₀ (runPartCreate c s) := by
  unfold Machine.runPartCreate
  exact h.checked (fun _ h => h.background h.set)

theorem Keeps.goLive {p : ℕ} {ref : SlotRef} (h : Keeps s₀ s) : Keeps s₀ (s.goLive p ref) :=
  (h.zeroCounters.standing.modPart.foldl fun _ _ h => h.useSlots).modMb.writeCard.finish

theorem Keeps.beforeSet {set : List Entry} (h : Keeps s₀ s) : Keeps s₀ (s.beforeSet set) :=
  h.foldl fun _ _ h => h.failSwap.dropEmptyBatches.dropEmptyBatches.foldl fun _ _ h => h.abandonFence

theorem Keeps.afterSet {old : State} {set : List Entry} (h : Keeps s₀ s) : Keeps s₀ (s.afterSet old set) := by
  unfold State.afterSet
  refine h.foldl fun p t h => ?_
  extract_lets engines ranges slots saving draining
  have hslots : Keeps s₀ slots := ((h.foldl fun _ _ h => h.leaveService).foldl fun _ _ h => h.set).foldl fun _ _ h => h.useSlots
  have hdraining : Keeps s₀ draining := by
    have hsaving : Keeps s₀ saving := .ite hslots.modPow hslots
    exact .ite hsaving.modPow hsaving
  exact .ite hdraining hdraining.endWaits.set

theorem Keeps.stopActs {p : ℕ} (h : Keeps s₀ s) : Keeps s₀ (s.stopActs p) := h.set

theorem Keeps.destroyPart {p reason : ℕ} {ref : Option SlotRef} (h : Keeps s₀ s) : Keeps s₀ (s.destroyPart p reason ref) :=
  ((h.modPart.dropSets.staleSession.endSession.revokeAll.foldl fun _ _ h => h.abandonFence).staleAll.stopForming.endReplays.stopActs.foldl fun _ _ h => h.endImport).powReset.modPart

theorem Keeps.applySet {x : PendSet} (h : Keeps s₀ s) : Keeps s₀ (s.applySet x) := by
  unfold State.applySet
  split
  · exact .ite h.goLive.destroyPart h.goLive
  · exact (((h.beforeSet.foldl fun _ _ h => h.applyEntry).afterSet).foldl fun _ _ h => h.modPart.writeCard).finish

theorem Keeps.applySets (h : Keeps s₀ s) : Keeps s₀ s.applySets := h.set.foldl fun _ _ h => h.applySet

theorem Keeps.runPartQuery {c : Cmd} (h : Keeps s₀ s) : Keeps s₀ (runPartQuery c s) := by
  unfold Machine.runPartQuery
  exact h.checked (fun _ h => h.answer h)

theorem Keeps.runPartDestroy {c : Cmd} (h : Keeps s₀ s) : Keeps s₀ (runPartDestroy c s) :=
  h.checked (fun _ h => h.background h.closeLog.destroyPart)

theorem Keeps.freeNames {p : ℕ} (h : Keeps s₀ s) : Keeps s₀ (s.freeNames p) := (h.foldl fun _ _ h => h.freeFence).orphanSteps.set

theorem Keeps.drainCompleteFree {p : ℕ} (h : Keeps s₀ s) : Keeps s₀ (drainCompleteFree p s) := by
  unfold Machine.drainCompleteFree
  dsimp only
  split
  · exact h
  · exact .ite h ((h.foldl fun _ _ h => h.probeEngine).snoopWays.foldl fun _ _ h => h.resetEngine).freeNames.moveRanges.clearSettings.logRec.modPart.writeCard.modMb.finishOpt

/-! ### Keys -/

theorem Keeps.runKeyDerive {c : Cmd} (h : Keeps s₀ s) : Keeps s₀ (runKeyDerive c s) := by
  unfold Machine.runKeyDerive
  exact h.checked (fun _ h => h.answer (h.setSec (Sec.burnedFrom_set _)))

theorem Keeps.runKeyDestroy {c : Cmd} (h : Keeps s₀ s) : Keeps s₀ (runKeyDestroy c s) := by
  unfold Machine.runKeyDestroy
  exact h.checked (fun _ h => (h.setSec (Sec.burnedFrom_set _)).respond)

/-! ### The life cycle -/

theorem Keeps.destroyAll (h : Keeps s₀ s) : Keeps s₀ s.destroyAll := h.foldl fun _ _ h => by
  split
  · exact h
  · exact h
  · exact h
  · exact h.closeLog.destroyPart

theorem Keeps.runLcTransition {c : Cmd} (h : Keeps s₀ s) : Keeps s₀ (runLcTransition c s) := by
  unfold Machine.runLcTransition
  exact h.checked (fun _ h => h.background (.ite (h.setSec (Sec.burnedFrom_set _)).destroyAll (h.setSec (Sec.burnedFrom_set _))))

theorem Keeps.wipeSlots (h : Keeps s₀ s) : Keeps s₀ (wipeSlots s) := by
  unfold Machine.wipeSlots
  split
  · exact .ite h (h.setSec (Sec.burnedFrom_trans (Sec.burnedFrom_set _) (Sec.burnedFrom_mark ..)))
  · exact h

theorem Keeps.destroyRoot (h : Keeps s₀ s) : Keeps s₀ (destroyRoot s) := by
  unfold Machine.destroyRoot
  split
  · exact .ite h (h.setSec (Sec.burnedFrom_trans (Sec.burnedFrom_burnRoot _) (Sec.burnedFrom_mark ..)))
  · exact h

theorem Keeps.eraseUser {verified : Bool} (h : Keeps s₀ s) : Keeps s₀ (eraseUser verified s) := by
  unfold Machine.eraseUser
  split
  · exact .ite (h.setSec (Sec.burnedFrom_trans (Sec.burnedFrom_set _) (Sec.burnedFrom_mark ..))) h
  · exact h

theorem Keeps.burnState (h : Keeps s₀ s) : Keeps s₀ (burnState s) := by
  unfold Machine.burnState
  split
  · exact .ite h (Keeps.finishOpt (h.changeSec
      (Sec.burnedFrom_trans (Sec.burnedFrom_trans (s.sec.burnedFrom_burnLc _) (Sec.burnedFrom_mark ..)) (Sec.burnedFrom_set _))))
  · exact h

/-! ### Debug authorisation -/

theorem Keeps.certAnswer {after : State} {c : Cmd} (h : Keeps s₀ s) (h2 : Keeps s₀ after) : Keeps s₀ (s.certAnswer after c) := h.answer h2

theorem Keeps.runDbgCertLoad {c : Cmd} (h : Keeps s₀ s) : Keeps s₀ (runDbgCertLoad c s) := h.checked (fun _ h => h.certAnswer h.changeSec)

theorem Keeps.runDbgCertClear {c : Cmd} (h : Keeps s₀ s) : Keeps s₀ (runDbgCertClear c s) := h.checked (fun _ h => h.certAnswer h.changeSec)

theorem Keeps.runDbgCertRevoke {c : Cmd} (h : Keeps s₀ s) : Keeps s₀ (Machine.runDbgCertRevoke c s) := by
  unfold Machine.runDbgCertRevoke State.checked
  dsimp only
  split
  · exact h.reject
  · next e =>
    have hpass : (decide (s.sec.rev < c.f 1 0 8 ∧ c.f 1 0 8 ≤ 63)) = true :=
      passes_iff.1 e (_, .rejectedInconsistent, 0x0D24) (.tail _ (.tail _ (.tail _ (.head _))))
    have hrev : s.sec.rev ≤ c.f 1 0 8 := (of_decide_eq_true hpass).1.le
    refine h.certAnswer (h.changeSec ?_)
    exact Sec.burnedFrom_rev hrev

theorem Keeps.runDbgChallenge {nonce : BitVec 256} {c : Cmd} (h : Keeps s₀ s) : Keeps s₀ (runDbgChallenge nonce c s) :=
  h.checked (fun _ h => h.answer (h.setSec (Sec.burnedFrom_set _)))

theorem Keeps.runDbgResponse {c : Cmd} (h : Keeps s₀ s) : Keeps s₀ (runDbgResponse c s) := by
  unfold Machine.runDbgResponse
  exact h.checked (fun _ h => (h.setSec (Sec.burnedFrom_set _)).checked (fun _ h => h.changeSec.respond))

/-! ### Dumps and the log -/

theorem Keeps.storeDump {d : Dump} (h : Keeps s₀ s) : Keeps s₀ (s.storeDump d) := h.set

theorem Keeps.runDumpStart {c : Cmd} (h : Keeps s₀ s) : Keeps s₀ (runDumpStart c s) := by
  unfold Machine.runDumpStart
  exact h.checked (fun _ h => h.background h.set)

theorem Keeps.dumpEnd {bytes : ℕ} (h : Keeps s₀ s) : Keeps s₀ (dumpEnd bytes s) := by
  unfold Machine.dumpEnd
  split
  · exact h
  · exact h.set.storeDump.finish

theorem Keeps.runLogRecords {c : Cmd} (h : Keeps s₀ s) : Keeps s₀ (runLogRecords c s) := h.answer h

theorem Keeps.runLogCounters {c : Cmd} (h : Keeps s₀ s) : Keeps s₀ (runLogCounters c s) := h.answer h

theorem Keeps.runLogDump {stored : ℕ} {c : Cmd} (h : Keeps s₀ s) : Keeps s₀ (runLogDump stored c s) := by
  unfold Machine.runLogDump
  split
  · exact h.reject
  · exact h.answer h.set

theorem Keeps.runLogRead {dump : ℕ} {c : Cmd} (h : Keeps s₀ s) : Keeps s₀ (runLogRead dump c s) :=
  h.checked (fun _ h => .ite h.runLogRecords (.ite h.runLogCounters h.runLogDump))

/-! ### LOW -/

theorem Keeps.restoreDone {p : ℕ} {good : Bool} (h : Keeps s₀ s) : Keeps s₀ (restoreDone p good s) :=
  .ite h (.ite (.ite h.restored h) h.loseDomain)

theorem Keeps.d3hotEntry (h : Keeps s₀ s) : Keeps s₀ (d3hotEntry s) := .ite h (h.set.changeSec.releaseHolds.foldl fun _ _ h => h.lowEntry)

theorem Keeps.d0Return (h : Keeps s₀ s) : Keeps s₀ (d0Return s) := .ite h.set h

/-! ### Plumb -/

theorem Keeps.modPort {p : ℕ} {f : Port → Port} (h : Keeps s₀ s) : Keeps s₀ (s.modPort p f) := h.set

theorem Keeps.modBeat {f : Beat → Beat} (h : Keeps s₀ s) (hf : (f s.beat).tick = s.beat.tick := by rfl) : Keeps s₀ (s.modBeat f) :=
  h.of_eq rfl rfl rfl hf

theorem Keeps.setDrift {b : Bool} (h : Keeps s₀ s) : Keeps s₀ (s.setDrift b) := .ite h.modBeat h.modBeat.linkSend

theorem Keeps.openWindow (h : Keeps s₀ s) : Keeps s₀ s.openWindow := .ite h.set h

theorem Keeps.firstLock (h : Keeps s₀ s) : Keeps s₀ s.firstLock := by
  refine h.changeSec ?_
  split
  · split
    · exact (Sec.burnedFrom_set _)
    · exact Sec.burnedFrom_refl _
  · exact Sec.burnedFrom_refl _

theorem Keeps.passesDue (h : Keeps s₀ s) : Keeps s₀ s.passesDue := h.set

theorem Keeps.enterLocked {src : BeatSource} (h : Keeps s₀ s) : Keeps s₀ (s.enterLocked src) :=
  .ite h.modBeat.passesDue h.modBeat.passesDue.firstLock

theorem Keeps.endResync {src : BeatSource} (h : Keeps s₀ s) : Keeps s₀ (s.endResync src) := h.setDrift.chipEvent.enterLocked

theorem Keeps.checkResync (h : Keeps s₀ s) : Keeps s₀ s.checkResync := by
  unfold State.checkResync
  split
  · exact .ite h.endResync h
  · exact h

theorem Keeps.loseSource (h : Keeps s₀ s) : Keeps s₀ s.loseSource := by
  unfold State.loseSource
  split
  · exact h.modBeat
  · exact h.modBeat
  · exact h.modBeat

theorem Keeps.judge {src : BeatSource} {e : ℤ} (h : Keeps s₀ s) : Keeps s₀ (s.judge src e) :=
  .ite (.ite (Keeps.ite h.modBeat.setDrift h.modBeat.setDrift.logRec).chipEvent (.ite h.modBeat.setDrift h.modBeat.setDrift.logRec))
    (.ite h.modBeat.enterLocked h.modBeat.checkResync)

theorem Keeps.countFaults {n : ℕ} (h : Keeps s₀ s) : Keeps s₀ (s.countFaults n) := h.modBeat

theorem Keeps.usedMarker {src : BeatSource} {consistent : Bool} {tick : ℕ} {e : ℤ} {lag : ℕ} (h : Keeps s₀ s) :
    Keeps s₀ (s.usedMarker src consistent tick e lag) :=
  .ite (.ite h.countFaults.loseSource.modBeat h.countFaults.loseSource) (.ite h.countFaults.modBeat.modBeat.checkResync
    (.ite h.countFaults.countFaults.loseSource h.countFaults.countFaults))

theorem Keeps.beatSourceLoss (h : Keeps s₀ s) : Keeps s₀ s.beatSourceLoss := by
  unfold State.beatSourceLoss
  split
  · exact h.countFaults.loseSource
  · exact h.loseSource

theorem Keeps.sampleBeat {raw : BitVec 96} (h : Keeps s₀ s) : Keeps s₀ (s.sampleBeat raw) := .ite h.samplePair (.ite h.samplePair h)

theorem Keeps.freeRunExpiry (h : Keeps s₀ s) : Keeps s₀ (freeRunExpiry s) := .ite h h.modBeat.setDrift.chipEvent

/-! ### Links -/

theorem Keeps.mirrorFails {n a : ℕ} (h : Keeps s₀ s) : Keeps s₀ (s.mirrorFails n a) := .ite h.mirrorFault h

theorem Keeps.pushFails {r : ℕ} {i : W32} (h : Keeps s₀ s) : Keeps s₀ (s.pushFails r i) := .ite h h.modRing.haltRing.unbindCheck

theorem Keeps.recordFails {n pos : ℕ} {baseGen : Byte} (h : Keeps s₀ s) : Keeps s₀ (s.recordFails n pos baseGen) :=
  .ite h.recordFault h.recordFault.failSeq

theorem Keeps.writeAnswered {w : RemoteWrite} {ok : Bool} (h : Keeps s₀ s) : Keeps s₀ (s.writeAnswered w ok) := by
  unfold State.writeAnswered
  dsimp only
  split
  · exact .ite h.set.freeCredit4 h.set.freeCredit4.mirrorFails
  · exact .ite h.set.freeCredit4 (.ite h.set.freeCredit4.entryWritten h.set.freeCredit4.modRing.entryFails)
  · exact .ite h.set.freeCredit4 h.set.freeCredit4.pushFails
  · exact .ite h.set.freeCredit4 (.ite (.ite h.set.freeCredit4.indexVector h.set.freeCredit4) h.set.freeCredit4.recordFails)
  · exact .ite h.set.freeCredit4 h.set.freeCredit4.digestLost

theorem Keeps.endAccesses {node : ℕ} (h : Keeps s₀ s) : Keeps s₀ (s.endAccesses node) :=
  (h.set.foldl fun _ _ h => h.endTileWith).foldl fun _ _ h => h.writeAnswered

theorem Keeps.abandonProxies {node : ℕ} (h : Keeps s₀ s) : Keeps s₀ (s.abandonProxies node) := h.foldl fun _ _ h => h.abandonOne

theorem Keeps.dropSubs {node : ℕ} (h : Keeps s₀ s) : Keeps s₀ (s.dropSubs node) := h.set

theorem Keeps.sendValues {node : ℕ} (h : Keeps s₀ s) : Keeps s₀ (s.sendValues node) :=
  (h.set.foldl fun _ _ h => h.linkSend).foldl fun _ _ h => h.foldl fun _ _ h => h.linkSend

theorem Keeps.endImports {node : ℕ} (h : Keeps s₀ s) : Keeps s₀ (s.endImports node) := h.foldl fun _ _ h => h.endImport.finish

theorem Keeps.dropPort {p : ℕ} (h : Keeps s₀ s) : Keeps s₀ (s.dropPort p) := .ite h.modPort.beatSourceLoss h.modPort

theorem Keeps.linkTrained {p : ℕ} {r : TrainReport} (h : Keeps s₀ s) : Keeps s₀ (linkTrained p r s) :=
  .ite h (.ite h.modPort.chipEvent (.ite (Keeps.ite h.set.sendValues h.set.abandonProxies.dropSubs.endImports).linkSend
    (.ite h.set.sendValues h.set.abandonProxies.dropSubs.endImports)))

theorem Keeps.offsetPass {p : ℕ} {l : List Exchange} (h : Keeps s₀ s) : Keeps s₀ (offsetPass p l s) := by
  unfold Machine.offsetPass
  split
  · exact h
  · exact .ite h (.ite h.set.offsetPacket.logRec.chipEvent h.set.offsetPacket)

theorem Keeps.peerDrift {p : ℕ} {plumb : PlumbReport} {drift : Bool} (h : Keeps s₀ s) : Keeps s₀ (peerDrift p plumb drift s) :=
  .ite h (.ite h.countMsg.modPort.beatSourceLoss h.countMsg.modPort)

theorem Keeps.remoteFail {id : ℕ} {x : TileRun} {a : PeerAnswer} (h : Keeps s₀ s) : Keeps s₀ (s.remoteFail id x a) :=
  .ite h.retryStep.zeroTile h.endTileWith

theorem Keeps.linkResponse {p id : ℕ} {a : PeerAnswer} (h : Keeps s₀ s) : Keeps s₀ (linkResponse p id a s) := .ite h (by
  split
  · exact h.writeAnswered
  · split
    · exact h
    · exact .ite h (.ite h.remoteFail (Keeps.ite (Keeps.ite h h.countLink).dropTile (Keeps.ite h h.countLink).putTile).freeCredit4))

theorem Keeps.resetNotice {p node : ℕ} {inc : W32} (h : Keeps s₀ s) : Keeps s₀ (resetNotice p node inc s) := by
  unfold Machine.resetNotice
  extract_lets ended sent dropped net noted acted
  have hdropped : Keeps s₀ dropped := (h.countMsg.foldl fun _ _ h => .ite h.linkSend h).foldl fun _ _ h => .ite h.dropPort h
  clear_value dropped
  have hnoted : Keeps s₀ noted := hdropped.set
  exact .ite h hnoted.endAccesses.abandonProxies.dropSubs.endImports.logRec

theorem Keeps.endAccess {id : ℕ} (h : Keeps s₀ s) : Keeps s₀ (s.endAccess id) := by
  unfold State.endAccess
  split
  · exact h.writeAnswered
  · split
    · exact h.endTileWith
    · exact h

theorem Keeps.endPort {p : ℕ} (h : Keeps s₀ s) : Keeps s₀ (s.endPort p) := h.set.foldl fun _ _ h => h.endAccess

theorem Keeps.linkDown {p : ℕ} (h : Keeps s₀ s) : Keeps s₀ (linkDown p s) :=
  .ite h (.ite h.dropPort.endPort h.dropPort.endPort.set.endImports)

theorem Keeps.peerUnreachableExpiry {node : ℕ} (h : Keeps s₀ s) : Keeps s₀ (peerUnreachableExpiry node s) := by
  unfold Machine.peerUnreachableExpiry
  split
  · exact .ite h h.set.abandonProxies
  · exact h

/-! ### The board side and the TAP -/

theorem Keeps.runBoardStatus {c : Cmd} (h : Keeps s₀ s) : Keeps s₀ (runBoardStatus c s) := h.answer h

theorem Keeps.modBoard {f : Board → Board} (h : Keeps s₀ s) : Keeps s₀ (s.modBoard f) := h.set

theorem Keeps.i3cReply {n : ℕ} {v : Option ℕ} (h : Keeps s₀ s) : Keeps s₀ (s.i3cReply n v) := by
  unfold State.i3cReply
  split
  · exact .ite h.set h
  · exact h

theorem Keeps.loadTap {ir : TapIr} {f : State → State} (h : Keeps s₀ s) (hf : ∀ t, Keeps s₀ t → Keeps s₀ (f t)) : Keeps s₀ (s.loadTap ir f) :=
  .ite (.ite (hf _ h.leaveScan) h.leaveScan) h

theorem Keeps.shiftOut {v : ℕ} (h : Keeps s₀ s) : Keeps s₀ (s.shiftOut v) := h.set

theorem Keeps.shiftOpen (h : Keeps s₀ s) : Keeps s₀ s.shiftOpen := h.set.shiftOut

theorem Keeps.tapWrite {o : ℕ} {v : W32} (h : Keeps s₀ s) : Keeps s₀ (s.tapWrite o v) := h.set.writeWindow.set

theorem Keeps.mbxAccess {write : Bool} {o : ℕ} {v : W32} (h : Keeps s₀ s) : Keeps s₀ (mbxAccess write o v s) :=
  .ite (.ite h h.shiftOut) (.ite h.tapWrite h.shiftOut)

theorem Keeps.scanTap {ir : TapIr} {f : State → State} (h : Keeps s₀ s) (hf : ∀ t, Keeps s₀ t → Keeps s₀ (f t)) : Keeps s₀ (s.scanTap ir f) :=
  .ite (h.loadTap hf) (h.loadTap fun _ h => h.shiftOut)

theorem Keeps.stopClocks (h : Keeps s₀ s) : Keeps s₀ s.stopClocks := h.set.shiftOpen

theorem Keeps.blockAccess {a : ℕ} (h : Keeps s₀ s) : Keeps s₀ (s.blockAccess a) := by
  unfold State.blockAccess
  split
  · exact h.modRange
  · exact h.set

theorem Keeps.rawLine {l : ℕ} (h : Keeps s₀ s) : Keeps s₀ (s.rawLine l).1 := by
  unfold State.rawLine
  dsimp only
  split
  · exact h
  · exact h
  · exact h.set.putLine

theorem Keeps.memAccess {a : ℕ} {write : Bool} {v : W32} (h : Keeps s₀ s) : Keeps s₀ (memAccess a write v s) :=
  .ite (.ite h h.shiftOut) (.ite (.ite h.blockAccess h.blockAccess.shiftOut) (.ite h.rawLine.putLine h.rawLine.shiftOut))

/-! ### Boundaries -/

theorem Keeps.tallyFrame {env : FrameEnv} {p : ℕ} (h : Keeps s₀ s) : Keeps s₀ (s.tallyFrame env p) := h.modPart

theorem Keeps.noteEngines (h : Keeps s₀ s) : Keeps s₀ s.noteEngines := .ite h.set h

theorem Keeps.closeFrame {env : FrameEnv} (h : Keeps s₀ s) : Keeps s₀ (s.closeFrame env) :=
  (h.noteEngines.foldl fun _ _ h => h.tallyFrame).set

theorem Keeps.swapPoints (h : Keeps s₀ s) : Keeps s₀ s.swapPoints := h.foldl fun _ _ h => by
  split
  · exact .ite h.swapPoint h
  · exact h

theorem Keeps.limits (h : Keeps s₀ s) : Keeps s₀ s.limits := h.set

theorem Keeps.engineBack (h : Keeps s₀ s) : Keeps s₀ s.engineBack := h.set

theorem Keeps.drainWays {p : ℕ} (h : Keeps s₀ s) : Keeps s₀ (s.drainWays p) := (h.foldl fun _ _ h => h.probeOut).modPart

theorem Keeps.drainAll (h : Keeps s₀ s) : Keeps s₀ s.drainAll := h.foldl fun _ _ h => (h.foldl fun _ _ h => h.drainEngine).drainWays

theorem Keeps.takeEffect (h : Keeps s₀ s) : Keeps s₀ s.takeEffect :=
  h.dirtyActs.applySets.swapPoints.limits.switchModes.coresTick.engineBack.drainAll.floorSettle

theorem Keeps.grantAll (h : Keeps s₀ s) : Keeps s₀ s.grantAll := h.foldl fun _ _ h => h.foldl fun _ _ h => h.grants

theorem Keeps.closeRegulation {env : FrameEnv} (h : Keeps s₀ s) : Keeps s₀ (s.closeRegulation env) :=
  ((((h.foldl fun _ _ h => h.closeBucket).foldl fun _ _ h => h.foldl fun _ _ h => h.closeLink).foldl fun _ _ h => h.foldl fun _ _ h => h.closeCycles).foldl fun _ _ h => h.partEvent).closeFields

theorem Keeps.refill (h : Keeps s₀ s) : Keeps s₀ s.refill := h.refillBuckets.refillFields.foldl fun _ _ h => h.refillLinks

theorem Keeps.clearHot (h : Keeps s₀ s) : Keeps s₀ s.clearHot := h.set

theorem Keeps.closePower {env : FrameEnv} (h : Keeps s₀ s) : Keeps s₀ (s.closePower env) :=
  .ite h (h.powerAction.foldl fun _ _ h => h.modPart)

theorem Keeps.beatFault {after : State} (_h : Keeps s₀ s) (h2 : Keeps s₀ after) : Keeps s₀ (s.beatFault after) := .ite h2.beatSourceLoss h2

theorem Keeps.boardSample {x : ℕ × ℕ × ℕ} (h : Keeps s₀ s) : Keeps s₀ (s.boardSample x) :=
  .ite (h.beatFault h.samplePair) (.ite (h.beatFault h.samplePair).modBoard (.ite (h.beatFault h.samplePair).modBoard (h.beatFault h.samplePair)))

theorem Keeps.snapshot (h : Keeps s₀ s) : Keeps s₀ s.snapshot := .ite h h.set

theorem Keeps.countProbes (h : Keeps s₀ s) : Keeps s₀ s.countProbes := h.set

theorem Keeps.countFrames (h : Keeps s₀ s) : Keeps s₀ s.countFrames := (Keeps.ite h.noteEngines h).set

theorem Keeps.sendMarkers (h : Keeps s₀ s) : Keeps s₀ s.sendMarkers := .ite (h.foldl fun _ _ h => h.linkSend) h

theorem Keeps.runBoundary {env : FrameEnv} (h : Keeps s₀ s) : Keeps s₀ (s.runBoundary env) := by
  unfold State.runBoundary
  extract_lets due faults done samples
  have hfaults : Keeps s₀ faults :=
    h.watchCores.closeFrame.modBeat.closeRegulation.capoFrame.countProbes.foldl fun _ _ h => h.areaFault
  exact (hfaults.takeEffect.grantAll.refill.paceActs.serveLanes.drainPorts.clearHot.closePower.foldl
    fun _ _ h => h.boardSample).countFrames.snapshot.counterStream.sendMarkers.servicePass

theorem Keeps.skew (h : Keeps s₀ s) : Keeps s₀ s.skew := h.set

theorem Keeps.holdRelease {env : FrameEnv} (h : Keeps s₀ s) : Keeps s₀ (holdRelease env s) := .ite h h.modBeat.runBoundary.checkResync

theorem Keeps.thermalWindowClose {onDie : List ℕ} (h : Keeps s₀ s) : Keeps s₀ (thermalWindowClose onDie s) := by
  unfold Machine.thermalWindowClose
  dsimp only
  split
  · exact h.modBoard.thermalClose
  · exact h.modBoard.thermalClose

theorem Keeps.wfgSnapshot (h : Keeps s₀ s) : Keeps s₀ s.wfgSnapshot := h.set

theorem Keeps.epochCard {p : ℕ} (h : Keeps s₀ s) : Keeps s₀ (s.epochCard p) := h.modPart.writeCard

theorem Keeps.epochBoundary {flashOk : Bool} (h : Keeps s₀ s) : Keeps s₀ (Machine.epochBoundary flashOk s) := by
  unfold Machine.epochBoundary
  extract_lets cards ten rolled packets log written
  have hcards : Keeps s₀ cards := h.wfgSnapshot.foldl fun _ _ h => h.epochCard
  clear_value cards
  have hrolled : Keeps s₀ rolled := hcards.set
  clear_value rolled
  have hpackets : Keeps s₀ packets := hrolled.changeSec.syncPacket.offsetPackets
  clear_value packets
  have hwritten : Keeps s₀ written := .ite hpackets.set hpackets
  split
  · exact .ite hwritten.needReset hwritten
  · exact hwritten

/-! ### Sequences -/

theorem Keeps.runSeqOpen {c : Cmd} (h : Keeps s₀ s) : Keeps s₀ (runSeqOpen c s) := by
  unfold Machine.runSeqOpen
  exact h.checked (fun _ h => h.answer h.modSeq)

theorem Keeps.runSeqClose {c : Cmd} (h : Keeps s₀ s) : Keeps s₀ (runSeqClose c s) :=
  h.checked (fun _ h => (Keeps.ite h.dropChunks.modSeq h.dropChunks.endSeq).floorSettle)

theorem Keeps.clearPage {p x e : ℕ} (h : Keeps s₀ s) : Keeps s₀ (s.clearPage p x e) := by
  unfold State.clearPage
  dsimp only
  split
  · exact h
  · refine .ite h ?_
    split
    · exact h
    · exact .ite h (Keeps.chargeMaint (Keeps.dirtyMark (h.setLines fun w => Tab.wf_filter _ w)))

theorem Keeps.runKvFill {c : Cmd} (h : Keeps s₀ s) : Keeps s₀ (runKvFill c s) := by
  unfold Machine.runKvFill
  exact h.checked (fun _ h => h.answer (Keeps.ite (h.foldl fun _ _ h => h.clearPage) h).modReserve.unstall)

theorem Keeps.runKvDrain {c : Cmd} (h : Keeps s₀ s) : Keeps s₀ (runKvDrain c s) := h.checked (fun _ h => h.answer h.modReserve)

theorem Keeps.runKvWater {c : Cmd} (h : Keeps s₀ s) : Keeps s₀ (runKvWater c s) := by
  unfold Machine.runKvWater
  exact h.checked (fun _ h => h.answer h.modReserve)

theorem Keeps.runSeqQuery {c : Cmd} (h : Keeps s₀ s) : Keeps s₀ (runSeqQuery c s) := h.checked (fun _ h => h.answer h)

theorem Keeps.seqCacheFill {n : ℕ} (h : Keeps s₀ s) : Keeps s₀ (seqCacheFill n s) := .ite h h.set

/-! ### Starts -/

theorem Keeps.autoDump {cause : ℕ} (h : Keeps s₀ s) : Keeps s₀ (s.autoDump cause) := .ite h.set.storeDump h

theorem Keeps.sendNotices (h : Keeps s₀ s) : Keeps s₀ s.sendNotices := h.foldl fun _ _ h => h.linkSend

theorem Keeps.startBoard {env : StartEnv} (h : Keeps s₀ s) : Keeps s₀ (s.startBoard env) := h.set.foldl fun _ _ h => .ite h.setCode h

theorem Keeps.startMemory {env : StartEnv} {cause unit : ℕ} {trimBad : Option ℕ} (h : Keeps s₀ s) :
    Keeps s₀ (s.startMemory env cause unit trimBad) := by
  unfold State.startMemory
  dsimp only
  split
  · exact h.set.logRec.logRec
  · exact h.set.logRec

theorem Keeps.stopStart {why : ℕ × ℕ} {phase unit : ℕ} {failed : Bool} (h : Keeps s₀ s) : Keeps s₀ (s.stopStart why phase unit failed) :=
  h.set.logRec

theorem Keeps.loadCores {l : List (ℕ × ℕ × W32)} (h : Keeps s₀ s) : Keeps s₀ (s.loadCores l) := h.foldl fun _ _ h => h.modCore

end Sys2Proof.Machine

namespace Sys2Proof.Machine
variable {s₀ s t : State}

/-! ### The commands -/

end Sys2Proof.Machine

namespace Sys2Proof

/-- The commands that set or move the tick counter, or lose it. -/
def Instr.movesCounter : Instr → Bool
  | .frameBoundary _ | .markerWord _ _ _ _ | .acquireTimeout | .slewAdjust | .chipReset _ | .powerLoss => true
  | _ => false

end Sys2Proof

namespace Sys2Proof.Machine

variable {s₀ s t : State}

/-- Every other command answers a next state, and keeps what nearly every operation keeps. -/
theorem exec_keeps {i : Instr} (hi : i.movesCounter = false) (s : State) : ∃ t, exec i s = .next t ∧ Keeps s t := by
  have h := Keeps.refl s
  cases i with
  | requestAreaWrite _ _ _ _ => exact ⟨_, rfl, h.bar fun _ h => h.requestAreaWrite⟩
  | mbSubmit _ _ => exact ⟨_, rfl, h.bar fun _ h => h.mbSubmit⟩
  | mbDoneClear _ _ => exact ⟨_, rfl, h.bar fun _ h => h.mbDoneClear⟩
  | vectorWrite _ _ => exact ⟨_, rfl, h.bar fun _ h => h.writeCtrl⟩
  | endSession _ _ => exact ⟨_, rfl, h.bar fun _ h => h.writeCtrl⟩
  | registerWrite _ _ _ => exact ⟨_, rfl, h.bar (fun _ h => .ite h.writeWindow h)⟩
  | tickLoRead _ => exact ⟨_, rfl, h.bar (fun _ h => .ite h.set h)⟩
  | ctxWinSelWrite _ _ _ => exact ⟨_, rfl, h.bar fun _ h => h.ctxWinSel⟩
  | ctxWinCtlWrite _ _ _ => exact ⟨_, rfl, h.bar fun _ h => h.ctxWinCtl⟩
  | parkedResume _ _ => exact ⟨_, rfl, h.live fun _ h => h.parkedResume⟩
  | hello _ => exact ⟨_, rfl, h.live fun _ h => h.hawk fun _ _ h => h.runHello⟩
  | goodbye _ => exact ⟨_, rfl, h.live fun _ h => h.hawk fun _ _ h => h.runGoodbye⟩
  | ping _ => exact ⟨_, rfl, h.live fun _ h => h.hawk fun _ _ h => h.runPing⟩
  | beatStatus _ => exact ⟨_, rfl, h.live fun _ h => h.hawk fun _ _ h => h.runBeatStatus⟩
  | peerOffsets _ => exact ⟨_, rfl, h.live fun _ h => h.hawk fun _ _ h => h.runPeerOffsets⟩
  | partCreate _ => exact ⟨_, rfl, h.live fun _ h => h.hawk fun _ _ h => h.runPartCreate⟩
  | partStage _ => exact ⟨_, rfl, h.live fun _ h => h.hawk fun _ _ h => h.runPartStage⟩
  | partCommit _ => exact ⟨_, rfl, h.live fun _ h => h.hawk fun _ _ h => h.runPartCommit⟩
  | partDestroy _ => exact ⟨_, rfl, h.live fun _ h => h.hawk fun _ _ h => h.runPartDestroy⟩
  | partQuery _ => exact ⟨_, rfl, h.live fun _ h => h.hawk fun _ _ h => h.runPartQuery⟩
  | spanSet _ => exact ⟨_, rfl, h.live fun _ h => h.hawk fun _ _ h => h.runSpanSet⟩
  | drainCompleteFree _ => exact ⟨_, rfl, h.live fun _ h => h.drainCompleteFree⟩
  | ctxCreate _ => exact ⟨_, rfl, h.live fun _ h => h.hawk fun _ _ h => h.runCtxCreate⟩
  | ctxDestroy _ => exact ⟨_, rfl, h.live fun _ h => h.hawk fun _ _ h => h.runCtxDestroy⟩
  | ringBind _ => exact ⟨_, rfl, h.live fun _ h => h.hawk fun _ _ h => h.runRingBind⟩
  | ringUnbind _ => exact ⟨_, rfl, h.live fun _ h => h.hawk fun _ _ h => h.runRingUnbind⟩
  | ctxQuery _ => exact ⟨_, rfl, h.live fun _ h => h.hawk fun _ _ h => h.runCtxQuery⟩
  | schedSet _ => exact ⟨_, rfl, h.live fun _ h => h.hawk fun _ _ h => h.runSchedSet⟩
  | schedQuery _ => exact ⟨_, rfl, h.live fun _ h => h.hawk fun _ _ h => h.runSchedQuery⟩
  | regSet _ => exact ⟨_, rfl, h.live fun _ h => h.hawk fun _ _ h => h.runRegSet⟩
  | regQuery _ => exact ⟨_, rfl, h.live fun _ h => h.hawk fun _ _ h => h.runRegQuery⟩
  | cbgSet _ => exact ⟨_, rfl, h.live fun _ h => h.hawk fun _ _ h => h.runCbgSet⟩
  | baseLoad _ => exact ⟨_, rfl, h.live fun _ h => h.hawk fun _ _ h => h.runBaseLoad⟩
  | baseSwap _ => exact ⟨_, rfl, h.live fun _ h => h.hawk fun _ _ h => h.runBaseSwap⟩
  | seqOpen _ => exact ⟨_, rfl, h.live fun _ h => h.hawk fun _ _ h => h.runSeqOpen⟩
  | seqClose _ => exact ⟨_, rfl, h.live fun _ h => h.hawk fun _ _ h => h.runSeqClose⟩
  | kvReserveFill _ => exact ⟨_, rfl, h.live fun _ h => h.hawk fun _ _ h => h.runKvFill⟩
  | kvReserveDrain _ => exact ⟨_, rfl, h.live fun _ h => h.hawk fun _ _ h => h.runKvDrain⟩
  | kvReserveSetWater _ => exact ⟨_, rfl, h.live fun _ h => h.hawk fun _ _ h => h.runKvWater⟩
  | seqQuery _ => exact ⟨_, rfl, h.live fun _ h => h.hawk fun _ _ h => h.runSeqQuery⟩
  | fenceAlloc _ => exact ⟨_, rfl, h.live fun _ h => h.hawk fun _ _ h => h.runFenceAlloc⟩
  | fenceFree _ => exact ⟨_, rfl, h.live fun _ h => h.hawk fun _ _ h => h.runFenceFree⟩
  | fenceExport _ => exact ⟨_, rfl, h.live fun _ h => h.hawk fun _ _ h => h.runFenceExport⟩
  | fenceWithdraw _ => exact ⟨_, rfl, h.live fun _ h => h.hawk fun _ _ h => h.runFenceWithdraw⟩
  | fenceImport _ => exact ⟨_, rfl, h.live fun _ h => h.hawk fun _ _ h => h.runFenceImport⟩
  | importRequest _ _ => exact ⟨_, rfl, h.live fun _ h => h.importRequest⟩
  | importTimeout _ _ => exact ⟨_, rfl, h.live fun _ h => h.importTimeout⟩
  | wfgRead _ => exact ⟨_, rfl, h.live fun _ h => h.hawk fun _ _ h => h.runWfgRead⟩
  | segSyncLoad _ _ => exact ⟨_, rfl, h.live fun _ h => h.hawk fun _ _ h => h.runSegLoad⟩
  | segSyncEntries _ _ => exact ⟨_, rfl, h.live fun _ h => h.hawk fun _ _ h => h.runSegEntries⟩
  | segSyncUnload _ => exact ⟨_, rfl, h.live fun _ h => h.hawk fun _ _ h => h.runSegUnload⟩
  | segCheck _ _ => exact ⟨_, rfl, h.live fun _ h => h.hawk fun _ _ h => h.runSegCheck⟩
  | tlbInvalidate _ => exact ⟨_, rfl, h.live fun _ h => h.hawk fun _ _ h => h.runTlbInvalidate⟩
  | tlbDrainEnd _ _ => exact ⟨_, rfl, h.live fun _ h => h.tlbDrainEnd⟩
  | migrateMode _ => exact ⟨_, rfl, h.live fun _ h => h.hawk fun _ _ h => h.runMigrateMode⟩
  | rangeSet _ => exact ⟨_, rfl, h.live fun _ h => h.hawk fun _ _ h => h.runRangeSet⟩
  | maintStart _ => exact ⟨_, rfl, h.live fun _ h => h.hawk fun _ _ h => h.runMaintStart⟩
  | maintQuery _ => exact ⟨_, rfl, h.live fun _ h => h.hawk fun _ _ h => h.runMaintQuery⟩
  | cohModeSet _ => exact ⟨_, rfl, h.live fun _ h => h.hawk fun _ _ h => h.runCohModeSet⟩
  | pwrBudgetSet _ => exact ⟨_, rfl, h.live fun _ h => h.hawk fun _ _ h => h.runPwrBudgetSet⟩
  | pwrStateSet _ => exact ⟨_, rfl, h.live fun _ h => h.hawk fun _ _ h => h.runPwrStateSet⟩
  | keyDerive _ => exact ⟨_, rfl, h.live fun _ h => h.hawk fun _ _ h => h.runKeyDerive⟩
  | keyDestroy _ => exact ⟨_, rfl, h.live fun _ h => h.hawk fun _ _ h => h.runKeyDestroy⟩
  | lcTransition _ => exact ⟨_, rfl, h.live fun _ h => h.hawk fun _ _ h => h.runLcTransition⟩
  | wipeSlots => exact ⟨_, rfl, h.live fun _ h => h.wipeSlots⟩
  | destroyRoot => exact ⟨_, rfl, h.live fun _ h => h.destroyRoot⟩
  | eraseUser _ => exact ⟨_, rfl, h.live fun _ h => h.eraseUser⟩
  | burnState => exact ⟨_, rfl, h.live fun _ h => h.burnState⟩
  | dbgCertLoad _ _ => exact ⟨_, rfl, h.live fun _ h => h.hawk fun _ _ h => h.runDbgCertLoad⟩
  | dbgCertClear _ => exact ⟨_, rfl, h.live fun _ h => h.hawk fun _ _ h => h.runDbgCertClear⟩
  | dbgCertRevoke _ => exact ⟨_, rfl, h.live fun _ h => h.hawk fun _ _ h => h.runDbgCertRevoke⟩
  | dbgChallenge _ _ => exact ⟨_, rfl, h.live fun _ h => h.hawk fun _ _ h => h.runDbgChallenge⟩
  | dbgResponse _ _ => exact ⟨_, rfl, h.live fun _ h => h.hawk fun _ _ h => h.runDbgResponse⟩
  | dirtyLogBegin _ => exact ⟨_, rfl, h.live fun _ h => h.hawk fun _ _ h => h.runDirtyLogBegin⟩
  | dirtyLogFlip _ => exact ⟨_, rfl, h.live fun _ h => h.hawk fun _ _ h => h.runDirtyLogFlip⟩
  | dirtyLogStop _ => exact ⟨_, rfl, h.live fun _ h => h.hawk fun _ _ h => h.runDirtyLogStop⟩
  | ctxRevoke _ => exact ⟨_, rfl, h.live fun _ h => h.hawk fun _ _ h => h.runCtxRevoke⟩
  | revokeDrainEnd _ => exact ⟨_, rfl, h.live fun _ h => h.revokeDrainEnd⟩
  | partReset _ => exact ⟨_, rfl, h.live fun _ h => h.hawk fun _ _ h => h.runPartReset⟩
  | partResetConfig _ => exact ⟨_, rfl, h.live fun _ h => h.hawk fun _ _ h => h.runPartResetConfig⟩
  | partitionResetComplete _ => exact ⟨_, rfl, h.live fun _ h => h.partitionResetComplete⟩
  | dumpStart _ => exact ⟨_, rfl, h.live fun _ h => h.hawk fun _ _ h => h.runDumpStart⟩
  | dumpEnd _ => exact ⟨_, rfl, h.live fun _ h => h.dumpEnd⟩
  | logRead _ _ => exact ⟨_, rfl, h.live fun _ h => h.hawk fun _ _ h => h.runLogRead⟩
  | digestSet _ => exact ⟨_, rfl, h.live fun _ h => h.hawk fun _ _ h => h.runDigestSet⟩
  | traceSet _ => exact ⟨_, rfl, h.live fun _ h => h.hawk fun _ _ h => h.runTraceSet⟩
  | breakSet _ => exact ⟨_, rfl, h.live fun _ h => h.hawk fun _ _ h => h.runBreakSet⟩
  | breakClear _ => exact ⟨_, rfl, h.live fun _ h => h.hawk fun _ _ h => h.runBreakClear⟩
  | breakResume _ => exact ⟨_, rfl, h.live fun _ h => h.hawk fun _ _ h => h.runBreakResume⟩
  | breakQuery _ => exact ⟨_, rfl, h.live fun _ h => h.hawk fun _ _ h => h.runBreakQuery⟩
  | boardStatus _ => exact ⟨_, rfl, h.live fun _ h => h.hawk fun _ _ h => h.runBoardStatus⟩
  | doorbell _ => exact ⟨_, rfl, h.live fun _ h => h.doorbell⟩
  | push _ _ _ => exact ⟨_, rfl, h.live fun _ h => h.push⟩
  | ringStateFill _ => exact ⟨_, rfl, h.live fun _ h => h.ringStateFill⟩
  | descriptorFetch _ _ => exact ⟨_, rfl, h.live fun _ h => h.descriptorFetch⟩
  | nop _ => exact ⟨_, rfl, h.live (fun _ h => h.starting (fun _ => h.startDesc.complete))⟩
  | work _ _ => exact ⟨_, rfl, h.live fun _ h => h.work⟩
  | prefill _ => exact ⟨_, rfl, h.live fun _ h => h.prefill⟩
  | wait _ => exact ⟨_, rfl, h.live fun _ h => h.wait⟩
  | signal _ => exact ⟨_, rfl, h.live fun _ h => h.signalDesc⟩
  | workCompletion _ _ => exact ⟨_, rfl, h.live fun _ h => h.workCompletion⟩
  | batchCompletion _ _ _ => exact ⟨_, rfl, h.live fun _ h => h.batchCompletion⟩
  | admissionCycle _ => exact ⟨_, rfl, h.live fun _ h => h.admissionCycle⟩
  | seqCacheFill _ => exact ⟨_, rfl, h.live fun _ h => h.seqCacheFill⟩
  | floorWindowOpen => exact ⟨_, rfl, h.live (fun _ h => .ite h (h.once (fun _ h => h.floorOpen)))⟩
  | floorDue => exact ⟨_, rfl, h.live (fun _ h => h.once (fun _ h => h.floorDue))⟩
  | floorWindowClose => exact ⟨_, rfl, h.live (fun _ h => h.once (fun _ h => h.floorClose))⟩
  | thermalWindowClose _ => exact ⟨_, rfl, h.live (fun _ h => .ite h (h.once (fun _ h => h.thermalWindowClose)))⟩
  | epochBoundary _ => exact ⟨_, rfl, h.live (fun _ h => .ite h (h.once (fun _ h => h.epochBoundary)))⟩
  | wfgScanEnd _ => exact ⟨_, rfl, h.live fun _ h => h.wfgScanEnd⟩
  | maintenanceSlot _ => exact ⟨_, rfl, h.live fun _ h => h.maintenanceSlot⟩
  | rangeClearingDone _ => exact ⟨_, rfl, h.live fun _ h => h.rangeClearingDone⟩
  | gateRequest _ => exact ⟨_, rfl, h.live fun _ h => h.gateRequest⟩
  | tagFill _ _ => exact ⟨_, rfl, h.live (fun _ h => .ite h.tagFetch h)⟩
  | sharedPoisonRewrite _ _ _ _ => exact ⟨_, rfl, h.live fun _ h => h.sharedPoisonRewrite⟩
  | tile _ => exact ⟨_, rfl, h.live fun _ h => h.tile⟩
  | tableWalk _ _ _ _ _ => exact ⟨_, rfl, h.live (fun _ h => .ite h.walk h)⟩
  | faultWaitExpiry _ _ => exact ⟨_, rfl, h.live fun _ h => h.faultWaitExpiry⟩
  | tierMoveSwap _ _ _ => exact ⟨_, rfl, h.live fun _ h => h.tierMoveSwap⟩
  | baseLoadEnd _ _ _ => exact ⟨_, rfl, h.live fun _ h => h.baseLoadEnd⟩
  | fetchShare _ => exact ⟨_, rfl, h.live fun _ h => h.request⟩
  | fetchOwn _ => exact ⟨_, rfl, h.live fun _ h => h.request⟩
  | fetchTransient _ => exact ⟨_, rfl, h.live fun _ h => h.request⟩
  | upgrade _ => exact ⟨_, rfl, h.live fun _ h => h.request⟩
  | storeThrough _ => exact ⟨_, rfl, h.live fun _ h => h.request⟩
  | spill _ => exact ⟨_, rfl, h.live fun _ h => h.request⟩
  | release _ => exact ⟨_, rfl, h.live fun _ h => h.request⟩
  | atomic _ => exact ⟨_, rfl, h.live fun _ h => h.request⟩
  | probeShare _ => exact ⟨_, rfl, h.live (fun _ h => h.arrive (fun _ _ h => h.supply))⟩
  | probeTake _ => exact ⟨_, rfl, h.live (fun _ h => h.arrive (fun _ _ h => h.supply))⟩
  | probeFlush _ => exact ⟨_, rfl, h.live (fun _ h => h.arrive (fun _ _ h => h.flush))⟩
  | probeKill _ => exact ⟨_, rfl, h.live (fun _ h => h.arrive (fun _ _ h => h.modCopy.answerProbe))⟩
  | done _ => exact ⟨_, rfl, h.live (fun _ h => h.arrive (fun _ _ h => h.doneArrives))⟩
  | doneAck _ => exact ⟨_, rfl, h.live (fun _ h => h.arrive (fun _ _ h => h.doneAck))⟩
  | probeAck _ => exact ⟨_, rfl, h.live (fun _ h => h.arrive (fun _ _ h => h.probeAnswer))⟩
  | dataGo _ => exact ⟨_, rfl, h.live (fun _ h => h.arrive (fun _ _ h => h.dataGo))⟩
  | bounce _ => exact ⟨_, rfl, h.live (fun _ h => h.arrive (fun _ _ h => h))⟩
  | ticket _ => exact ⟨_, rfl, h.live (fun _ h => h.arrive (fun _ _ h => h))⟩
  | fill _ => exact ⟨_, rfl, h.live (fun _ h => h.arrive (fun _ _ h => h.fillArrives))⟩
  | probeData _ => exact ⟨_, rfl, h.live (fun _ h => h.arrive (fun _ _ h => h.probeAnswer))⟩
  | spillData _ => exact ⟨_, rfl, h.live (fun _ h => h.arrive (fun _ _ h => h.spillData))⟩
  | storeData _ => exact ⟨_, rfl, h.live (fun _ h => h.arrive (fun _ _ h => h.storeData))⟩
  | snoopTimeout _ _ _ => exact ⟨_, rfl, h.live fun _ h => h.snoopTimeout⟩
  | drainIdle _ => exact ⟨_, rfl, h.live fun _ h => h.drainIdle⟩
  | saveDone _ => exact ⟨_, rfl, h.live fun _ h => h.saveDone⟩
  | restoreDone _ _ => exact ⟨_, rfl, h.live fun _ h => h.restoreDone⟩
  | wake _ => exact ⟨_, rfl, h.live fun _ h => h.wake⟩
  | d3hotEntry => exact ⟨_, rfl, h.live fun _ h => h.d3hotEntry⟩
  | d0Return => exact ⟨_, rfl, h.live fun _ h => h.d0Return⟩
  | droopTrip _ _ => exact ⟨_, rfl, h.live fun _ h => h.droopTrip⟩
  | stretchReassign _ => exact ⟨_, rfl, h.live fun _ h => h.stretchReassign⟩
  | recoveryHoldEnd _ => exact ⟨_, rfl, h.live (fun _ h => .ite h.modCapo h)⟩
  | keepRampStep _ => exact ⟨_, rfl, h.live fun _ h => h.keepRampStep⟩
  | sensorMask _ _ => exact ⟨_, rfl, h.live fun _ h => h.sensorMask⟩
  | beatSourceLoss => exact ⟨_, rfl, h.live fun _ h => h.beatSourceLoss⟩
  | freeRunExpiry => exact ⟨_, rfl, h.live fun _ h => h.freeRunExpiry⟩
  | holdRelease _ => exact ⟨_, rfl, h.live fun _ h => h.holdRelease⟩
  | offsetPass _ _ => exact ⟨_, rfl, h.live fun _ h => h.offsetPass⟩
  | linkTrained _ _ => exact ⟨_, rfl, h.live fun _ h => h.linkTrained⟩
  | linkRequest _ _ _ => exact ⟨_, rfl, h.live fun _ h => h.linkRequest⟩
  | proxyUpdate _ _ => exact ⟨_, rfl, h.live (fun _ h => .ite h.heardFrom.updateProxy h)⟩
  | proxyAbandon _ => exact ⟨_, rfl, h.live (fun _ h => .ite h.heardFrom.abandonOne h)⟩
  | resetNotice _ _ _ => exact ⟨_, rfl, h.live fun _ h => h.resetNotice⟩
  | linkDown _ => exact ⟨_, rfl, h.live fun _ h => h.linkDown⟩
  | peerUnreachableExpiry _ => exact ⟨_, rfl, h.live fun _ h => h.peerUnreachableExpiry⟩
  | watchdogFire _ _ => exact ⟨_, rfl, h.live fun _ h => h.watchdogFire⟩
  | replayTimeout _ => exact ⟨_, rfl, h.live fun _ h => h.replayTimeout⟩
  | coreWatchdogExpiry _ => exact ⟨_, rfl, h.live (fun _ h => .ite h.needReset h)⟩
  | heartbeatTimeout => exact ⟨_, rfl, h.live (fun _ h => .ite h h.needReset)⟩
  | powerOn => exact ⟨_, rfl, Keeps.ite h h.set⟩
  | pcieReset => exact ⟨_, rfl, h.live fun _ h => h.needReset⟩
  | digestWindowClose _ _ => exact ⟨_, rfl, h.live fun _ h => h.digestWindowClose⟩
  | breakpointHit _ _ _ => exact ⟨_, rfl, h.live fun _ h => h.breakpointHit⟩
  | sdaStuck => exact ⟨_, rfl, h.live fun _ h => h.modBoard⟩
  | entdaa _ => exact ⟨_, rfl, h.live fun _ h => h.modBoard⟩
  | setdasa => exact ⟨_, rfl, h.live fun _ h => h.modBoard⟩
  | mctpControl => exact ⟨_, rfl, h⟩
  | getPdr => exact ⟨_, rfl, h⟩
  | getSensorReading _ => exact ⟨_, rfl, h.live fun _ h => h.i3cReply⟩
  | getStateSensorReadings _ => exact ⟨_, rfl, h.live fun _ h => h.i3cReply⟩
  | setEventReceiver => exact ⟨_, rfl, h⟩
  | bypass => exact ⟨_, rfl, h.loadTap (fun _ h => h.shiftOut)⟩
  | idcode => exact ⟨_, rfl, h.loadTap (fun _ h => h.shiftOut)⟩
  | samplePreload => exact ⟨_, rfl, h.loadTap (fun _ h => h.shiftOpen)⟩
  | mbxAccess _ _ _ => exact ⟨_, rfl, h.loadTap (fun _ h => h.mbxAccess)⟩
  | extest => exact ⟨_, rfl, h.scanTap (fun _ h => h.shiftOpen)⟩
  | intest => exact ⟨_, rfl, h.scanTap (fun _ h => h.stopClocks)⟩
  | internalScan => exact ⟨_, rfl, h.scanTap (fun _ h => h.stopClocks)⟩
  | memAccess _ _ _ => exact ⟨_, rfl, Keeps.ite (h.loadTap (fun _ h => h.memAccess)) (h.loadTap (fun _ h => h.shiftOut))⟩
  | controlDomainError _ _ => exact ⟨_, rfl, h.live (fun _ h => h.logRec.needReset)⟩
  | agentCacheError _ _ => exact ⟨_, rfl, h.live (fun _ h => .ite h.loseDomain h)⟩
  | snoopFilterError _ _ _ => exact ⟨_, rfl, h.live fun _ h => h.snoopFilterError⟩
  | engineResetDone _ => exact ⟨_, rfl, h.live fun _ h => h.engineResetDone⟩
  | importAnswer _ _ _ => exact ⟨_, rfl, h.live fun _ h => h.importAnswer⟩
  | linkResponse _ _ _ => exact ⟨_, rfl, h.live fun _ h => h.linkResponse⟩
  | peerDriftAdvertisement _ _ _ => exact ⟨_, rfl, h.live fun _ h => h.peerDrift⟩
  | tapReset => exact ⟨_, rfl, h.loadTap (fun _ h => h)⟩
  | traceLaneOvercurrent _ _ => exact ⟨_, rfl, h.live (fun _ h => .ite h.samplePair h)⟩
  | traceFifoRoom _ => exact ⟨_, rfl, h.live fun _ h => h.traceFifoRoom⟩
  | frameBoundary _ | markerWord _ _ _ _ | acquireTimeout | slewAdjust | chipReset _ | powerLoss => cases hi

/-! ### The commands that move the counter -/

theorem Steady.refl (s : State) : Steady s s := (Keeps.refl s).toSteady

theorem Steady.trans (h : Steady s₀ s) (h' : Steady s t) : Steady s₀ t :=
  ⟨h'.pending.trans h.pending, Sec.burnedFrom_trans h.fuses h'.fuses, fun w => h'.lines (h.lines w)⟩

/-- Plumb changes its own unit alone. -/
theorem Steady.modBeat {f : Beat → Beat} (h : Steady s₀ s) : Steady s₀ (s.modBeat f) := ⟨h.pending, h.fuses, h.lines⟩

theorem Steady.then (h : Steady s₀ s) (h' : Keeps s t) : Steady s₀ t := h.trans h'.toSteady

/-- Outside ACQUIRE a word of the beat leaves the counter alone. -/
theorem Keeps.takeMarker {src : BeatSource} {good : Bool} {tick lag : ℕ} (h : Keeps s₀ s) (hp : s.beat.plumb ≠ .acquire) :
    Keeps s₀ (s.takeMarker src good tick lag) := by
  have hseen : Keeps s₀ (if good = true then s.modBeat fun x => { x with seen := x.seen.put none (srcNum src) (some tick) } else s) :=
    .ite h.modBeat h
  unfold State.takeMarker
  dsimp only
  split
  · next e => exact absurd e hp
  · exact .ite h.usedMarker (.ite hseen.modBeat hseen)
  · exact .ite hseen.judge hseen
  · exact .ite hseen.judge hseen
  · exact .ite h.usedMarker (.ite (.ite hseen.loseSource.judge hseen.modBeat.checkResync) hseen)

theorem Steady.takeMarker {src : BeatSource} {good : Bool} {tick lag : ℕ} (h : Steady s₀ s) : Steady s₀ (s.takeMarker src good tick lag) := by
  by_cases hp : s.beat.plumb = .acquire
  · have hseen : Keeps s (if good = true then s.modBeat fun x => { x with seen := x.seen.put none (srcNum src) (some tick) } else s) :=
      .ite (Keeps.refl s).modBeat (Keeps.refl s)
    unfold State.takeMarker
    simp only [hp]
    split
    · exact (h.then hseen).modBeat.then (Keeps.refl _).enterLocked.openWindow
    · exact h.then hseen
  · exact h.then ((Keeps.refl s).takeMarker hp)

theorem State.samplePair_beat (n code : ℕ) : (s.samplePair n code).beat = s.beat := by
  unfold State.samplePair
  dsimp only
  split
  · rfl
  · split
    · split <;> rfl
    · split <;> rfl

theorem State.sampleBeat_beat (raw : BitVec 96) : (s.sampleBeat raw).beat = s.beat := by
  unfold State.sampleBeat
  split
  · exact State.samplePair_beat 0 0
  · split
    · exact State.samplePair_beat 0 5
    · rfl

theorem Steady.markerWord {src : BeatSource} {w : BitVec 96} {lag : ℕ} {inverted : Bool} (h : Steady s₀ s) :
    Steady s₀ (markerWord src w lag inverted s) := by
  unfold Machine.markerWord
  split
  · exact h
  · split
    · exact (h.then (Keeps.refl s).sampleBeat).takeMarker
    · exact (h.then (Keeps.refl s).countMsg).takeMarker

theorem Keeps.markerWord {src : BeatSource} {w : BitVec 96} {lag : ℕ} {inverted : Bool} (h : Keeps s₀ s) (hp : s.beat.plumb ≠ .acquire) :
    Keeps s₀ (markerWord src w lag inverted s) := by
  unfold Machine.markerWord
  split
  · exact h
  · split
    · exact h.sampleBeat.takeMarker (by rwa [State.sampleBeat_beat])
    · exact h.countMsg.takeMarker hp

theorem Steady.acquireTimeout (h : Steady s₀ s) : Steady s₀ (acquireTimeout s) := by
  unfold Machine.acquireTimeout
  split
  · exact h
  · exact h.modBeat.then (Keeps.refl _).setDrift.openWindow

theorem Steady.slewAdjust (h : Steady s₀ s) : Steady s₀ (slewAdjust s) := by
  unfold Machine.slewAdjust
  split
  · exact h
  · split
    · exact h.modBeat.then (Keeps.refl _).checkResync
    · exact h.modBeat.then (Keeps.refl _).checkResync

theorem Steady.idle (h : Steady s₀ s) : Steady s₀ s.idle := by
  unfold State.idle
  dsimp only
  split
  · exact h
  · split
    · split
      · exact h.modBeat
      · exact h
    · split
      · exact h.slewAdjust
      · split
        · exact h
        · exact h.modBeat

theorem Steady.arrive {tick : ℕ} {err : ℤ} (h : Steady s₀ s) : Steady s₀ (s.arrive tick err) := h.modBeat

theorem Steady.runTo {n : ℕ} (h : Steady s₀ s) : Steady s₀ (s.runTo n) := by
  unfold State.runTo
  dsimp only
  split
  · exact (h.arrive.then (Keeps.refl _).checkResync).modBeat
  · exact h.arrive

theorem Steady.stepTo {land : ℕ} {err : ℤ} (h : Steady s₀ s) : Steady s₀ (s.stepTo land err) := by
  unfold State.stepTo
  dsimp only
  split
  · exact h.arrive.then (Keeps.refl _).skew
  · exact (h.arrive.then (Keeps.refl _).skew).modBeat

theorem Steady.frameBoundary {env : FrameEnv} (h : Steady s₀ s) : Steady s₀ (frameBoundary env s) := by
  have hw := h.then (Keeps.refl s).markWaits
  unfold Machine.frameBoundary
  dsimp only
  split
  · exact h
  · split
    · exact h.modBeat.then (Keeps.refl _).runBoundary
    · split
      · exact hw.stepTo.then (Keeps.refl _).runBoundary.checkResync
      · split
        · exact (hw.arrive.then (Keeps.refl _).skew).modBeat
        · exact hw.runTo.then (Keeps.refl _).runBoundary.checkResync

/-! ### Starts -/

theorem Sec.burnedFrom_resumeStep (x : Sec) (row k : ℕ) : (x.resumeStep row k).burnedFrom x := by
  refine Sec.burnedFrom_trans (y := if k = lcSteps row then x.burnLc row else if k = 2 then x.burnRoot else { x with saved := none }) ?_
    (Sec.burnedFrom_marks _ row (2 ^ (k - 1)))
  split
  · exact x.burnedFrom_burnLc row
  · split
    · exact x.burnedFrom_burnRoot
    · exact (Sec.burnedFrom_set _)

theorem Sec.burnedFrom_resume (x : Sec) : x.resume.burnedFrom x := by
  unfold Sec.resume
  split
  · next row mark _ =>
    have hrow : (x.resumeRow row mark).burnedFrom x :=
      List.foldlRecOn _ _ (motive := fun y => Sec.burnedFrom y x) x.burnedFrom_refl
        fun y hy k _ => Sec.burnedFrom_trans hy (y.burnedFrom_resumeStep row k)
    exact Sec.burnedFrom_trans hrow (Sec.burnedFrom_set _)
  · exact (Sec.burnedFrom_set _)

/-- Only a blank row is burned with a root (R450, R486). -/
theorem Sec.burnedFrom_rows {x : Sec} {a b : RootRow} (ha : a = x.rowA ∨ x.rowA = rootBlank) (hb : b = x.rowB ∨ x.rowB = rootBlank) :
    Sec.burnedFrom { x with rowA := a, rowB := b } x := by
  refine ⟨Nat.le_refl _, Nat.le_refl _, Nat.le_refl _, ?_, ?_, rfl, fun _ _ h => h⟩
  · rcases ha with rfl | ha
    · exact rowKept_refl _
    · rw [ha]
      exact rowKept_blank _
  · rcases hb with rfl | hb
    · exact rowKept_refl _
    · rw [hb]
      exact rowKept_blank _

theorem Sec.burnedFrom_makeRoot (x : Sec) (env : StartEnv) : (x.makeRoot env).burnedFrom x := by
  unfold Sec.makeRoot
  split
  · next hdue =>
    have hB : x.rowB = rootBlank := by
      simp only [Sec.rootDue, Bool.and_eq_true, beq_iff_eq] at hdue
      exact hdue.1.2
    dsimp only
    split
    · next hA =>
      split
      · exact Sec.burnedFrom_rows (.inr hA) (.inl rfl)
      · exact Sec.burnedFrom_rows (.inr hA) (.inl rfl)
      · exact Sec.burnedFrom_rows (.inr hA) (.inr hB)
    · split
      · exact Sec.burnedFrom_rows (.inl rfl) (.inr hB)
      · exact Sec.burnedFrom_rows (.inl rfl) (.inr hB)
  · exact x.burnedFrom_refl

theorem Sec.burnedFrom_begin (x : Sec) (env : StartEnv) (serial : BitVec 128) : (x.begin_ env serial).burnedFrom x :=
  Sec.burnedFrom_trans (Sec.burnedFrom_trans x.burnedFrom_resume (Sec.burnedFrom_makeRoot _ env)) (Sec.burnedFrom_set _)

/-- The dump region alone keeps its lines (R537). -/
theorem Steady.cleared (h : Steady s₀ s) : Steady s₀ s.cleared :=
  ⟨h.pending, Sec.burnedFrom_trans h.fuses (Sec.burnedFrom_set _), fun w => Tab.wf_filter _ (h.lines w)⟩

theorem Steady.powerLoss (h : Steady s₀ s) : Steady s₀ (powerLoss s) :=
  ⟨h.pending, Sec.burnedFrom_trans h.fuses (Sec.burnedFrom_set _), fun _ => rfl⟩

/-- The state once the island has done its work on the fuses, the key store and the root (R531, R589). -/
def State.begun (s : State) (env : StartEnv) (cause : ℕ) : State :=
  let t := ((s.autoDump cause).sendNotices).cleared
  let sec := t.sec.begin_ env t.chip.serial
  { t with
    sec := sec, net := { t.net with own := env.node % 512 }
    log := { t.log.renumber (sec.lc != s.sec.lc) with flash := if t.sec.erases then 0 else t.log.flash }
    chip := { t.chip with islandOk := env.selfTest, attempts := max 1 (min 3 env.attempts) } }

/-- The state with the image that runs, its cores loaded and the board's record applied (R461, R586, R580). -/
def State.imaged (s : State) (env : StartEnv) (image : ImageSlot) (signed_ : Bool) : State :=
  let t := { s with
    sec := { s.sec with signed := signed_, measured := some (image.hash, signed_, s.sec.measureMac image.hash signed_) }
    chip := { s.chip with build := image.build, version := image.security, commit := image.commit } }
  (t.loadCores env.coreWords).startBoard env

theorem chipReset_of_none {env : StartEnv} (h : s.chip.pending = none) : chipReset env s = s := by
  unfold chipReset
  rw [h]

theorem chipReset_of_due {env : StartEnv} {cause unit : ℕ} (h : s.chip.pending = some (cause, unit)) :
    chipReset env s =
      if s.cleared.sec.rootLost env then powerLoss (s.begun env cause)
      else match (s.begun env cause).sec.chooseImage env.imageA env.imageB with
      | none => if (s.begun env cause).sec.lc = .scrap then (s.begun env cause).stopStart (cause, unit) 0 0 false
          else (s.begun env cause).stopStart (cause, unit) 0 0xF0 true
      | some (image, signed_) =>
        let t := (s.begun env cause).imaged env image signed_
        match env.failUnit with
        | some u => ({ t with chip := { t.chip with attempts := 3 } } : State).stopStart (cause, unit) 2 u true
        | none => t.startMemory env cause unit (t.badTrim env) := by
  unfold chipReset
  rw [h]
  rfl

theorem Steady.begun {env : StartEnv} {cause : ℕ} (h : Steady s₀ s) : Steady s₀ (s.begun env cause) := by
  have hclear : Steady s₀ ((s.autoDump cause).sendNotices).cleared := Steady.cleared (h.then (Keeps.refl s).autoDump.sendNotices)
  exact ⟨hclear.pending, Sec.burnedFrom_trans hclear.fuses (Sec.burnedFrom_begin _ env _), hclear.lines⟩

theorem Keeps.imaged {env : StartEnv} {image : ImageSlot} {signed_ : Bool} (h : Keeps s₀ s) : Keeps s₀ (s.imaged env image signed_) :=
  Keeps.startBoard (Keeps.loadCores (h.setSec (Sec.burnedFrom_set _)))

theorem Steady.chipReset {env : StartEnv} (h : Steady s₀ s) : Steady s₀ (chipReset env s) := by
  cases hp : s.chip.pending with
  | none =>
    rw [chipReset_of_none hp]
    exact h
  | some x =>
    have hb := h.begun (env := env) (cause := x.1)
    rw [chipReset_of_due hp]
    split
    · exact hb.powerLoss
    · split
      · split
        · exact hb.then (Keeps.refl _).stopStart
        · exact hb.then (Keeps.refl _).stopStart
      · dsimp only
        split
        · exact hb.then (Keeps.stopStart (Keeps.set (Keeps.refl _).imaged))
        · exact hb.then (Keeps.refl _).imaged.startMemory

/-- Every command answers a next state, with the queue, the fuses and the form of the lines kept. -/
theorem exec_steady (i : Instr) (s : State) : ∃ t, exec i s = .next t ∧ Steady s t := by
  have h := Steady.refl s
  have live : ∀ f : State → State, Steady s (f s) → Steady s (s.live f) := fun f hf => State.live_inv s (Steady s) f h hf
  cases hi : i.movesCounter with
  | false =>
    obtain ⟨t, e, ht⟩ := exec_keeps hi s
    exact ⟨t, e, ht.toSteady⟩
  | true =>
    cases i with
    | frameBoundary env => exact ⟨_, rfl, live _ h.frameBoundary⟩
    | markerWord src w lag inverted => exact ⟨_, rfl, live _ h.markerWord⟩
    | acquireTimeout => exact ⟨_, rfl, live _ h.acquireTimeout⟩
    | slewAdjust => exact ⟨_, rfl, live _ h.slewAdjust⟩
    | chipReset env =>
      refine ⟨_, rfl, ?_⟩
      split
      · exact h.chipReset
      · exact h
    | powerLoss =>
      refine ⟨_, rfl, ?_⟩
      split
      · exact h.powerLoss
      · exact h
    | _ => cases hi

/-- What every step keeps but the queue. -/
theorem step_keeps (h : step s = .next t) : t.sec.burnedFrom s.sec ∧ (s.linesWf = true → t.linesWf = true) := by
  unfold step at h
  split at h
  · injection h with h
    rw [← h]
    exact ⟨(Steady.refl s).idle.fuses, (Steady.refl s).idle.lines⟩
  · next c rest _ =>
    obtain ⟨u, e, hu⟩ := exec_steady c { s with pending := rest }
    rw [e] at h
    injection h with h
    rw [← h]
    exact ⟨hu.fuses, hu.lines⟩

/-! ### The counter -/

theorem State.checkResync_tick (s : State) : s.checkResync.beat.tick = s.beat.tick := (Keeps.refl s).checkResync.tick

theorem toNat_le_add {x : W64} {n : ℕ} (hn : n ≤ 2) (h : x.toNat + 2 < 2 ^ 64) : x.toNat ≤ (x + BitVec.ofNat 64 n).toNat := by
  rw [BitVec.toNat_add, BitVec.toNat_ofNat]
  omega

theorem slewAdjust_tick_le (h : s.beat.tick.toNat + 2 < 2 ^ 64) : s.beat.tick.toNat ≤ (slewAdjust s).beat.tick.toNat := by
  unfold slewAdjust
  split
  · exact Nat.le_refl _
  · rw [State.checkResync_tick]
    split
    · exact toNat_le_add (n := 1) (by omega) h
    · exact toNat_le_add (n := 2) (by omega) h

theorem State.idle_tick_le (h : s.beat.tick.toNat + 2 < 2 ^ 64) : s.beat.tick.toNat ≤ s.idle.beat.tick.toNat := by
  unfold State.idle
  dsimp only
  split
  · exact Nat.le_refl _
  · split
    · split <;> exact Nat.le_refl _
    · split
      · exact slewAdjust_tick_le h
      · split
        · exact Nat.le_refl _
        · exact toNat_le_add (n := 1) (by omega) h

/-- The counter runs to its next boundary (R84). -/
theorem State.runTo_tick (n : ℕ) : (s.runTo n).beat.tick = BitVec.ofNat 64 n := by
  unfold State.runTo
  dsimp only
  split <;> rfl

theorem State.stepTo_tick (land : ℕ) (err : ℤ) : (s.stepTo land err).beat.tick = BitVec.ofNat 64 land := by
  unfold State.stepTo
  dsimp only
  split <;> rfl

theorem State.runBoundary_tick (env : FrameEnv) : (s.runBoundary env).beat.tick = s.beat.tick := (Keeps.refl s).runBoundary.tick

theorem State.nextBoundary_bounds (s : State) : s.beat.tick.toNat ≤ s.nextBoundary ∧ s.nextBoundary ≤ s.beat.tick.toNat + 8192 := by
  unfold State.nextBoundary State.frame
  omega

/-- A step forward lands no earlier than the boundary that it steps from, and within the error (R84). -/
theorem landing_bounds (n : ℕ) {err : ℤ} (he : err < -(4 * 8192)) :
    n - 8192 ≤ (4 * (n : ℤ) - err).toNat / 4 / 8192 * 8192 ∧ n ≤ (4 * (n : ℤ) - err).toNat / 4 / 8192 * 8192 ∧
      (4 * (n : ℤ) - err).toNat / 4 / 8192 * 8192 ≤ n + err.natAbs := by
  omega

theorem frameBoundary_tick_le {env : FrameEnv} (h : s.beat.tick.toNat + s.beat.err.natAbs + 16384 < 2 ^ 64) :
    s.beat.tick.toNat ≤ (frameBoundary env s).beat.tick.toNat := by
  have hnext := s.nextBoundary_bounds
  unfold frameBoundary
  dsimp only
  split
  · exact Nat.le_refl _
  · split
    · rw [State.runBoundary_tick]
      exact Nat.le_refl _
    · split
      · next he =>
        have hland := landing_bounds s.nextBoundary he.2
        rw [State.checkResync_tick, State.runBoundary_tick, State.stepTo_tick, BitVec.toNat_ofNat]
        change _ ≤ (4 * (s.nextBoundary : ℤ) - s.beat.err).toNat / 4 / 8192 * 8192 % 2 ^ 64
        omega
      · split
        · change _ ≤ (BitVec.ofNat 64 s.nextBoundary).toNat
          rw [BitVec.toNat_ofNat]
          omega
        · rw [State.checkResync_tick, State.runBoundary_tick, State.runTo_tick, BitVec.toNat_ofNat]
          change _ ≤ s.nextBoundary % 2 ^ 64
          omega

/-! ### A start leaves Plumb in ACQUIRE -/

theorem State.setCode_beat (n code : ℕ) : (s.setCode n code).beat = s.beat := rfl

theorem State.startBoard_plumb (env : StartEnv) : (s.startBoard env).beat.plumb = s.beat.plumb := by
  unfold State.startBoard
  dsimp only
  rw [State.foldl_keeps (fun t => t.beat.plumb)]
  intro t x
  split <;> rfl

theorem State.loadCores_beat (l : List (ℕ × ℕ × W32)) : (s.loadCores l).beat = s.beat := by
  unfold State.loadCores
  rw [State.foldl_keeps State.beat]
  exact fun _ _ => rfl

theorem State.imaged_plumb (env : StartEnv) (image : ImageSlot) (signed_ : Bool) :
    (s.imaged env image signed_).beat.plumb = s.beat.plumb := by
  unfold State.imaged
  rw [State.startBoard_plumb, State.loadCores_beat]

theorem State.startMemory_beat (env : StartEnv) (cause unit : ℕ) (bad : Option ℕ) : (s.startMemory env cause unit bad).beat = s.beat := by
  unfold State.startMemory
  dsimp only
  split <;> rfl

theorem chipReset_plumb {env : StartEnv} {x : ℕ × ℕ} (h : s.chip.pending = some x) : (chipReset env s).beat.plumb = .acquire := by
  rw [chipReset_of_due h]
  split
  · rfl
  · split
    · split <;> rfl
    · dsimp only
      split
      · exact State.imaged_plumb ..
      · rw [State.startMemory_beat]
        exact State.imaged_plumb ..

/-- Outside ACQUIRE no command moves the counter back. -/
theorem exec_tick_le {i : Instr} (h : exec i s = .next t) (hs : s.beat.plumb ≠ .acquire) (ht : t.beat.plumb ≠ .acquire)
    (hb : s.beat.tick.toNat + s.beat.err.natAbs + 16384 < 2 ^ 64) : s.beat.tick.toNat ≤ t.beat.tick.toNat := by
  have live : ∀ f : State → State, s.beat.tick.toNat ≤ (f s).beat.tick.toNat → s.beat.tick.toNat ≤ (s.live f).beat.tick.toNat :=
    fun f hf => State.live_inv s (fun u => s.beat.tick.toNat ≤ u.beat.tick.toNat) f (Nat.le_refl _) hf
  cases hi : i.movesCounter with
  | false =>
    obtain ⟨u, e, hu⟩ := exec_keeps hi s
    rw [e] at h
    injection h with h
    rw [← h, hu.tick]
  | true =>
    cases i with
    | frameBoundary env =>
      injection h with h
      exact h ▸ live _ (frameBoundary_tick_le hb)
    | markerWord src w lag inverted =>
      injection h with h
      exact h ▸ live _ (Nat.le_of_eq (congrArg BitVec.toNat ((Keeps.refl s).markerWord hs).tick.symm))
    | acquireTimeout =>
      injection h with h
      refine h ▸ live _ ?_
      unfold acquireTimeout
      rw [if_pos (.inl hs)]
    | slewAdjust =>
      injection h with h
      exact h ▸ live _ (slewAdjust_tick_le (by omega))
    | chipReset env =>
      injection h with h
      revert h
      split
      · cases hp : s.chip.pending with
        | none =>
          rw [chipReset_of_none hp]
          exact fun h => h ▸ Nat.le_refl _
        | some x => exact fun h => absurd (h ▸ chipReset_plumb hp) ht
      · exact fun h => h ▸ Nat.le_refl _
    | powerLoss =>
      injection h with h
      revert h
      split
      · exact fun h => absurd (h ▸ rfl) ht
      · exact fun h => h ▸ Nat.le_refl _
    | _ => cases hi

theorem step_tick_le (h : step s = .next t) (hs : s.beat.plumb ≠ .acquire) (ht : t.beat.plumb ≠ .acquire)
    (hb : s.beat.tick.toNat + s.beat.err.natAbs + 16384 < 2 ^ 64) : s.beat.tick.toNat ≤ t.beat.tick.toNat := by
  unfold step at h
  split at h
  · injection h with h
    exact h ▸ State.idle_tick_le (by omega)
  · next c rest _ => exact exec_tick_le (s := { s with pending := rest }) h hs ht hb

/-! ### A Lendor that does not serve -/

theorem State.bar_of_stopped (ha : s.alive = false) (f : State → State) : s.bar f = s := State.live_of_stopped ha _

/-- A Lendor that does not serve finds nothing to act on (R37, R491). -/
theorem exec_of_stopped {i : Instr} (hi : i.actsStopped = false) (ha : s.alive = false) : exec i s = .next s := by
  cases i with
  | chipReset _ | powerOn | powerLoss | bypass | idcode | samplePreload | mbxAccess _ _ _ | extest | intest | internalScan | memAccess _ _ _ | tapReset =>
    cases hi
  | mctpControl | getPdr | setEventReceiver => rfl
  | _ => exact congrArg _ (State.live_of_stopped ha _)

/-! ### The statements -/

/-- Settles O3: each command is one `State → State` behind its gate, which keeps the queue (`exec_steady`), and one that needs a Lendor that serves
does nothing without it (`exec_of_stopped`). -/
theorem everyCommandAnswers : Obligations.EveryCommandAnswers := by
  refine ⟨fun i s => ?_, fun i s hi ha => exec_of_stopped hi ha⟩
  obtain ⟨t, e, ht⟩ := exec_steady i s
  exact ⟨t, e, ht.pending⟩

/-- Settles O58: the fuses are written by BURN_STATE, DESTROY_ROOT and the marks of the other steps, the revocation level, the anti-rollback row and the
root of a start alone, and each of these burns on (`Sec.burnedFrom`, a preorder). -/
theorem fusesOnlyBurn : Obligations.FusesOnlyBurn := fun _ _ h => (step_keeps h).1

/-- Settles O59: outside ACQUIRE the counter is written by FRAME_BOUNDARY, SLEW_ADJUST and the idle tick alone, each of which moves it on. -/
theorem counterRunsForward : Obligations.CounterRunsForward := fun _ _ h hs ht hb => step_tick_le h hs ht hb

/-- Settles O60: lines are written by `put`, filters and one change of every entry, each of which keeps the canonical form. -/
theorem linesStayCanonical : Obligations.LinesStayCanonical := fun _ _ h => (step_keeps h).2

end Sys2Proof.Machine

/-! SUPPORT. The queue, the idle block and what power-on leaves. -/

namespace Sys2Proof.Machine

/-- Settles O1: the queue is not empty, so the step is the command at its front. -/
theorem stepRunsFront : Obligations.StepRunsFront := by
  intro s c rest h
  simp only [step, h]

/-- Plumb slews in RESYNC only, and in no hold. -/
theorem Beat.resync_of_slews {b : Beat} (h : b.slews = true) : b.plumb = .resync ∧ b.hold = false := by
  simp only [Beat.slews, Bool.and_eq_true, beq_iff_eq, Bool.not_eq_true'] at h
  exact h.1

theorem State.idle_of_not_alive {s : State} (h : s.alive = false) : s.idle = s := if_pos (Or.inl h)

theorem State.idle_of_run {s : State} (hold : s.beat.hold = false) (hplumb : s.beat.plumb ≠ .resync) :
    s.idle = s ∨ s.idle = s.modBeat fun b => { b with tick := b.tick + 1 } := by
  have hslews : ¬(s.beat.slews = true ∧ s.beat.tick.toNat % 1024 = 0x200) := fun h => hplumb (Beat.resync_of_slews h.1).1
  simp only [State.idle, hold, hslews, Bool.false_eq_true, if_false]
  split
  · exact .inl rfl
  · split
    · exact .inl rfl
    · exact .inr rfl

theorem State.idle_of_hold {s : State} (hold : s.beat.hold = true) :
    s.idle = s ∨ 4 ≤ s.beat.err ∧ s.idle = s.modBeat fun b => { b with err := b.err - 4 } := by
  simp only [State.idle, hold, if_true]
  split
  · exact .inl rfl
  · split
    · next h => exact .inr ⟨h, rfl⟩
    · exact .inl rfl

/-- Settles O2, by the branches of `idle`: while the block runs on its own, Plumb does not slew outside RESYNC. -/
theorem emptyQueueIdles : Obligations.EmptyQueueIdles := by
  intro s hs
  have hstep : step s = .next s.idle := by simp only [step, hs]
  refine ⟨s.idle, hstep, ?pending, State.idle_of_not_alive, fun hold hplumb => ?run, fun hold => ?hold⟩
  case pending => rw [(Steady.refl s).idle.pending, hs]
  case run =>
    obtain h | h := State.idle_of_run hold hplumb
    · rw [h]
      exact ⟨rfl, .inl rfl⟩
    · rw [h]
      exact ⟨rfl, .inr rfl⟩
  case hold =>
    obtain h | ⟨herr, h⟩ := State.idle_of_hold hold
    · rw [h]
      exact ⟨rfl, .inl rfl⟩
    · rw [h]
      exact ⟨rfl, .inr ⟨herr, rfl⟩⟩

/-- Settles O4: each table is empty after power-on and reads as its first value. -/
theorem resetState : Obligations.ResetState :=
  ⟨rfl, rfl, rfl, rfl, rfl, rfl, rfl, fun _ => rfl, rfl, rfl, fun _ => rfl, rfl⟩

end Sys2Proof.Machine

/-! SUPPORT. Writes of MB_DONE and MB_CTRL (O6). -/

namespace Sys2Proof.Machine

/-- What a write of MB_DONE makes of a slot (R56, R62): it frees a DONE slot whose bit is written. -/
def clearedSlot (v : W32) (n : Nat) (x : Slot) : Slot := if v.getLsbD n = true ∧ x.st = .done then { x with st := .free } else x

theorem clearedSlot_clearedSlot (v : W32) (n : Nat) (x : Slot) : clearedSlot v n (clearedSlot v n x) = clearedSlot v n x := by
  unfold clearedSlot
  by_cases h : v.getLsbD n = true ∧ x.st = .done
  · simp [h]
  · simp [h]

/-- A mailbox after a write of MB_DONE, by the slots that it has reached. -/
def Mbx.clearDone (v : W32) (b : Mbx) (n : Nat) : Mbx :=
  if v.getLsbD n ∧ (b.slotAt n).st = .done then b.modSlot n fun x => { x with st := .free } else b

theorem Mbx.slotAt_clearDone (v : W32) (b : Mbx) (n k : Nat) :
    (b.clearDone v n).slotAt k = if n = k then clearedSlot v k (b.slotAt k) else b.slotAt k := by
  unfold Mbx.clearDone clearedSlot
  by_cases hk : n = k
  · subst hk
    by_cases h : v.getLsbD n = true ∧ (b.slotAt n).st = .done
    · simp [h]
    · simp [h]
  · rw [if_neg hk]
    split
    · exact (Mbx.slotAt_modSlot ..).trans (if_neg hk)
    · rfl

theorem Mbx.slotAt_foldl_clearDone (v : W32) (l : List Nat) (b : Mbx) (k : Nat) :
    (l.foldl (Mbx.clearDone v) b).slotAt k = if k ∈ l then clearedSlot v k (b.slotAt k) else b.slotAt k := by
  induction l generalizing b with
  | nil => rfl
  | cons n l ih =>
    rw [List.foldl_cons, ih, Mbx.slotAt_clearDone]
    by_cases hn : n = k
    · simp [hn, clearedSlot_clearedSlot]
    · simp [hn, Ne.symm hn]

theorem mbDoneClear_of_open {s : State} {mb : Mailbox} (h : s.mbOpen mb = true) (v : W32) :
    mbDoneClear mb v s = s.modMb mb fun b => { (List.range 8).foldl (Mbx.clearDone v) b with done := b.done &&& ~~~(v.setWidth 8) } := by
  simp only [mbDoneClear, h, Bool.true_eq_false, if_false]
  rfl

/-- A write of MB_CTRL to a partition mailbox without `end_session`. -/
theorem writeCtrl_part {s : State} {n : Nat} {v : W32} (h : s.mbOpen (.part n) = true) (hv : v.getLsbD 1 = false) :
    writeCtrl (.part n) v s =
      (s.modMb (.part n) fun b => { b with irqEn := v.getLsbD 0 }).modMb (.part n) (
        if (s.partAt n).st ≠ .free ∧ (s.partAt n).record.hasVector (v.toNat / 65536 % 4096) = true
        then fun b => { b with vector := BitVec.ofNat 12 (v.toNat / 65536 % 4096) } else fun b => { b with badVector := true }) := by
  simp only [writeCtrl, h, hv, Bool.true_eq_false, Bool.false_eq_true, if_false, Bool.and_eq_true, bne_iff_ne]
  split
  · rfl
  · rfl

/-- A write of MB_CTRL changes the mailbox's control bits alone before it ends the session. -/
theorem writeCtrl_of_end {s : State} {mb : Mailbox} {v : W32} (h : s.mbOpen mb = true) (hv : v.getLsbD 1 = true) :
    ∃ u : State, writeCtrl mb v s = u.endSession mb false ∧ u = { s with box := { s.box with mbx := u.box.mbx } } ∧
      (u.mbAt mb).open_ = (s.mbAt mb).open_ ∧ (u.mbAt mb).irqEn = v.getLsbD 0 ∧ (u.mbAt mb).slots = (s.mbAt mb).slots := by
  simp only [writeCtrl, h, hv, Bool.true_eq_false, if_false, if_true]
  split
  · split
    · exact ⟨_, rfl, rfl, by simp, by simp, by simp⟩
    · exact ⟨_, rfl, rfl, by simp, by simp, by simp⟩
  · exact ⟨_, rfl, rfl, by simp, by simp, by simp⟩

theorem State.endSession_of_open {s : State} {mb : Mailbox} (h : (s.mbAt mb).open_ = true) (byLendor : Bool) :
    s.endSession mb byLendor = s.modMb mb fun b =>
      { b with
        open_ := false, staged := [], queue := [], ended := b.ended || byLendor
        slots := b.slots.mapAll Slot.init fun _ x => if x.st = .submitted then { x with st := .free } else x } :=
  if_neg (by rw [h]; decide)

/-- Settles O6. MB_DONE frees the written DONE slots one by one (`Mbx.slotAt_foldl_clearDone`); MB_CTRL writes its fields and then ends the session. -/
theorem doneClearAndControl : Obligations.DoneClearAndControl := by
  refine ⟨fun s mb v hr ho => ?done, fun s n v hr ho hv => ?vector, fun s mb v hr ho hv hopen hwf => ?ends⟩
  case done =>
    refine ⟨_, congrArg Host.Outcome.next ((State.bar_of_reaches hr _).trans (mbDoneClear_of_open ho v)), rfl, fun n hn => ?_, fun n hn => ?_⟩
    · rw [State.mbAt_modMb_self]
      simp [hn]
    · rw [State.mbAt_modMb_self]
      exact (Mbx.slotAt_foldl_clearDone v _ _ n).trans (if_pos (List.mem_range.2 hn))
  case vector =>
    have hw : exec (.vectorWrite (.part n) v) s = _ := congrArg Host.Outcome.next ((State.bar_of_reaches hr _).trans (writeCtrl_part ho hv))
    exact ⟨fun hheld => by rw [hw, if_pos hheld], fun hheld => by rw [hw, if_neg hheld]⟩
  case ends =>
    obtain ⟨u, hw, hu, huo, hui, hus⟩ := writeCtrl_of_end ho hv
    have he := State.endSession_of_open (huo.trans hopen) false
    refine ⟨_, congrArg Host.Outcome.next ((State.bar_of_reaches hr _).trans (hw.trans he)), ?_, ?_⟩
    · conv_lhs => rw [hu]
      rfl
    · rw [State.mbAt_modMb_self]
      refine ⟨rfl, rfl, rfl, hui, fun n => ?_⟩
      simp only [Mbx.slotAt, hus]
      exact Tab.get_mapAll _ n rfl hwf

end Sys2Proof.Machine

/-! SUPPORT. Host writes to the registers of the window and of the telemetry pages (O7). -/

namespace Sys2Proof.Machine

/-- A 32-bit write that is not aligned changes nothing in a mailbox page. -/
theorem writeWindow_unaligned {n o : Nat} (hn : n < 67) (ho : o < 4096) (h4 : o % 4 ≠ 0) (v : W32) (s : State) :
    writeWindow (4096 * (1 + n) + o) v s = s := by
  obtain ⟨mb, hp, -⟩ := exists_pageMailbox hn
  have hpage : (4096 * (1 + n) + o) / 4096 = 1 + n := by omega
  have hoff : (4096 * (1 + n) + o) % 4096 = o := by omega
  unfold writeWindow
  rw [if_neg (by omega), hpage, hp]
  simp only [hoff, if_pos h4]

/-- No offset of the mailbox page but those of its registers and of the words of its request areas takes a write. -/
theorem writeWindow_noRegister {n o : Nat} (hn : n < 67) (ho : o < 4096) (hreg : o ≠ 0 ∧ o ≠ 4 ∧ o ≠ 12 ∧ o ≠ 16)
    (harea : ∀ slot word, slot < 8 → word < 64 → o ≠ 0x200 + 0x1C0 * slot + 4 * word) (v : W32) (s : State) :
    writeWindow (4096 * (1 + n) + o) v s = s := by
  by_cases h4 : o % 4 = 0
  · refine writeWindow_ignored hn ho hreg (fun hlo => ?_) v s
    by_contra hin
    exact harea ((o - 0x200) / 0x1C0) ((o - 0x200) % 0x1C0 / 4) (by omega) (by omega) (by omega)
  · exact writeWindow_unaligned hn ho h4 v s

/-- No mailbox has a page between the mailbox pages and the telemetry window. -/
theorem writeWindow_noPage {o : Nat} (hlo : 4096 * 68 ≤ o) (hhi : o < 0x100000) (v : W32) (s : State) : writeWindow o v s = s := by
  have hp : pageMailbox (o / 4096) = none := by
    cases h : pageMailbox (o / 4096) with
    | none => rfl
    | some mb =>
      have := le_of_pageMailbox h
      omega
  unfold writeWindow
  rw [if_neg (by omega), hp]

/-- A write of MB_ERR (R57). -/
theorem writeWindow_mbErr {n : Nat} {mb : Mailbox} {s : State} (hp : pageMailbox (1 + n) = some mb) (ho : s.mbOpen mb = true) (v : W32) :
    writeWindow (4096 * (1 + n) + 16) v s = s.modMb mb fun b => { b with
      badSubmit := b.badSubmit && !v.getLsbD 0, dropped := b.dropped && !v.getLsbD 1
      badVector := b.badVector && !v.getLsbD 2, ended := b.ended && !v.getLsbD 3 } := by
  have hle := le_of_pageMailbox hp
  have hpage : (4096 * (1 + n) + 16) / 4096 = 1 + n := by omega
  have hoff : (4096 * (1 + n) + 16) % 4096 = 16 := by omega
  unfold writeWindow
  rw [if_neg (by omega), hpage, hp]
  simp [hoff, ho]

/-! ### The selected contexts of a telemetry page (R553) -/

theorem ctxWinSel_of_open {s : State} {p w : Nat} (hopen : s.chip.opened = true) (hp : p < 64) (hw : w < 8) (v : W32) :
    ctxWinSel p w v s = s.modWin p w fun x => { x with shadow := v.toNat % 65536 } :=
  if_neg (by simp [hopen]; omega)

theorem ctxWinCtl_of_open {s : State} {p w : Nat} (hopen : s.chip.opened = true) (hp : p < 64) (hw : w < 8) (v : W32) :
    ctxWinCtl p w v s = s.modWin p w fun x => { x with next := some (x.shadow, v.getLsbD 0, v.toNat / 256 % 256) } :=
  if_neg (by simp [hopen]; omega)

theorem writeWindow_telemetry (x : Nat) (v : W32) (s : State) : writeWindow (0x100000 + x) v s = writeTelemetry x v s := by
  unfold writeWindow
  rw [if_pos (Nat.le_add_right ..), Nat.add_sub_cancel_left]

theorem writeTelemetry_ctxWinSel {w : Nat} (p : Nat) (hw : w < 8) (v : W32) (s : State) :
    writeTelemetry (4096 * p + (0x300 + 256 * w)) v s = ctxWinSel p w v s := by
  have hpage : (4096 * p + (0x300 + 256 * w)) / 4096 = p := by omega
  have hoff : (4096 * p + (0x300 + 256 * w)) % 4096 = 0x300 + 256 * w := by omega
  have hwin : (0x300 + 256 * w - 0x300) / 0x100 = w := by omega
  unfold writeTelemetry
  simp only [hpage, hoff, hwin]
  rw [if_neg (by omega), if_pos (by omega)]

theorem writeTelemetry_ctxWinCtl {w : Nat} (p : Nat) (hw : w < 8) (v : W32) (s : State) :
    writeTelemetry (4096 * p + (0x304 + 256 * w)) v s = ctxWinCtl p w v s := by
  have hpage : (4096 * p + (0x304 + 256 * w)) / 4096 = p := by omega
  have hoff : (4096 * p + (0x304 + 256 * w)) % 4096 = 0x304 + 256 * w := by omega
  have hwin : (0x304 + 256 * w - 0x300) / 0x100 = w := by omega
  unfold writeTelemetry
  simp only [hpage, hoff, hwin]
  rw [if_neg (by omega), if_neg (by omega), if_pos (by omega)]

/-- Settles O7, by the place of the offset in the window: page 0, a mailbox page, between them and the telemetry pages, and a window of a telemetry page. -/
theorem registerWrites : Obligations.RegisterWrites := by
  refine ⟨fun s o w v hw => ?width, fun s o v ho => ?noPage, fun s n o v hn ho h0 h4 h12 h16 harea => ?noRegister,
    fun s n mb v hp hr ho => ?mbErr, fun s p w v hr hopen hp hw => ?windows⟩
  case width =>
    change Host.Outcome.next (s.bar fun s => if w = 32 then writeWindow o v s else s) = _
    simp [hw, State.bar, State.live]
  case noPage =>
    refine exec_registerWrite_of_ignored (fun s => ?_) s
    obtain ho | ⟨hlo, hhi⟩ := ho
    · exact writeWindow_idPage ho v s
    · exact writeWindow_noPage hlo hhi v s
  case noRegister => exact exec_registerWrite_of_ignored (writeWindow_noRegister hn ho ⟨h0, h4, h12, h16⟩ harea v) s
  case mbErr => rw [exec_registerWrite, State.bar_of_reaches hr, writeWindow_mbErr hp ho]
  case windows =>
    have hsel := ctxWinSel_of_open hopen hp hw v
    have hctl := ctxWinCtl_of_open hopen hp hw v
    refine ⟨congrArg Host.Outcome.next ((State.bar_of_reaches hr _).trans hsel), ?_,
      congrArg Host.Outcome.next ((State.bar_of_reaches hr _).trans hctl), ?_⟩
    · rw [exec_registerWrite, State.bar_of_reaches hr, Nat.add_assoc, Nat.add_assoc, writeWindow_telemetry, writeTelemetry_ctxWinSel p hw, hsel]
    · rw [exec_registerWrite, State.bar_of_reaches hr, Nat.add_assoc, Nat.add_assoc, writeWindow_telemetry, writeTelemetry_ctxWinCtl p hw, hctl]

end Sys2Proof.Machine

/-! SUPPORT. Every mailbox command goes through Hawk's take, and the first failure of its own checks decides (O11). -/

namespace Sys2Proof.Machine

/-- A command that fails one of checks 1 to 7 is turned away, whichever of the rows of its opcode takes it. -/
theorem State.live_hawk_of_fails {s : State} {k : Take} {ref : SlotRef} {st : Status} {d : Nat} (ha : s.alive = true) (hcore : s.coreStopped 0 = false)
    (hhead : s.headRef k.mb = some ref)
    (hfail : (s.takeSlot ref).checks k.mb ((s.mbAt k.mb).slotAt ref.slot).req k.host = some (st, d)) (mine : Cmd → Bool) (run : Cmd → State → State) :
    s.live (hawk (reqOpcode ((s.mbAt k.mb).slotAt ref.slot).req) mine k run) =
      (s.takeSlot ref).turnAway ref (reqOpcode ((s.mbAt k.mb).slotAt ref.slot).req) st d := by
  rw [State.live_of_alive ha]
  simp [hawk, hhead, hcore, hfail]

/-- What a mailbox command runs once it is taken: the first failing check of the owning chapter is its answer. -/
def Instr.Runs (i : Instr) (k : Take) (op : Nat) (run : Cmd → State → State) : Prop :=
  (∀ s, exec i s = .next (s.live (hawk op i.mine k run))) ∧
  ∀ c u st d, firstFail (i.ownChecks c u) = some (st, d) → run c u = u.reject c st d

theorem Instr.Runs.of_unchecked {i : Instr} {k : Take} {op : Nat} {run : Cmd → State → State}
    (he : ∀ s, exec i s = .next (s.live (hawk op i.mine k run))) (hl : ∀ c u, i.ownChecks c u = []) : Instr.Runs i k op run :=
  ⟨he, fun c u st d h => by rw [hl] at h; cases h⟩

theorem Instr.exists_runs {i : Instr} {k : Take} {op : Nat} (h : i.mailbox = some (k, op)) : ∃ run, Instr.Runs i k op run := by
  cases i with
  | hello _ | goodbye _ | ping _ | beatStatus _ | peerOffsets _ | dbgResponse _ _ | breakSet _ | breakClear _ | breakResume _ | breakQuery _
  | boardStatus _ =>
    cases h
    exact ⟨_, .of_unchecked (fun _ => rfl) fun _ _ => rfl⟩
  | partCommit _ | partDestroy _ | spanSet _ | regSet _ | wfgRead _ | migrateMode _ | rangeSet _ | dbgCertClear _ | dbgChallenge _ _
  | dirtyLogFlip _ | dirtyLogStop _ | partReset _ | digestSet _ | traceSet _ =>
    cases h
    exact ⟨_, fun _ => rfl, fun _ _ _ _ hf => State.checked_of_fails hf _⟩
  | partCreate _ | partStage _ | partQuery _ | ctxCreate _ | ctxDestroy _ | ringBind _ | ringUnbind _ | ctxQuery _ | schedSet _ | schedQuery _
  | regQuery _ | cbgSet _ | baseLoad _ | baseSwap _ | seqOpen _ | seqClose _ | kvReserveFill _ | kvReserveDrain _ | kvReserveSetWater _
  | seqQuery _ | fenceAlloc _ | fenceFree _ | fenceExport _ | fenceWithdraw _ | fenceImport _ | segSyncLoad _ _ | segSyncEntries _ _
  | segSyncUnload _ | segCheck _ _ | tlbInvalidate _ | maintStart _ | maintQuery _ | cohModeSet _ | pwrBudgetSet _ | pwrStateSet _ | keyDerive _
  | keyDestroy _ | lcTransition _ | dbgCertLoad _ _ | dbgCertRevoke _ | dirtyLogBegin _ | ctxRevoke _ | partResetConfig _ | dumpStart _
  | logRead _ _ =>
    cases h
    refine ⟨_, fun _ => rfl, fun c u st d hf => ?_⟩
    dsimp only [runPartCreate, runPartStage, runPartQuery, runCtxCreate, runCtxDestroy, runRingBind, runRingUnbind, runCtxQuery, runSchedSet,
      runSchedQuery, runRegQuery, runCbgSet, runBaseLoad, runBaseSwap, runSeqOpen, runSeqClose, runKvFill, runKvDrain, runKvWater, runSeqQuery,
      runFenceAlloc, runFenceFree, runFenceExport, runFenceWithdraw, runFenceImport, runSegLoad, runSegEntries, runSegUnload, runSegCheck,
      runTlbInvalidate, runMaintStart, runMaintQuery, runCohModeSet, runPwrBudgetSet, runPwrStateSet, runKeyDerive, runKeyDestroy,
      runLcTransition, runDbgCertLoad, runDbgCertRevoke, runDirtyLogBegin, runCtxRevoke, runPartResetConfig, runDumpStart, runLogRead]
    exact State.checked_of_fails hf _
  | _ => cases h

/-- Settles O11, by what Hawk's take does with a request (`hawk`) and what each command runs (`Instr.exists_runs`). -/
theorem checksDecide : Obligations.ChecksDecide := by
  refine ⟨fun i k op s ref st d hi ha hcore hhead => ?common, fun i k op s c st d hi hc hmine hfail => ?own⟩
  case common =>
    intro req hop hfail
    obtain ⟨run, hexec, -⟩ := Instr.exists_runs hi
    subst hop
    rw [hexec, State.live_hawk_of_fails ha hcore hhead hfail]
  case own =>
    obtain ⟨run, hexec, hown⟩ := Instr.exists_runs hi
    unfold Refuses
    rw [hexec, State.live_hawk hc i.mine hmine run, hown c _ st d hfail]
    rfl

end Sys2Proof.Machine

/-! SUPPORT. What a response writes into its mailbox, and the commands of a session (O12). -/

namespace Sys2Proof.Machine

variable {s : State} {k : Take} {c : Cmd} {op : Nat}

/-! ### The mailbox that a response writes -/

/-- The space of a command is that of the request in its slot. -/
theorem State.serves_space (h : s.serves k op = some c) : c.space = respSpace (((s.mbAt c.ref.mb).slotAt c.ref.slot).req) := by
  rw [State.serves_mb h]
  unfold State.serves at h
  split at h
  · cases h
  · split at h
    · cases h
    · dsimp only at h
      split at h
      · injection h with h
        subst h
        rfl
      · cases h

theorem State.mbAt_of_box {s t : State} (h : t.box = s.box) (m : Mailbox) : t.mbAt m = s.mbAt m := congrArg (fun b : Box => b.mbx.get Mbx.init (mbNum m)) h

theorem State.mbAt_setDone_self (s : State) (m : Mailbox) (n : Nat) :
    (s.setDone m n).mbAt m = { s.mbAt m with done := (s.mbAt m).done ||| (1#8 <<< n) } := by
  rw [State.mbAt_of_box (State.setDone_box s m n), State.mbAt_modMb_self]

theorem State.mbAt_takeSlot (s : State) (r : SlotRef) : (s.takeSlot r).mbAt r.mb =
    { ((s.mbAt r.mb).modSlot r.slot fun x => { x with st := .running }) with queue := (s.mbAt r.mb).queue.drop 1 } :=
  State.mbAt_modMb_self s r.mb fun b => { (b.modSlot r.slot fun x => { x with st := .running }) with queue := b.queue.drop 1 }

/-- Only HELLO serves without a session. -/
theorem State.open_of_serves (h : s.serves k op = some c) (hop : op ≠ 1) : (s.mbAt c.ref.mb).open_ = true := by
  rw [State.serves_mb h]
  unfold State.serves at h
  split at h
  · cases h
  · split at h
    · cases h
    · next ref hr =>
      dsimp only at h
      split at h
      · next hc =>
        obtain ⟨hreq, hinfo, hchecks, -⟩ := hc
        obtain ⟨i, hi⟩ := Option.isSome_iff_exists.1 hinfo
        have hmb := State.headRef_mb hr
        subst hreq
        simp only [State.checks, hi] at hchecks
        have hfirst := passes_iff.1 hchecks _ (List.mem_cons_self ..)
        simp only [Bool.or_eq_true, beq_iff_eq, hop, or_false] at hfirst
        rw [← hmb] at hfirst ⊢
        rw [← hfirst, State.mbAt_takeSlot]
        rfl
      · cases h

/-- A response that fits writes its bytes to the host where the request asks for that, fills the response area and sets the `done` bit. -/
theorem State.respond_of_fits (s : State) (r : SlotRef) (st : Status) (d : Nat) {len : Nat} (pay : Nat) (sid : Option W32)
    (hfits : len ≤ respSpace ((s.mbAt r.mb).slotAt r.slot).req) : ∃ u : State, ∃ resp : Resp, u.box = s.box ∧
    s.respond r st d len pay sid =
      (u.modMb r.mb fun b => b.modSlot r.slot fun x => { x with resp := resp, st := if st = .deferred then .parked else .done }).setDone r.mb r.slot ∧
    resp.status = st ∧ resp.session = (sid.getD ((s.mbAt r.mb).slotAt r.slot).session).setWidth 8 := by
  unfold State.respond
  simp only [hfits, decide_true, if_true]
  refine ⟨_, _, ?_, rfl, rfl, rfl⟩
  split
  · rfl
  · rfl

/-- Its mailbox after a response that fits. -/
theorem State.mbAt_respond_self (s : State) (r : SlotRef) (st : Status) (d : Nat) {len : Nat} (pay : Nat) (sid : Option W32)
    (hfits : len ≤ respSpace ((s.mbAt r.mb).slotAt r.slot).req) : ∃ resp : Resp,
    (s.respond r st d len pay sid).mbAt r.mb =
      { (s.mbAt r.mb).modSlot r.slot (fun x => { x with resp := resp, st := if st = .deferred then .parked else .done }) with
        done := (s.mbAt r.mb).done ||| (1#8 <<< r.slot) } ∧
    resp.status = st ∧ resp.session = (sid.getD ((s.mbAt r.mb).slotAt r.slot).session).setWidth 8 := by
  obtain ⟨u, resp, hbox, h, hst, hsid⟩ := State.respond_of_fits s r st d pay sid hfits
  refine ⟨resp, ?_, hst, hsid⟩
  rw [h, State.mbAt_setDone_self, State.mbAt_modMb_self, State.mbAt_of_box hbox]
  rfl

/-! ### HELLO -/

/-- The state in which HELLO answers (R69): the session that was open has ended, the next one is open, and a record of it stands. -/
def State.sessionOpened (s : State) (c : Cmd) : State :=
  let t := (s.endSession c.ref.mb false).modMb c.ref.mb fun b => { b with
    open_ := true, minor := BitVec.ofNat 8 (min (c.f 2 0 8) 4), session := s.box.sessions + 1, caller := BitVec.ofNat 32 (c.f 4 0 32) }
  let t : State := { t with box := { t.box with sessions := s.box.sessions + 1 } }
  let t := t.logRec { kind := 0x0016, part := mbPart c.ref.mb, a := c.f 4 0 32, b := (s.box.sessions + 1).toNat, c := mbPage c.ref.mb }
  if c.ref.mb = .manager then t.burnVersion else t

theorem runHello_of_free (hz : c.zeros [(3, 0, 8), (8, 0, 64)] = true) (hrange : c.f 1 0 8 ≤ c.f 2 0 8) (hmajor : c.f 0 0 8 = 3) (hminor : c.f 1 0 8 ≤ 4)
    (hspace : 32 ≤ c.space)
    (hfree : (s.mbAt c.ref.mb).slots.all (fun e => e.1 == c.ref.slot || !(e.2.st == .running || e.2.st == .parked)) = true) : ∃ pay,
    runHello c s = (s.sessionOpened c).respond c.ref .ok 0 32 pay (some (s.box.sessions + 1)) := by
  have hbusy : ((s.mbAt c.ref.mb).slots.any fun e => e.1 != c.ref.slot && (e.2.st == .running || e.2.st == .parked)) = false := by
    rw [List.any_eq_false]
    intro e he
    have := List.all_eq_true.1 hfree e he
    grind
  refine ⟨pack (helloFields (s.sessionOpened c) c.ref.mb (min (c.f 2 0 8) 4) (s.box.sessions + 1) (s.sessionOpened c).nowFrame), ?_⟩
  unfold runHello
  simp only [hz, hbusy, hmajor, Bool.true_eq_false, Bool.false_eq_true, if_false, if_neg (Nat.not_lt.2 hrange), if_neg (Nat.not_lt.2 hspace),
    Nat.not_lt.2 hminor, ne_eq, not_true, or_self]
  rfl

theorem State.burnVersion_frame (s : State) : s.burnVersion = { s with sec := s.burnVersion.sec } := by
  unfold State.burnVersion
  split
  · rfl
  · rfl

theorem State.endSession_frame (s : State) (m : Mailbox) (byLendor : Bool) :
    s.endSession m byLendor = { s with box := { s.box with mbx := (s.endSession m byLendor).box.mbx } } := by
  unfold State.endSession
  split
  · rfl
  · rfl

/-- What HELLO leaves alone. -/
structure State.OnlySession (s t : State) (m : Mailbox) : Prop where
  org : t.org = s.org
  ten : t.ten = s.ten
  mem : t.mem = s.mem
  beat : t.beat = s.beat
  sec : m ≠ .manager → t.sec = s.sec

theorem State.sessionOpened_only (s : State) (c : Cmd) : s.OnlySession (s.sessionOpened c) c.ref.mb := by
  unfold State.sessionOpened
  rw [State.endSession_frame]
  dsimp only
  split
  next h =>
    rw [State.burnVersion_frame]
    exact ⟨rfl, rfl, rfl, rfl, fun hm => absurd h hm⟩
  next => exact ⟨rfl, rfl, rfl, rfl, fun _ => rfl⟩

theorem State.sessionOpened_next (s : State) (c : Cmd) : (s.sessionOpened c).log.next = s.log.next + 1 := by
  unfold State.sessionOpened
  rw [State.endSession_frame]
  dsimp only
  split
  · rw [State.burnVersion_frame]
    rfl
  · rfl

theorem State.sessionOpened_sessions (s : State) (c : Cmd) : (s.sessionOpened c).box.sessions = s.box.sessions + 1 := by
  unfold State.sessionOpened
  dsimp only
  split
  · rw [State.burnVersion_frame]
    rfl
  · rfl

theorem State.mbAt_sessionOpened (s : State) (c : Cmd) :
    (s.sessionOpened c).mbAt c.ref.mb = { (s.endSession c.ref.mb false).mbAt c.ref.mb with
      open_ := true, minor := BitVec.ofNat 8 (min (c.f 2 0 8) 4), session := s.box.sessions + 1, caller := BitVec.ofNat 32 (c.f 4 0 32) } := by
  have h := State.mbAt_modMb_self (s.endSession c.ref.mb false) c.ref.mb fun b => { b with
    open_ := true, minor := BitVec.ofNat 8 (min (c.f 2 0 8) 4), session := s.box.sessions + 1, caller := BitVec.ofNat 32 (c.f 4 0 32) }
  unfold State.sessionOpened
  dsimp only
  split
  · rw [State.burnVersion_frame]
    exact h
  · exact h

/-- What a key that was written reads as after a change of every entry. -/
theorem Tab.get_mapAll_insert {α : Type} [DecidableEq α] {d v : α} {f : Nat → α → α} {n : Nat} {t : Tab α} (ht : ∀ e ∈ t, e.1 ≠ n) (hf : f n v ≠ d) :
    ((Tab.insert n v t).mapAll d f).get d n = f n v := by
  induction t with
  | nil => simp [Tab.insert, Tab.mapAll, hf, Tab.get]
  | cons e t ih =>
    obtain ⟨k, w⟩ := e
    have hk : k ≠ n := ht (k, w) (by simp)
    have ih' := ih fun e he => ht e (by simp [he])
    unfold Tab.insert
    split
    · simp [Tab.mapAll, hf, Tab.get]
    · by_cases hw : f k w = d
      · simpa [Tab.mapAll, hw] using ih'
      · simpa [Tab.mapAll, hw, Tab.get, hk] using ih'

theorem Tab.get_mapAll_upd {α : Type} [DecidableEq α] {d : α} {t : Tab α} {f : Nat → α → α} {g : α → α} {n : Nat} (hg : g (t.get d n) ≠ d)
    (hf : f n (g (t.get d n)) ≠ d) : ((t.upd d n g).mapAll d f).get d n = f n (g (t.get d n)) := by
  rw [Tab.upd, Tab.put, if_neg hg]
  exact Tab.get_mapAll_insert (fun e he => (Tab.mem_drop.1 he).2) hf

/-- The end of a session leaves a slot that was taken as it is. -/
theorem State.slotAt_endSession_takeSlot (s : State) (r : SlotRef) (byLendor : Bool) :
    (((s.takeSlot r).endSession r.mb byLendor).mbAt r.mb).slotAt r.slot = { (s.mbAt r.mb).slotAt r.slot with st := .running } := by
  have hne : ({ (s.mbAt r.mb).slotAt r.slot with st := .running } : Slot) ≠ Slot.init := fun h => by
    have hst : SlotState.running = SlotState.free := congrArg Slot.st h
    cases hst
  by_cases ho : ((s.takeSlot r).mbAt r.mb).open_ = true
  · rw [State.endSession_of_open ho, State.mbAt_modMb_self, State.mbAt_takeSlot]
    exact Tab.get_mapAll_upd (g := fun x : Slot => { x with st := .running }) (f := fun _ (x : Slot) => if x.st = .submitted then { x with st := .free } else x) hne hne
  · rw [show (s.takeSlot r).endSession r.mb byLendor = s.takeSlot r from if_pos (Bool.eq_false_iff.2 ho), State.mbAt_takeSlot]
    exact Mbx.slotAt_modSlot_self (s.mbAt r.mb) r.slot fun x => { x with st := .running }

/-- Where a session was open, its end frees the slots that were SUBMITTED. -/
theorem State.slotAt_endSession_of_submitted {r : SlotRef} {n : Nat} (byLendor : Bool) (ho : (s.mbAt r.mb).open_ = true)
    (hwf : Tab.wf Slot.init (s.mbAt r.mb).slots = true) (hn : n ≠ r.slot) (hst : ((s.mbAt r.mb).slotAt n).st = .submitted) :
    ((((s.takeSlot r).endSession r.mb byLendor).mbAt r.mb).slotAt n).st = .free := by
  have hn' : (((s.mbAt r.mb).modSlot r.slot fun x => { x with st := .running }).slotAt n).st = .submitted := by
    rw [Mbx.slotAt_modSlot, if_neg hn.symm, hst]
  rw [State.endSession_of_open (by rw [State.mbAt_takeSlot]; exact ho), State.mbAt_modMb_self, State.mbAt_takeSlot]
  have hget := Tab.get_mapAll (fun _ x => if x.st = .submitted then { x with st := .free } else x) n (d := Slot.init) rfl
    (Tab.wf_upd r.slot (fun x => { x with st := .running }) hwf)
  refine (congrArg Slot.st hget).trans ?_
  exact congrArg Slot.st (if_pos hn')

/-- HELLO that is accepted leaves a session, and a response in its slot. -/
theorem runHello_box (h : s.serves k op = some c) (hspace : 32 ≤ c.space) (pay : Nat) : ∃ resp : Resp,
    ((((s.takeSlot c.ref).sessionOpened c).respond c.ref .ok 0 32 pay (some (s.box.sessions + 1))).mbAt c.ref.mb) =
      { (((s.takeSlot c.ref).sessionOpened c).mbAt c.ref.mb).modSlot c.ref.slot (fun x => { x with resp := resp, st := .done }) with
        done := (((s.takeSlot c.ref).sessionOpened c).mbAt c.ref.mb).done ||| (1#8 <<< c.ref.slot) } ∧
    resp.status = .ok ∧ resp.session = (s.box.sessions + 1).setWidth 8 := by
  refine State.mbAt_respond_self ((s.takeSlot c.ref).sessionOpened c) c.ref .ok 0 pay (some (s.box.sessions + 1)) ?_
  have hslot : (((s.takeSlot c.ref).sessionOpened c).mbAt c.ref.mb).slotAt c.ref.slot = { (s.mbAt c.ref.mb).slotAt c.ref.slot with st := .running } := by
    rw [State.mbAt_sessionOpened]
    exact State.slotAt_endSession_takeSlot s c.ref false
  rw [hslot]
  exact State.serves_space h ▸ hspace

/-! ### A chip reset -/

theorem State.startBoard_box (s : State) (env : StartEnv) : (s.startBoard env).box = s.box := by
  unfold State.startBoard
  dsimp only
  refine State.foldl_keeps State.box _ (fun t x => ?_) _ _
  split
  · rfl
  · rfl

theorem State.loadCores_box (s : State) (l : List (Nat × Nat × W32)) : (s.loadCores l).box = s.box :=
  State.foldl_keeps State.box _ (fun t x => by rfl) _ s

theorem State.imaged_box (s : State) (env : StartEnv) (image : ImageSlot) (signed_ : Bool) : (s.imaged env image signed_).box = s.box := by
  unfold State.imaged
  rw [State.startBoard_box, State.loadCores_box]

theorem State.startMemory_box (s : State) (env : StartEnv) (cause unit : Nat) (bad : Option Nat) : (s.startMemory env cause unit bad).box = s.box := by
  unfold State.startMemory
  dsimp only
  split
  · rfl
  · rfl

theorem chipReset_sessions {env : StartEnv} {x : Nat × Nat} (h : s.chip.pending = some x) : (chipReset env s).box.sessions = 0 := by
  rw [chipReset_of_due h]
  split
  · rfl
  · split
    · split
      · rfl
      · rfl
    · dsimp only
      split
      · exact congrArg Box.sessions (State.imaged_box ..)
      · rw [State.startMemory_box]
        exact congrArg Box.sessions (State.imaged_box ..)

/-- Settles O12. HELLO answers in the state `sessionOpened`, GOODBYE where the session has ended; what they leave of the mailbox is the taken slot's response. -/
theorem sessionCommands : Obligations.SessionCommands := by
  refine ⟨fun s k c h hz hrange hmajor hminor hspace hfree => ?hello, fun s k c h => ?goodbye, fun s k c h => ?ping, fun s env hp hdue => ?reset⟩
  case hello =>
    obtain ⟨pay, hrun⟩ := runHello_of_free hz hrange hmajor hminor hspace hfree
    obtain ⟨resp, hmb, hst, hsid⟩ := runHello_box h hspace pay
    have honly := State.sessionOpened_only (s.takeSlot c.ref) c
    have hslot : ∀ b : Mbx, ∀ done, ({ b.modSlot c.ref.slot (fun x => { x with resp := resp, st := .done }) with done := done } : Mbx).slotAt c.ref.slot =
        { b.slotAt c.ref.slot with resp := resp, st := .done } :=
      fun b _ => Mbx.slotAt_modSlot_self b c.ref.slot fun x => { x with resp := resp, st := .done }
    refine ⟨_, congrArg Host.Outcome.next ((State.live_hawk_any h runHello).trans hrun), ?_⟩
    simp only [State.respond_sessions, State.respond_log, State.respond_org, State.respond_ten, State.respond_mem, State.respond_beat, State.respond_sec]
    rw [show (s.takeSlot c.ref).box.sessions = s.box.sessions from rfl, hmb]
    refine ⟨?_, ?_, State.sessionOpened_sessions .., ?_, ?_, ?_, ?_, ?_, State.sessionOpened_next .., fun ho hwf n hn hsub => ?freed,
      honly.org, honly.ten, honly.mem, honly.beat, fun hm => honly.sec (State.serves_mb h ▸ hm)⟩
    case freed =>
      refine Eq.trans (congrArg Slot.st ?_) (State.slotAt_endSession_of_submitted false ho hwf hn hsub)
      refine (Mbx.slotAt_modSlot _ c.ref.slot n fun x => { x with resp := resp, st := .done }).trans ((if_neg hn.symm).trans ?_)
      rw [State.mbAt_sessionOpened]
      rfl
    · exact congrArg Mbx.open_ (State.mbAt_sessionOpened ..)
    · exact congrArg Mbx.session (State.mbAt_sessionOpened ..)
    · exact congrArg Mbx.minor (State.mbAt_sessionOpened ..)
    · exact congrArg Mbx.caller (State.mbAt_sessionOpened ..)
    · rw [hslot]
      exact hst
    · rw [hslot]
      exact hsid
    · rw [hslot]
  case goodbye =>
    have ho := State.open_of_serves h (by decide)
    obtain ⟨resp, hmb, -⟩ := State.mbAt_respond_self ((s.takeSlot c.ref).endSession c.ref.mb false) c.ref .ok 0 0 none (Nat.zero_le _)
    have hend := State.endSession_of_open (by rw [State.mbAt_takeSlot]; exact ho) (s := s.takeSlot c.ref) (mb := c.ref.mb) false
    refine ⟨_, congrArg Host.Outcome.next (State.live_hawk_any h runGoodbye), rfl, ?_⟩
    rw [runGoodbye, hmb, hend, State.mbAt_modMb_self]
    exact ⟨rfl, rfl, rfl⟩
  case ping => exact congrArg Host.Outcome.next (State.live_hawk_any h runPing)
  case reset =>
    obtain ⟨x, hx⟩ := Option.isSome_iff_exists.1 hdue
    exact ⟨_, congrArg Host.Outcome.next (if_pos hp), chipReset_sessions hx⟩

end Sys2Proof.Machine

/-! SUPPORT. C commands stage their entries, and PART_COMMIT empties the staged set (O13). -/

namespace Sys2Proof.Machine

variable {s : State} {k : Take} {c : Cmd} {op : Nat} {i : Instr} {run : Cmd → State → State}

/-- What a command that passes its checks answers is what its body makes of the state with the slot taken. -/
theorem exec_of_serves {t : State} (h : s.serves k op = some c) (hrun : run c (s.takeSlot c.ref) = t)
    (hexec : exec i s = .next (s.live (hawk op anyCmd k run))) : exec i s = .next t := by
  rw [hexec, State.live_hawk_any h, hrun]

/-- A C command whose body stages entries. -/
theorem stages_of_run {es : List (Nat × Nat)} (h : s.serves k op = some c) (hexec : exec i s = .next (s.live (hawk op anyCmd k run)))
    (hrun : run c (s.takeSlot c.ref) = (s.takeSlot c.ref).stage c es) : Stages i s c es := by
  have hstage := exec_of_serves h hrun hexec
  refine ⟨fun hle => hstage.trans (congrArg Host.Outcome.next ?_), fun hlt => hstage.trans (congrArg Host.Outcome.next ?_)⟩
  · exact if_neg (Nat.not_lt.2 hle)
  · exact if_pos hlt

theorem runPartStage_of_passes (h : Passes (partStageChecks c)) : runPartStage c s = s.stage c ((stageGroups c.pay).map fun g => (g, c.pay)) := by
  unfold runPartStage
  exact State.checked_of_passes h _

theorem runSchedSet_of_passes (h : Passes (schedSetChecks c)) :
    runSchedSet c s = s.stage c [(c.f 0 0 8 + (if c.f 0 0 8 = 1 then 4 * c.f 2 0 16 else 0), c.pay)] := by
  unfold runSchedSet
  exact State.checked_of_passes h _

theorem runCbgSet_of_passes (h : Passes (cbgSetChecks c)) :
    runCbgSet c s =
      s.stage c [(c.f 0 0 8 + 4 * c.f 2 0 10 + (if c.f 0 0 8 = 1 ∨ c.f 0 0 8 = 3 then 4096 * c.f 4 0 16 else 0), c.pay)] := by
  unfold runCbgSet
  rw [State.checked_of_passes h]
  simp only [Bool.or_eq_true, beq_iff_eq]

theorem runCohModeSet_of_passes (h : Passes (cohModeSetChecks c)) :
    runCohModeSet c s = s.stage c [(if c.f 0 0 8 = 0 then c.f 1 0 1 else 2, c.pay)] := by
  unfold runCohModeSet
  exact State.checked_of_passes h _

theorem runPwrBudgetSet_of_passes (h : Passes (pwrBudgetSetChecks c)) : runPwrBudgetSet c s = s.stage c [(c.f 0 0 8, c.pay)] := by
  unfold runPwrBudgetSet
  exact State.checked_of_passes h _

/-- PART_COMMIT by its outcomes (R106–R108). -/
theorem runPartCommit_of_fails {n d : Nat} {st : Status} (h : Passes (partCommitChecks c))
    (hset : s.commitChecks (s.mbAt c.ref.mb).staged = some (n, st, d)) :
    runPartCommit c s = (s.modMb c.ref.mb fun b => { b with staged := [] }).respond c.ref st d 16
      (commitPay 0 ((s.modMb c.ref.mb fun b => { b with staged := [] }).cmdSeq c) n (s.mbAt c.ref.mb).staged.length d) none := by
  unfold runPartCommit
  rw [State.checked_of_passes h]
  simp only [hset]

theorem runPartCommit_of_late (h : Passes (partCommitChecks c)) (hset : s.commitChecks (s.mbAt c.ref.mb).staged = none)
    (hframe : s.effectFrame (c.f 0 0 32) = none) :
    runPartCommit c s = (s.modMb c.ref.mb fun b => { b with staged := [] }).respond c.ref .rejectedInconsistent 0x010D 16
      (commitPay 0 ((s.modMb c.ref.mb fun b => { b with staged := [] }).cmdSeq c) 0xFF (s.mbAt c.ref.mb).staged.length 0x010D) none := by
  unfold runPartCommit
  rw [State.checked_of_passes h]
  simp only [hset, hframe]

theorem runPartCommit_of_frame {b : Nat} (h : Passes (partCommitChecks c)) (hset : s.commitChecks (s.mbAt c.ref.mb).staged = none)
    (hframe : s.effectFrame (c.f 0 0 32) = some b) :
    runPartCommit c s =
      let t := s.modMb c.ref.mb fun b => { b with staged := [] }
      if (s.mbAt c.ref.mb).staged = [] then t.respond c.ref .ok 0 16 (commitPay 0 (t.cmdSeq c) 0xFF 0 0) none
      else t.background { t with box := { t.box with sets := t.box.sets ++ [⟨(s.mbAt c.ref.mb).staged, b, c.ref, c.part, none⟩] } } c 16 := by
  unfold runPartCommit
  rw [State.checked_of_passes h]
  simp only [hset, hframe]

/-- Settles O13: a C command's body is `stage`, and PART_COMMIT goes by the first check that the set fails and the frame that it asks for. -/
theorem stagedSets : Obligations.StagedSets := by
  refine ⟨fun s k c => ⟨?_, ?_, ?_, ?_, ?_, ?_, ?_, ?_, ?_, ?_⟩, fun s k c h hp => ⟨fun i st d hset => ?_, fun hset hframe => ?_,
    fun b hset hframe hempty => ?_, fun b hset hframe hne hspace => ?_⟩⟩
  · exact fun h hp => stages_of_run (run := runPartStage) h rfl (runPartStage_of_passes hp)
  · exact fun h hp => stages_of_run (run := runSpanSet) h rfl (State.checked_of_passes hp _)
  · exact fun h hp => stages_of_run (run := runSchedSet) h rfl (runSchedSet_of_passes hp)
  · exact fun h hp => stages_of_run (run := runRegSet) h rfl (State.checked_of_passes hp _)
  · exact fun h hp => stages_of_run (run := runCbgSet) h rfl (runCbgSet_of_passes hp)
  · exact fun h hp => stages_of_run (run := runMigrateMode) h rfl (State.checked_of_passes hp _)
  · exact fun h hp => stages_of_run (run := runRangeSet) h rfl (State.checked_of_passes hp _)
  · exact fun h hp => stages_of_run (run := runCohModeSet) h rfl (runCohModeSet_of_passes hp)
  · exact fun h hp => stages_of_run (run := runPwrBudgetSet) h rfl (runPwrBudgetSet_of_passes hp)
  · exact fun h hp => stages_of_run (run := runDigestSet) h rfl (State.checked_of_passes hp _)
  · exact exec_of_serves h (runPartCommit_of_fails hp hset) rfl
  · exact exec_of_serves h (runPartCommit_of_late hp hset hframe) rfl
  · exact exec_of_serves h ((runPartCommit_of_frame hp hset hframe).trans (if_pos hempty)) rfl
  · exact exec_of_serves h ((runPartCommit_of_frame hp hset hframe).trans ((if_neg hne).trans (State.background_of_fits hspace))) rfl

end Sys2Proof.Machine

/-! SUPPORT. The life of a partition (O14). -/

namespace Sys2Proof.Machine

variable {s : State} {k : Take} {c : Cmd} {op p : Nat}

/-- The partition that PART_CREATE takes: with 0xFF the lowest FREE one, else the one asked for while it is FREE (R99). -/
def State.createTarget (s : State) (want : Nat) : Option Nat :=
  let free := fun n => decide (n < 64) && (s.partAt n).st == .free
  if want = 0xFF then parts.find? free else if free want then some want else none

theorem State.find_free_part (s : State) :
    parts.find? (fun n => decide (n < 64) && (s.partAt n).st == .free) = parts.find? fun n => (s.partAt n).st == .free :=
  List.find?_congr fun n hn => by
    have : n < 64 := List.mem_range.1 hn
    simp [this]

theorem isSome_createTarget (h : Passes (partCreateChecks c s)) : (s.createTarget (c.f 4 0 8)).isSome = true :=
  passes_iff.1 h ((s.createTarget (c.f 4 0 8)).isSome, .rejectedInconsistent, 0x010F) (by
    unfold partCreateChecks
    simp only [List.append_assoc]
    exact List.mem_append_left _ (List.mem_cons_of_mem _ (List.mem_cons_self ..)))

theorem createTarget_of_passes {n : Nat} (h : Passes (partCreateChecks c s))
    (hn : if c.f 4 0 8 = 0xFF then parts.find? (fun p => (s.partAt p).st == .free) = some n else n = c.f 4 0 8) :
    s.createTarget (c.f 4 0 8) = some n := by
  have hsome := isSome_createTarget h
  unfold State.createTarget at hsome ⊢
  split at hn
  next hw =>
    rw [if_pos hw, State.find_free_part]
    exact hn
  next hw =>
    simp only [if_neg hw] at hsome ⊢
    split at hsome
    · next hfree => rw [if_pos hfree, hn]
    · cases hsome

theorem runPartCreate_of_passes {n : Nat} (h : Passes (partCreateChecks c s)) (hn : s.createTarget (c.f 4 0 8) = some n) (hspace : 8 ≤ c.space) :
    runPartCreate c s =
      let t := s.reserve n (PartRec.zero.withAll c.pay)
      { t with box := { t.box with sets := t.box.sets ++ [⟨[], s.earliest, c.ref, 0xFF, some n⟩] } } := by
  unfold runPartCreate
  rw [State.checked_of_passes h]
  change s.background _ c 8 = _
  rw [State.background_of_fits hspace]
  change (let m := (s.createTarget (c.f 4 0 8)).getD 0
    let t := s.reserve m (PartRec.zero.withAll c.pay)
    ({ t with box := { t.box with sets := t.box.sets ++ [⟨[], s.earliest, c.ref, 0xFF, some m⟩] } } : State)) = _
  rw [hn]
  rfl

theorem State.partAt_clearSettings (s : State) (p m : Nat) : (s.clearSettings p).partAt m = s.partAt m := rfl

theorem State.partAt_reserve_self (s : State) (p : Nat) (r : PartRec) : (s.reserve p r).partAt p = { Part.init with
    st := .creating, gen := nextGen (s.partAt p).gen, record := r, card := (s.partAt p).card, cardSeq := (s.partAt p).cardSeq, life := s.log.next } :=
  State.partAt_modPart_self (s.clearSettings p) p _

theorem State.partAt_reserve_ne {m : Nat} (s : State) (r : PartRec) (h : m ≠ p) : (s.reserve p r).partAt m = s.partAt m :=
  (State.partAt_modPart (s.clearSettings p) p m _).trans (if_neg h.symm)

theorem runPartDestroy_of_passes (h : Passes (partDestroyChecks c s)) (hspace : 8 ≤ c.space) :
    runPartDestroy c s = (s.closeLog c.part).destroyPart c.part (c.f 0 0 32) (some c.ref) :=
  (State.checked_of_passes h _).trans (State.background_of_fits hspace)

theorem runPartQuery_of_passes (h : Passes (partQueryChecks c)) :
    runPartQuery c s = s.answer s c (queryHead s c.part ++ recordFields ((if c.f 0 0 8 = 1 then s.projected else s).partAt c.part).record) := by
  unfold runPartQuery
  exact State.checked_of_passes h _

/-- The partition's card is the only field that a write of it changes beside its sequence number. -/
theorem State.partAt_writeCard_self (s : State) (p : Nat) : ∃ n image, (s.writeCard p).partAt p = { s.partAt p with cardSeq := n, card := image } := by
  unfold State.writeCard
  exact ⟨_, _, by rw [State.partAt_modPart_self, State.partAt_modPart_self]⟩

theorem State.finishOpt_org (s : State) (r : Option SlotRef) (st : Status) (d len pay : Nat) : (s.finishOpt r st d len pay).org = s.org := by
  rw [State.finishOpt_frame]

theorem State.partAt_of_org {t : State} (h : t.org = s.org) (n : Nat) : t.partAt n = s.partAt n := congrArg (fun o : Org => o.part.get Part.init n) h

/-- What a partition is left as when the last of its engines has drained (R117). -/
theorem partAt_drainCompleteFree {d : DestroyRun} (hst : (s.partAt p).st = .destroying) (hd : (s.partAt p).destroy = some d)
    (hidle : ((bitsOf ((s.partAt p).drainEng ||| (s.partAt p).record.engines)).all fun e => (s.engAt e).idle && s.engQuiet e) = true) :
    ((drainCompleteFree p s).partAt p).st = .free ∧ ((drainCompleteFree p s).partAt p).record = PartRec.zero ∧
      ((drainCompleteFree p s).partAt p).destroy = none := by
  unfold drainCompleteFree
  simp only [hd, hst, hidle]
  rw [if_neg (by simp), State.partAt_of_org (State.finishOpt_org ..)]
  rw [show ∀ (t : State) f, (t.modMb (.part p) f).partAt p = t.partAt p from fun _ _ => rfl]
  obtain ⟨n, image, hcard⟩ := State.partAt_writeCard_self _ p
  rw [hcard, State.partAt_modPart_self]
  exact ⟨rfl, rfl, rfl⟩

/-- Settles O14: PART_CREATE reserves the partition that its checks found, and the end of the drain leaves the partition as at reset but for its card. -/
theorem partitionLife : Obligations.PartitionLife := by
  refine ⟨fun s k c n h hp hspace hn => ?create, fun s k c h hp hspace => ?destroy, fun s p d ha hst hd hidle => ?drained, fun s k c h hp => ?query⟩
  case create =>
    have hn' := createTarget_of_passes (s := s.takeSlot c.ref) hp hn
    refine ⟨_, exec_of_serves h (runPartCreate_of_passes hp hn' hspace) rfl, ?_⟩
    have hpart := State.partAt_reserve_self (s.takeSlot c.ref) n (PartRec.zero.withAll c.pay)
    refine ⟨congrArg Part.st hpart, congrArg Part.gen hpart, congrArg Part.record hpart, congrArg Part.configSeq hpart,
      fun m hm => State.partAt_reserve_ne _ _ hm, rfl, rfl, rfl, rfl, rfl, rfl, rfl, rfl, rfl⟩
  case destroy => exact exec_of_serves h (runPartDestroy_of_passes hp hspace) rfl
  case drained => exact ⟨_, congrArg Host.Outcome.next (State.live_of_alive ha _), partAt_drainCompleteFree hst hd hidle⟩
  case query => exact fun hfits => exec_of_serves h ((runPartQuery_of_passes hp).trans (State.answer_of_fits hfits)) rfl

end Sys2Proof.Machine

/-! SUPPORT. Contexts and rings (O15, O16), and the queries that only answer (O17). -/

namespace Sys2Proof.Machine

variable {s t : State} {k : Take} {c : Cmd} {op r : Nat}

/-- Fields of a length that the request has space for. -/
theorem fits_of_le {fields : List (Nat × Nat)} {n : Nat} (h : n ≤ c.space) (hn : (fields.map Prod.fst).sum / 8 = n) : Fits c fields := hn.trans_le h

/-! ### Contexts -/

/-- A slot that CTX_CREATE makes LIVE (R135). -/
def Ctx.renewed (owner : W32) (weight : Nat) (x : Ctx) : Ctx :=
  { Ctx.init with st := .live, gen := nextGen x.gen, owner := owner, weight := weight, revoke := x.revoke }

/-- A slot that CTX_DESTROY frees (R136). -/
def Ctx.freed (x : Ctx) : Ctx := { Ctx.init with gen := x.gen, revoke := x.revoke }

theorem State.newCtx_frame (s : State) (p n : Nat) (owner : W32) :
    s.newCtx p n owner = { s with ten := (s.newCtx p n owner).ten, obs := (s.newCtx p n owner).obs } := rfl

theorem State.ctxAt_newCtx_self (s : State) (p n : Nat) (owner : W32) :
    (s.newCtx p n owner).ctxAt n =
      { Ctx.init with st := .live, gen := nextGen (s.ctxAt n).gen, owner := owner, weight := (s.schedAt p).defWeight, revoke := (s.ctxAt n).revoke } :=
  State.ctxAt_modCtx_self s n (Ctx.renewed owner (s.schedAt p).defWeight)

theorem State.ctxAt_newCtx_ne {m n : Nat} (s : State) (p : Nat) (owner : W32) (h : m ≠ n) : (s.newCtx p n owner).ctxAt m = s.ctxAt m :=
  (State.ctxAt_modCtx s n m (Ctx.renewed owner (s.schedAt p).defWeight)).trans (if_neg h.symm)

theorem runCtxCreate_of_passes {n : Nat} (h : Passes (ctxCreateChecks c s))
    (hn : if c.f 2 0 1 = 1 then s.freeCtx c.part = some n else n = c.f 0 0 16) :
    runCtxCreate c s = s.answer (s.newCtx c.part n (BitVec.ofNat 32 (c.f 4 0 32))) c [(16, n), (8, (nextGen (s.ctxAt n).gen).toNat), (40, 0)] := by
  have hpick : (if (c.f 2 0 1 == 1) = true then s.freeCtx c.part else some (c.f 0 0 16)) = some n := by
    split at hn
    next h1 => rw [if_pos (beq_iff_eq.2 h1), hn]
    next h1 => rw [if_neg (by simpa using h1), hn]
  unfold runCtxCreate
  rw [State.checked_of_passes h]
  simp only [hpick, Option.getD_some, State.ctxAt_newCtx_self]

/-- What CTX_DESTROY leaves (R136): the slot's generation and what a revocation has to answer. -/
def State.ctxFreed (s : State) (n : Nat) : State :=
  let t := (s.leaveGroups n).modCtx n fun x => { Ctx.init with gen := x.gen, revoke := x.revoke }
  { t with ten := { t.ten with reserve := t.ten.reserve.drop n, ctxf := t.ten.ctxf.filter fun e => e.1 / 4 != n } }

theorem runCtxDestroy_of_passes (h : Passes (ctxDestroyChecks c s)) : runCtxDestroy c s = s.answer (s.ctxFreed (c.f 0 0 16)) c [] := by
  unfold runCtxDestroy
  exact State.checked_of_passes h _

theorem State.ctxAt_ctxFreed_self (s : State) (n : Nat) :
    (s.ctxFreed n).ctxAt n = { Ctx.init with gen := (s.ctxAt n).gen, revoke := (s.ctxAt n).revoke } :=
  State.ctxAt_modCtx_self (s.leaveGroups n) n Ctx.freed

theorem State.ctxAt_ctxFreed_ne {m n : Nat} (s : State) (h : m ≠ n) : (s.ctxFreed n).ctxAt m = s.ctxAt m :=
  (State.ctxAt_modCtx (s.leaveGroups n) n m Ctx.freed).trans (if_neg h.symm)

theorem State.members_ctxFreed (s : State) (n g : Nat) (hwf : Tab.wf Group.init s.ten.group = true) :
    ((s.ctxFreed n).groupAt g).members.get none n = none := by
  have hget : (s.ctxFreed n).groupAt g = { s.groupAt g with members := (s.groupAt g).members.drop n } :=
    Tab.get_mapAll (fun _ (x : Group) => { x with members := x.members.drop n }) g rfl hwf
  rw [hget]
  exact Tab.get_drop_self ..

theorem runCtxQuery_of_passes (h : Passes (ctxQueryChecks c s)) :
    runCtxQuery c s = s.answer s c (if c.f 0 0 8 = 0 then ctxView s c.part (c.f 4 0 16) else ringView s (c.f 4 0 20)) := by
  unfold runCtxQuery
  exact State.checked_of_passes h _

/-- Settles O15. -/
theorem contextCommands : Obligations.ContextCommands := by
  refine ⟨fun s k c n h hp hspace hn => ?create, fun s k c h hp => ?destroy, fun s k c h hp => ?query⟩
  case create =>
    have hrun := (runCtxCreate_of_passes hp hn).trans (State.answer_of_fits (fits_of_le hspace (by simp)))
    refine ⟨_, exec_of_serves h hrun rfl, State.newCtx_frame .., State.ctxAt_newCtx_self .., fun m hm =>
      State.ctxAt_newCtx_ne _ _ _ hm, rfl, rfl, rfl⟩
  case destroy =>
    have hrun := (runCtxDestroy_of_passes hp).trans (State.answer_of_fits (Nat.zero_le _))
    refine ⟨_, exec_of_serves h hrun rfl, rfl, State.ctxAt_ctxFreed_self .., fun m hm => State.ctxAt_ctxFreed_ne _ hm,
      Tab.get_drop_self .., fun g hwf => State.members_ctxFreed _ _ g hwf, rfl, rfl⟩
  case query => exact fun hfits => exec_of_serves h ((runCtxQuery_of_passes hp).trans (State.answer_of_fits hfits)) rfl

/-! ### Rings -/

/-- A ring that enters its field's cache changes whether another waits for a fill, and nothing else of any ring. -/
theorem State.cacheRing_frame (h : s.cacheRing r = some t) :
    t = { s with ten := t.ten } ∧ t.ten.ctx = s.ten.ctx ∧ ∀ q, ∃ fill, t.ringAt q = { s.ringAt q with fill := fill } := by
  unfold State.cacheRing at h
  dsimp only at h
  split at h
  · cases h
    exact ⟨rfl, rfl, fun q => ⟨_, rfl⟩⟩
  · split at h
    · cases h
      exact ⟨rfl, rfl, fun q => ⟨_, rfl⟩⟩
    · split at h
      · cases h
        refine ⟨rfl, rfl, fun q => ?_⟩
        rw [State.ringAt_modRing]
        split
        · next hq => exact hq ▸ ⟨_, rfl⟩
        · exact ⟨_, rfl⟩
      · cases h

/-- The ring that RING_BIND makes (R160). -/
def Cmd.boundRing (c : Cmd) (gen : Byte) : Ring :=
  let i := BitVec.ofNat 32 (c.f 32 0 32)
  { Ring.init with
    st := .active, ctx := c.f 4 0 16, ctxGen := gen, home := c.f 7 0 2, fmt := c.f 8 0 8, size := c.f 9 0 5, cls := c.f 10 0 3, vector := c.f 12 0 16
    descAddr := c.f 16 0 64, cqAddr := c.f 24 0 64, start := i, prod := i, fetch := i, done := i }

theorem runRingBind_of_passes (h : Passes (ringBindChecks c s)) : ∃ u, runRingBind c s = s.answer u c [] ∧
    u = { s with ten := u.ten } ∧ u.ten.ctx = s.ten.ctx ∧
    ∃ fill, u.ringAt (c.f 0 0 20) = { c.boundRing (s.ctxAt (c.f 4 0 16)).gen with fill := fill } := by
  unfold runRingBind
  rw [State.checked_of_passes h]
  refine ⟨_, rfl, ?_⟩
  have hbound : (s.modRing (c.f 0 0 20) fun _ => c.boundRing (s.ctxAt (c.f 4 0 16)).gen).ringAt (c.f 0 0 20) =
      c.boundRing (s.ctxAt (c.f 4 0 16)).gen := State.ringAt_modRing_self ..
  split
  next u hu =>
    obtain ⟨hframe, hctx, hring⟩ := State.cacheRing_frame hu
    obtain ⟨fill, hfill⟩ := hring (c.f 0 0 20)
    exact ⟨hframe, hctx, fill, hfill.trans (by rw [← hbound]; rfl)⟩
  next =>
    refine ⟨rfl, rfl, true, ?_⟩
    rw [State.ringAt_modRing_self, ← hbound]
    rfl

theorem runRingUnbind_of_passes (h : Passes (ringUnbindChecks c s)) (hspace : 16 ≤ c.space) :
    runRingUnbind c s =
      let r := c.f 0 0 20
      if (s.ringAt r).st = .unbinding then
        (((s.discardRing r).respond c.ref .ok 0 16 (pack [(32, (s.ringAt r).done.toNat), (96, 0)]) none).unbindCheck r).floorSettle
      else
        let t := s.modRing r fun x => { x with st := .unbinding, unbind := some ⟨c.ref, false, x.prod, 0⟩ }
        ((if c.f 3 7 1 = 1 then t.discardRing r else t).unbindCheck r).floorSettle := by
  unfold runRingUnbind
  rw [State.checked_of_passes h]
  simp only [if_neg (Nat.not_lt.2 hspace), State.background_of_fits hspace, beq_iff_eq]

/-- Settles O16. -/
theorem ringCommands : Obligations.RingCommands := by
  refine ⟨fun s k c h hp => ?bind, fun s k c h hp hspace hst => ?unbind, fun s k c h hp hspace hst => ?discard⟩
  case bind =>
    obtain ⟨u, hrun, hframe, hctx, fill, hring⟩ := runRingBind_of_passes hp
    refine ⟨u, exec_of_serves h (hrun.trans (State.answer_of_fits (Nat.zero_le _))) rfl, ?_, hctx, ?_⟩
    · rw [hframe]
    · rw [hring]
      exact ⟨rfl, rfl, rfl, rfl, rfl, rfl, rfl, rfl, rfl, rfl, rfl, rfl, rfl, rfl, rfl, rfl⟩
  case unbind => exact exec_of_serves h ((runRingUnbind_of_passes hp hspace).trans (if_neg hst)) rfl
  case discard => exact exec_of_serves h ((runRingUnbind_of_passes hp hspace).trans (if_pos hst)) rfl

/-! ### Queries that only answer -/

theorem runSchedQuery_of_passes (h : Passes (schedQueryChecks c s)) :
    runSchedQuery c s = s.answer s c (if c.f 0 0 8 = 0 then schedView s c.part else ctxSchedView s c.part (c.f 4 0 16)) := by
  unfold runSchedQuery
  exact State.checked_of_passes h _

theorem runRegQuery_of_passes (h : Passes (regQueryChecks c)) :
    runRegQuery c s = s.answer s c ([(8, c.part), (8, (s.partAt c.part).gen.toNat), (16, 0), (32, s.frame)] ++
      regView s c.part (c.f 0 0 8) (c.f 1 0 8) (c.f 2 0 8)) := by
  unfold runRegQuery
  exact State.checked_of_passes h _

theorem runSeqQuery_of_passes (h : Passes (seqQueryChecks c s)) :
    runSeqQuery c s = s.answer s c (if c.f 0 0 8 = 0 then seqView s (c.f 4 0 17) else if c.f 0 0 8 = 1 then reserveView s (c.f 4 0 16)
      else [(17, c.f 4 0 17), (15, 0), (16, (s.seqAt (c.f 4 0 17)).pages.length), (16, 0)] ++
        ((s.seqAt (c.f 4 0 17)).pages.drop (c.f 2 0 10)).map fun e => (32, e)) := by
  unfold runSeqQuery
  exact State.checked_of_passes h _

/-- A port's entry of PEER_OFFSETS has 8 bytes. -/
theorem Port.entry_bits (x : Port) : (x.entry.map Prod.fst).sum = 64 := by
  simp [Port.entry]

theorem Port.entries_bits (f : Nat → Port) (l : List Nat) : ((l.flatMap fun p => (f p).entry).map Prod.fst).sum = 64 * l.length := by
  induction l with
  | nil => rfl
  | cons p l ih =>
    rw [List.flatMap_cons, List.map_append, List.sum_append, ih, Port.entry_bits, List.length_cons]
    omega

theorem runPeerOffsets_eq (c : Cmd) (s : State) : runPeerOffsets c s =
    s.answer s c ([(8, 18), (24, 0), (18, ((List.range 18).map fun p => bit (s.net.ports.get Port.init p).up * 2 ^ p).sum), (14, 0),
      (64, s.net.measured.toNat)] ++ (List.range 18).flatMap fun p => (s.net.ports.get Port.init p).entry) := by
  unfold runPeerOffsets
  simp only [List.flatMap_map]

/-- Settles O17: after its checks each query is one answer with its view. -/
theorem queriesOnlyAnswer : Obligations.QueriesOnlyAnswer := by
  intro s k c
  refine ⟨fun h hspace => ?beat, fun h hspace => ?peers, fun fields hf h hp hfits => ?sched, fun fields hf h hp hfits => ?reg,
    fun fields hf h hp hfits => ?seq⟩
  case beat => exact exec_of_serves h (run := runBeatStatus) (State.answer_of_fits (fits_of_le hspace (by simp))) rfl
  case peers =>
    refine exec_of_serves h ((runPeerOffsets_eq ..).trans (State.answer_of_fits (fits_of_le hspace ?_))) rfl
    rw [List.map_append, List.sum_append, Port.entries_bits]
    simp
  case sched =>
    subst hf
    exact exec_of_serves h ((runSchedQuery_of_passes hp).trans (State.answer_of_fits hfits)) rfl
  case reg =>
    subst hf
    exact exec_of_serves h ((runRegQuery_of_passes hp).trans (State.answer_of_fits hfits)) rfl
  case seq =>
    subst hf
    exact exec_of_serves h ((runSeqQuery_of_passes hp).trans (State.answer_of_fits hfits)) rfl

end Sys2Proof.Machine

/-! SUPPORT. Bases and sequences (O18, O19). -/

namespace Sys2Proof.Machine

variable {s t : State} {k : Take} {c : Cmd}

/-! ### Bases -/

theorem runBaseLoad_of_passes (h : Passes (baseLoadChecks c s)) :
    runBaseLoad c s =
      (let ranges := ((s.extentSeg c.part (c.f 8 0 64) (c.f 24 0 64) 2).toList.map fun k => (s.segAt k).keyFast) ++
        (s.extentSeg c.part (c.f 16 0 64) (c.f 24 0 64) 1).toList.map fun k => (s.segAt k).keySlow
      let t := s.modGroup (c.f 0 0 10) fun x => x.modSlot (c.f 2 0 1) fun _ =>
        { BaseSlot.init with
          st := .loading, baseId := BitVec.ofNat 32 (c.f 4 0 32), fast := c.f 8 0 64, copy := c.f 16 0 64, length := c.f 24 0 64, ref := some c.ref }
      s.startActivity t c { Activity.new 4 ranges c.part with group := c.f 0 0 10, slot := c.f 2 0 1 } 24) := by
  unfold runBaseLoad
  exact State.checked_of_passes h _

theorem runBaseSwap_of_passes {b : Nat} (h : Passes (baseSwapChecks c s)) (hspace : 16 ≤ c.space) (hb : s.effectFrame (c.f 4 0 32) = some b) :
    runBaseSwap c s = s.modGroup (c.f 0 0 10) fun x => { x with swap := some ⟨c.ref, c.f 2 0 1, b, false, 0, 0, 0, 0, 0⟩ } := by
  unfold runBaseSwap
  rw [State.checked_of_passes h, State.background_of_fits hspace]
  simp only [hb, Option.getD_some]

section

variable {g n : Nat} {bad : List (Nat × EccEvent)} {a : Activity}
  (ha : s.mem.acts.find? (fun a => a.code == 4 && a.group == g && a.slot == n && a.running && !a.complete) = some a)

include ha

theorem baseLoadEnd_of_dump (hrun : s.log.run ≠ none) : baseLoadEnd g n bad s = s := by
  unfold baseLoadEnd
  rw [ha]
  exact if_pos (Option.isSome_iff_ne_none.2 hrun)

theorem baseLoadEnd_of_run (hrun : s.log.run = none) :
    baseLoadEnd g n bad s =
      (let slot := (s.groupAt g).slot n
      let o := s.loadLines a.part slot bad 0 (List.range (slot.length / 128))
      let f := o.2.2.getD (.ok, 0)
      if a.paced = false ∧ (o.2.2 = none ∨ a.moved < 256 * o.2.1) then s
      else o.1.modAct a.id fun a => { a with complete := true, lines := o.2.1, fixed := statusCode f.1, dest := f.2 }) := by
  unfold baseLoadEnd
  rw [ha]
  exact if_neg (by rw [hrun]; decide)

end

/-- Settles O18. A load's end walks its lines in one step and waits for the bucket that pays for them (DESIGN CHOICE, notes/assumptions/53.md). -/
theorem baseCommands : Obligations.BaseCommands := by
  refine ⟨fun s k c h hp => ?load, fun s k c b h hp hspace hb => ?swap, fun s g n bad a halive ha => ⟨fun hrun => ?dump, fun hrun => ⟨fun hunpaid => ?wait,
    fun hpaid => ?done⟩⟩⟩
  case load => exact exec_of_serves h (runBaseLoad_of_passes hp) rfl
  case swap => exact exec_of_serves h (runBaseSwap_of_passes hp hspace hb) rfl
  case dump => exact congrArg Host.Outcome.next ((State.live_of_alive halive _).trans (baseLoadEnd_of_dump ha hrun))
  case wait =>
    exact congrArg Host.Outcome.next ((State.live_of_alive halive _).trans ((baseLoadEnd_of_run ha hrun).trans (if_pos hunpaid)))
  case done =>
    exact congrArg Host.Outcome.next ((State.live_of_alive halive _).trans ((baseLoadEnd_of_run ha hrun).trans (if_neg hpaid)))

/-! ### Sequences -/

/-- A slot that SEQ_OPEN opens (R267). -/
def Cmd.openedSeq (c : Cmd) (s : State) (q : Seq) : Seq :=
  { Seq.init with
    st := .filling, irqEach := c.f 3 3 1 == 1, fallback := c.f 3 4 1 == 1, gen := nextGen q.gen, ctx := c.f 0 0 16, group := c.f 4 0 10
    home := s.seqHome c.part, cls := c.f 3 0 3, deadline := c.f 6 0 16, tokLines := c.f 16 0 9, fastPages := c.f 18 0 11, vector := c.f 20 0 16
    prompt := c.f 8 0 32, maxLen := c.f 12 0 32, logSize := c.f 22 0 5, logAddr := c.f 24 0 64, openFrame := s.nowFrame }

theorem runSeqOpen_of_passes {n : Nat} (h : Passes (seqOpenChecks c s)) (hn : s.freeSeq c.part = some n) :
    runSeqOpen c s = s.answer (s.modSeq n (c.openedSeq s)) c
      [(17, n), (15, 0), (8, (nextGen (s.seqAt n).gen).toNat), (2, s.seqHome c.part), (22, 0), (32, s.nowFrame.toNat), (32, 0)] := by
  unfold runSeqOpen
  rw [State.checked_of_passes h]
  simp only [hn, Option.getD_some, State.seqAt_modSeq_self]
  rfl

theorem runSeqClose_of_passes (h : Passes (seqCloseChecks c s)) :
    runSeqClose c s =
      (let t := s.dropChunks (c.f 0 0 17) .staleGeneration
      (if (s.seqAt (c.f 0 0 17)).inFlight then t.modSeq (c.f 0 0 17) fun q =>
          { q with st := .closing, stall := false, close := some (c.ref, c.f 5 0 1 == 1) }
       else t.endSeq (c.f 0 0 17) (some c.ref) (c.f 5 0 1 == 1)).floorSettle) := by
  unfold runSeqClose
  exact State.checked_of_passes h _

/-- A field's cache of sequences after one has been brought in (R293). -/
def seqCacheAdd (n : Nat) (l : List Nat) : List Nat := if l.contains n then l else if 2048 ≤ l.length then l.drop 1 ++ [n] else l ++ [n]

theorem seqCacheAdd_of_mem {n : Nat} {l : List Nat} (h : l.contains n = true) : seqCacheAdd n l = l := if_pos h

theorem seqCacheAdd_of_room {n : Nat} {l : List Nat} (h : l.contains n = false) (hl : l.length < 2048) : seqCacheAdd n l = l ++ [n] :=
  (if_neg (by simp only [h, Bool.false_eq_true, not_false_iff])).trans (if_neg (Nat.not_le.2 hl))

theorem seqCacheAdd_of_full {n : Nat} {l : List Nat} (h : l.contains n = false) (hl : 2048 ≤ l.length) : seqCacheAdd n l = l.drop 1 ++ [n] :=
  (if_neg (by simp only [h, Bool.false_eq_true, not_false_iff])).trans (if_pos hl)

theorem mem_seqCacheAdd (n : Nat) (l : List Nat) : n ∈ seqCacheAdd n l := by
  unfold seqCacheAdd
  split
  · next h => exact List.contains_iff_mem.1 h
  · split
    · exact List.mem_append_right _ (List.mem_singleton_self n)
    · exact List.mem_append_right _ (List.mem_singleton_self n)

theorem seqCacheFill_of_used {n : Nat} (hst : (s.seqAt n).st ≠ .free) (hcore : s.coreStopped (1 + (s.seqAt n).home) = false) :
    seqCacheFill n s = { s with ten := { s.ten with seqCache := s.ten.seqCache.upd [] (s.seqAt n).home (seqCacheAdd n) } } :=
  if_neg (by simp [hst, hcore])

/-- Settles O19. -/
theorem sequenceCommands : Obligations.SequenceCommands := by
  refine ⟨fun s k c n h hp hspace hn => ?opens, fun s k c h hp => ⟨fun hfly => ?closing, fun hidle => ?closed⟩, fun s n ha hst hcore => ?fill⟩
  case opens =>
    have hrun := (runSeqOpen_of_passes (s := s.takeSlot c.ref) hp hn).trans (State.answer_of_fits (fits_of_le hspace (by simp)))
    exact ⟨_, exec_of_serves h hrun rfl, rfl, fun m hm => (State.seqAt_modSeq _ n m _).trans (if_neg hm.symm), State.seqAt_modSeq_self ..⟩
  case closing =>
    refine exec_of_serves h ((runSeqClose_of_passes hp).trans ?_) rfl
    exact congrArg State.floorSettle (if_pos hfly)
  case closed =>
    refine exec_of_serves h ((runSeqClose_of_passes hp).trans ?_) rfl
    exact congrArg State.floorSettle (if_neg (Bool.eq_false_iff.1 hidle))
  case fill =>
    have hget : (s.ten.seqCache.upd [] (s.seqAt n).home (seqCacheAdd n)).get [] (s.seqAt n).home =
      seqCacheAdd n (s.ten.seqCache.get [] (s.seqAt n).home) := Tab.get_upd_self ..
    refine ⟨_, congrArg Host.Outcome.next ((State.live_of_alive ha _).trans (seqCacheFill_of_used hst hcore)), rfl, ?_, fun f hf =>
      Tab.get_upd_ne _ _ _ hf.symm⟩
    dsimp only
    rw [hget]
    exact ⟨mem_seqCacheAdd .., seqCacheAdd_of_mem, seqCacheAdd_of_room, seqCacheAdd_of_full⟩

end Sys2Proof.Machine

/-! SUPPORT. Reserve lists (O20). -/

namespace Sys2Proof.Machine

variable {s : State} {k : Take} {c : Cmd} {op : Nat} {i : Instr} {run : Cmd → State → State} {mine : Cmd → Bool}

/-- The same of a row that shares its opcode with others: the request is its own. -/
theorem exec_of_serves_mine {t : State} (h : s.serves k op = some c) (hmine : mine c = true) (hrun : run c (s.takeSlot c.ref) = t)
    (hexec : exec i s = .next (s.live (hawk op mine k run))) : exec i s = .next t := by
  rw [hexec, State.live_hawk h mine hmine, hrun]

theorem runKvFill_of_passes (h : Passes (kvFillChecks c s)) :
    runKvFill c s =
      (let x := c.f 0 0 16
      let t := if c.f 3 3 1 = 1 then (kvEntries c).foldl (fun t e => t.clearPage c.part x e) s else s
      let t := (t.modReserve x fun r => if c.f 3 0 1 = 0 then { r with fast := r.fast ++ kvEntries c } else { r with slow := r.slow ++ kvEntries c }).unstall x
        (if c.f 3 0 1 = 0 then (kvEntries c).length else 0) (if c.f 3 0 1 = 0 then 0 else (kvEntries c).length)
      s.answer t c [(8, ((t.reserveAt x).list (c.f 3 0 1)).length), (8, (kvEntries c).length), (16, 0)]) := by
  unfold runKvFill
  exact State.checked_of_passes h _

/-- A list of a context's reserve, written. -/
def Reserve.setList (r : Reserve) (l : Nat) (es : List Nat) : Reserve := if l = 0 then { r with fast := es } else { r with slow := es }

theorem Reserve.list_setList_self (r : Reserve) (l : Nat) (es : List Nat) : (r.setList l es).list l = es := by
  unfold Reserve.setList Reserve.list
  split
  · rfl
  · rfl

theorem Reserve.list_setList_other {l m : Nat} (r : Reserve) (es : List Nat) (h : l = 0 ↔ m ≠ 0) : (r.setList l es).list m = r.list m := by
  unfold Reserve.setList Reserve.list
  by_cases hl : l = 0
  · rw [if_pos hl, if_neg (h.1 hl), if_neg (h.1 hl)]
  · rw [if_neg hl, if_pos (by omega), if_pos (by omega)]

/-- The entries that DRAIN takes from a list's tail, the last first. -/
def drained (all : List Nat) (n : Nat) : List Nat := all.reverse.take n

theorem length_drained (all : List Nat) (n : Nat) : (drained all n).length = min n all.length := by simp [drained]

theorem take_append_drained (all : List Nat) (n : Nat) : all.take (all.length - (drained all n).length) ++ (drained all n).reverse = all := by
  have hrev : (drained all n).reverse = all.drop (all.length - n) := by
    rw [drained, List.take_reverse, List.reverse_reverse]
  rw [hrev, length_drained, show all.length - min n all.length = all.length - n by omega, List.take_append_drop]

/-- A reserve after DRAIN of a list. -/
def Reserve.drain (r : Reserve) (l n : Nat) : Reserve := r.setList l ((r.list l).take ((r.list l).length - (drained (r.list l) n).length))

theorem Reserve.list_drain_append (r : Reserve) (l n : Nat) : (r.drain l n).list l ++ (drained (r.list l) n).reverse = r.list l := by
  rw [Reserve.drain, Reserve.list_setList_self, take_append_drained]

theorem Reserve.list_drain_other {l m : Nat} (r : Reserve) (n : Nat) (h : l = 0 ↔ m ≠ 0) : (r.drain l n).list m = r.list m :=
  Reserve.list_setList_other r _ h

theorem runKvDrain_of_passes (h : Passes (kvDrainChecks c s)) :
    runKvDrain c s =
      (let x := c.f 0 0 16
      let l := c.f 3 0 1
      let out := drained ((s.reserveAt x).list l) (c.f 4 0 7)
      let t := s.modReserve x fun r => r.drain l (c.f 4 0 7)
      s.answer t c ([(8, ((t.reserveAt x).list l).length), (8, out.length), (16, 0)] ++ out.map fun e => (32, e))) := by
  dsimp only
  rw [State.reserveAt_modReserve_self, Reserve.drain, Reserve.list_setList_self]
  unfold runKvDrain
  exact State.checked_of_passes h _

theorem runKvWater_of_passes (h : Passes (kvWaterChecks c s)) :
    runKvWater c s =
      (let t := s.modReserve (c.f 0 0 16) fun r => if c.f 3 0 1 = 0 then { r with fastWater := c.f 6 0 6 } else { r with slowWater := c.f 6 0 6 }
      s.answer t c [(8, ((t.reserveAt (c.f 0 0 16)).list (c.f 3 0 1)).length), (8, 0), (16, 0)]) := by
  unfold runKvWater
  exact State.checked_of_passes h _

/-- A watermark leaves the lists. -/
theorem Reserve.list_setWater (r : Reserve) (l w m : Nat) :
    (if l = 0 then { r with fastWater := w } else { r with slowWater := w } : Reserve).list m = r.list m := by
  split
  · rfl
  · rfl

theorem space_of_kvDrain (h : Passes (kvDrainChecks c s)) : 4 + 4 * c.f 4 0 7 ≤ c.space :=
  of_decide_eq_true (passes_iff.1 h (decide (4 + 4 * c.f 4 0 7 ≤ c.space), .rejectedInconsistent, 0x0008)
    (List.mem_append_right _ (List.mem_singleton_self _)))

/-- The bytes of a list of entries behind its head of 4 bytes. -/
theorem entries_bytes (a b d : Nat) (l : List Nat) : (([(8, a), (8, b), (16, d)] ++ l.map fun e => (32, e)).map Prod.fst).sum / 8 = 4 + 4 * l.length := by
  simp only [List.map_append, List.sum_append, List.map_map, Function.comp_def, List.map_const', List.sum_replicate, List.map_cons, List.map_nil,
    List.sum_cons, List.sum_nil, smul_eq_mul]
  omega

theorem Cmd.f_bit (c : Cmd) (b o : Nat) : c.f b o 1 < 2 := Nat.mod_lt _ (by decide)

/-- Settles O20. -/
theorem reserveCommands : Obligations.ReserveCommands := by
  refine ⟨fun s k c h hop hp hspace => ?fill, fun s k c h hop hp => ?drain, fun s k c h hop hp hspace => ?water⟩
  case fill =>
    exact exec_of_serves_mine h (by rw [hop]; rfl) ((runKvFill_of_passes hp).trans (State.answer_of_fits (fits_of_le hspace (by simp)))) rfl
  case drain =>
    have hlen := length_drained ((s.reserveAt (c.f 0 0 16)).list (c.f 3 0 1)) (c.f 4 0 7)
    have hspace := space_of_kvDrain hp
    have hfits := fun a b => fits_of_le (c := c) (by omega) (entries_bytes a b 0 (drained ((s.reserveAt (c.f 0 0 16)).list (c.f 3 0 1)) (c.f 4 0 7)))
    have hrun := exec_of_serves_mine (i := .kvReserveDrain k) h (by rw [hop]; rfl) ((runKvDrain_of_passes hp).trans (State.answer_of_fits (hfits _ _))) rfl
    refine ⟨_, drained ((s.reserveAt (c.f 0 0 16)).list (c.f 3 0 1)) (c.f 4 0 7), hrun, rfl, hlen, ?_, ?_, fun x hx => ?_⟩
    · rw [State.reserveAt_modReserve_self]
      exact (Reserve.list_drain_append ..).symm
    · rw [State.reserveAt_modReserve_self]
      exact (Reserve.list_drain_other _ _ (by have := c.f_bit 3 0; omega)).symm
    · exact (State.reserveAt_modReserve _ _ x _).trans (if_neg hx.symm)
  case water =>
    have hlist : ((((s.takeSlot c.ref).modReserve (c.f 0 0 16) fun r => if c.f 3 0 1 = 0 then { r with fastWater := c.f 6 0 6 } else
        { r with slowWater := c.f 6 0 6 }).reserveAt (c.f 0 0 16)).list (c.f 3 0 1)) = (s.reserveAt (c.f 0 0 16)).list (c.f 3 0 1) := by
      rw [State.reserveAt_modReserve_self]
      exact Reserve.list_setWater ..
    have hrun := exec_of_serves_mine (i := .kvReserveSetWater k) h (by rw [hop]; rfl)
      ((runKvWater_of_passes hp).trans (State.answer_of_fits (fits_of_le hspace (by simp)))) rfl
    rw [hlist] at hrun
    exact hrun

end Sys2Proof.Machine

/-! SUPPORT. Fences, their sharing between chips, and the wait-for graph (O21–O23). -/

namespace Sys2Proof.Machine

variable {s : State} {k : Take} {c : Cmd} {n : Nat}

/-! ### FENCE_ALLOC, FENCE_FREE and FENCE_EXPORT -/

/-- A slot that FENCE_ALLOC makes LIVE (R297). -/
def Cmd.newFence (c : Cmd) (f : Fence) : Fence :=
  { Fence.init with
    st := .live, kind := if c.f 3 3 1 = 1 then .step else .plain, compat := c.f 3 0 1 == 1, value := BitVec.ofNat 64 (c.f 8 0 64)
    gen := nextGen f.gen, owner := c.f 0 0 16, mirror := if c.f 3 4 1 = 1 then some (c.f 16 0 64) else none
    group := if c.f 3 3 1 = 1 then c.f 6 0 10 else 0 }

theorem runFenceAlloc_of_passes (h : Passes (fenceAllocChecks c s)) (hn : s.pickFence c.part (c.f 3 1 2) (c.f 3 5 2) (c.f 4 0 14) = some n) :
    runFenceAlloc c s = s.answer (s.modFence n c.newFence) c
      [(14, n), (2, 0), (8, (nextGen (s.fenceAt n).gen).toNat), (2, n / 4096), (38, 0)] := by
  unfold runFenceAlloc
  rw [State.checked_of_passes h]
  simp only [hn, Option.getD_some, State.fenceAt_modFence_self, beq_iff_eq]
  rfl

theorem runFenceFree_of_passes (h : Passes (fenceFreeChecks c s)) :
    runFenceFree c s = s.answer ((s.abandonFence (c.f 0 0 14)).freeFence (c.f 0 0 14)) c
      [(64, (s.fenceAt (c.f 0 0 14)).value.toNat), (32, (s.fenceAt (c.f 0 0 14)).stale.toNat), (32, (s.fenceAt (c.f 0 0 14)).rejected.toNat)] := by
  unfold runFenceFree
  exact State.checked_of_passes h _

theorem State.fenceAt_freeFence_self (s : State) (n : Nat) : (s.freeFence n).fenceAt n = { Fence.init with gen := ((s.unsubscribe n).fenceAt n).gen } :=
  State.fenceAt_modFence_self (s.unsubscribe n) n fun f => { Fence.init with gen := f.gen }

theorem runFenceExport_of_passes (h : Passes (fenceExportChecks c s)) :
    runFenceExport c s = s.answer (s.modFence (c.f 0 0 14) fun f =>
      { f with exports_ := f.exports_ ++ [⟨c.f 4 0 9, c.f 6 0 6, BitVec.ofNat 32 (c.f 8 0 32), []⟩] }) c [(32, s.log.inc.toNat), (32, 0)] := by
  unfold runFenceExport
  exact State.checked_of_passes h _

theorem runFenceWithdraw_of_passes (h : Passes (fenceWithdrawChecks c s)) :
    runFenceWithdraw c s =
      (let is := fun (e : Export) => e.node == c.f 4 0 9 && e.part == c.f 6 0 6
      let subs := ((s.fenceAt (c.f 0 0 14)).exports_.filter is).flatMap fun e => e.subs
      s.answer ((s.modFence (c.f 0 0 14) fun f => { f with exports_ := f.exports_.filter fun e => !is e }).abandonSubs subs) c
        [(32, s.log.inc.toNat), (16, subs.length), (16, 0)]) := by
  unfold runFenceWithdraw
  exact State.checked_of_passes h _

/-- Settles O21. -/
theorem fenceCommands : Obligations.FenceCommands := by
  refine ⟨fun s k c n h hp hspace hn => ?alloc, fun s k c h hp hspace => ?free, fun s k c h hw hp hspace => ?exports, fun s k c h hw hp hspace => ?withdraw⟩
  case alloc =>
    have hrun := (runFenceAlloc_of_passes (s := s.takeSlot c.ref) hp hn).trans (State.answer_of_fits (fits_of_le hspace (by simp)))
    exact ⟨_, exec_of_serves h hrun rfl, rfl, fun m hm => (State.fenceAt_modFence _ n m _).trans (if_neg hm.symm), State.fenceAt_modFence_self ..⟩
  case free =>
    have hfence := State.fenceAt_freeFence_self ((s.takeSlot c.ref).abandonFence (c.f 0 0 14)) (c.f 0 0 14)
    exact ⟨exec_of_serves h ((runFenceFree_of_passes hp).trans (State.answer_of_fits (fits_of_le hspace (by simp)))) rfl,
      congrArg Fence.st hfence, congrArg Fence.waiters hfence, congrArg Fence.exports_ hfence⟩
  case exports =>
    exact exec_of_serves_mine h (by rw [hw]; rfl) ((runFenceExport_of_passes hp).trans (State.answer_of_fits (fits_of_le hspace (by simp)))) rfl
  case withdraw =>
    exact exec_of_serves_mine h hw ((runFenceWithdraw_of_passes hp).trans (State.answer_of_fits (fits_of_le hspace (by simp)))) rfl

/-! ### FENCE_IMPORT -/

/-- The fence that an import asks for (R314). -/
def Cmd.source (c : Cmd) : Source := ⟨c.f 6 0 9, c.f 8 0 6, c.f 10 0 14, BitVec.ofNat 8 (c.f 9 0 8)⟩

/-- The bytes of an import's answer. -/
theorem importFields_bytes (s : State) (n : Nat) (inc : W32) : ((importFields s n inc).map Prod.fst).sum / 8 = 16 := by simp [importFields]

theorem runFenceImport_of_passes (h : Passes (fenceImportChecks c s)) (hn : s.pickFence c.part (c.f 3 0 2) (c.f 3 2 2) (c.f 4 0 14) = some n) :
    runFenceImport c s =
      (let key := BitVec.ofNat 32 (c.f 12 0 32)
      if c.f 6 0 9 = s.ownNode then
        match s.exportAnswer (c.f 6 0 9) c.part c.source.part c.source.fence c.source.gen key false with
        | .grant compat value inc =>
          let t := (s.newProxy n (c.f 0 0 16) c.source compat value).subscribe c.source.fence (c.f 6 0 9) c.part n
          s.answer t c (importFields t n inc)
        | .refuse => s.reject c .notPermitted 0x0815
        | .refuseWidth => s.reject c .versionUnsupported 0x0816
      else if s.reachable (c.f 6 0 9) = false then s.reject c .peerReset 0
      else
        let t := (s.modFence n fun f => { f with reserved := true }).linkSend
          (.importRequest (c.f 6 0 9) ⟨s.ownNode, c.part, c.source.part, c.source.fence, c.source.gen, key, n⟩)
        s.background { t with fen := { t.fen with imports := t.fen.imports ++ [⟨c.ref, c.part, n, c.f 0 0 16, c.source, key⟩] } } c 16) := by
  unfold runFenceImport
  rw [State.checked_of_passes h]
  simp only [hn, Option.getD_some]
  rfl

theorem State.fenceAt_newProxy_self (s : State) (n ctx : Nat) (src : Source) (compat : Bool) (value : W64) :
    (s.newProxy n ctx src compat value).fenceAt n = { Fence.init with
      st := .live, kind := .proxy, compat := compat, value := value, gen := nextGen (s.fenceAt n).gen, owner := ctx, src := some src } :=
  State.fenceAt_modFence_self s n fun f => { Fence.init with
    st := .live, kind := .proxy, compat := compat, value := value, gen := nextGen f.gen, owner := ctx, src := some src }

theorem exec_importRequest_of_up {port : Nat} (ha : s.alive = true) (hcore : s.coreStopped 6 = false) (hup : (s.net.ports.get Port.init port).up = true)
    (r : ImportReq) : exec (.importRequest port r) s = .next
      (let a := s.exportAnswer r.node r.part r.srcPart r.fence r.gen r.key (s.net.ports.get Port.init port).s3
      let t := match a with
        | .grant _ _ _ => s.subscribe r.fence r.node r.part r.proxy
        | _ => s
      (t.countMsg port 1 false).linkSend (.importAnswer r.node r.proxy a)) :=
  congrArg Host.Outcome.next ((State.live_of_alive ha _).trans (if_neg (by simp [hup, hcore])))

theorem exec_importTimeout_of_waits {mb : Mailbox} {slot : Nat} {w : ImportWait} (ha : s.alive = true) (hw : s.importAt mb slot = some w) :
    exec (.importTimeout mb slot) s = .next ((s.endImport w).finish w.ref .peerReset 0 0 0) := by
  refine congrArg Host.Outcome.next ((State.live_of_alive ha _).trans ?_)
  unfold importTimeout
  rw [hw]

theorem exec_importAnswer_of_waits {mb : Mailbox} {slot : Nat} {w : ImportWait} (ha : s.alive = true) (hw : s.importAt mb slot = some w) (a : ImportAns) :
    exec (.importAnswer mb slot a) s = .next
      (let t := (s.countMsg (s.portFor w.src.node) 2 false).endImport w
      match a with
      | .refuse => t.finish w.ref .notPermitted 0x0815 0 0
      | .refuseWidth => t.finish w.ref .versionUnsupported 0x0816 0 0
      | .grant compat value inc =>
        if s.otherLife w.src.node inc then t.finish w.ref .peerReset 0 0 0
        else if (t.ctxAt w.ctx).st = .live then
          let t := t.newProxy w.fence w.ctx w.src compat value
          t.finish w.ref .ok 0 16 (pack (importFields t w.fence inc))
        else (t.linkSend (.unsubscribe w.src.node w.src.fence w.fence)).finish w.ref .contextLost 0 0 0) := by
  refine congrArg Host.Outcome.next ((State.live_of_alive ha _).trans ?_)
  unfold importAnswer
  generalize s.importAt mb slot = found at hw
  subst hw
  rfl

/-- Settles O22. A grant of another incarnation ends the wait with PEER_RESET (DESIGN CHOICE, notes/assumptions/86.md). -/
theorem fenceImports : Obligations.FenceImports := by
  refine ⟨fun s k c n h hp hn => ?imports, fun s port r ha hcore hup => ?request, fun s mb slot w ha hw => ?ends⟩
  case imports =>
    have hrun := runFenceImport_of_passes (s := s.takeSlot c.ref) hp hn
    refine ⟨fun compat value inc hown hans hspace => ?grant, fun hown hans => ?refuse, fun hother hgone => ?gone, fun hother hreach hspace => ?asks⟩
    case grant =>
      have hfits := fits_of_le hspace (importFields_bytes
        ((((s.takeSlot c.ref).newProxy n (c.f 0 0 16) c.source compat value).subscribe c.source.fence (c.f 6 0 9) c.part n)) n inc)
      refine exec_of_serves h (hrun.trans ((if_pos hown).trans ?_)) rfl
      simp only [Cmd.source, hans]
      exact State.answer_of_fits hfits
    case refuse =>
      refine exec_of_serves h (hrun.trans ((if_pos hown).trans ?_)) rfl
      simp only [Cmd.source, hans]
      rfl
    case gone => exact exec_of_serves h (hrun.trans ((if_neg hother).trans (if_pos hgone))) rfl
    case asks =>
      have hreach' : ¬(s.takeSlot c.ref).reachable (c.f 6 0 9) = false := by
        rw [show (s.takeSlot c.ref).reachable (c.f 6 0 9) = true from hreach]
        decide
      refine ⟨_, exec_of_serves h (hrun.trans ((if_neg hother).trans ((if_neg hreach').trans (State.background_of_fits hspace)))) rfl, ?_, rfl, rfl, rfl⟩
      exact congrArg Fence.reserved (State.fenceAt_modFence_self (s.takeSlot c.ref) n fun f => { f with reserved := true })
  case request =>
    have hexec := exec_importRequest_of_up ha hcore hup r
    refine ⟨fun compat value inc hans => ?_, fun hans => ?_⟩
    · rw [hexec, hans]
    · rw [hexec]
      obtain hans | hans := hans
      · rw [hans]
      · rw [hans]
  case ends =>
    have hexec := exec_importAnswer_of_waits ha hw
    refine ⟨exec_importTimeout_of_waits ha hw, hexec .refuse, hexec .refuseWidth, fun compat value inc hlife => ?_, fun compat value inc hlive hlife => ?_⟩
    · exact (hexec _).trans (congrArg Host.Outcome.next (if_pos hlife))
    · have hproxy := State.fenceAt_newProxy_self ((s.countMsg (s.portFor w.src.node) 2 false).endImport w) w.fence w.ctx w.src compat value
      exact ⟨(hexec _).trans (congrArg Host.Outcome.next ((if_neg (by rw [hlife]; decide)).trans (if_pos hlive))),
        congrArg Fence.st hproxy, congrArg Fence.kind hproxy, congrArg Fence.value hproxy, congrArg Fence.src hproxy⟩

end Sys2Proof.Machine

/-! SUPPORT. Updates of PROXY fences and the wait-for graph (O23). -/

namespace Sys2Proof.Machine

variable {s t : State} {k : Take} {c : Cmd} {n : Nat}

/-! ### PROXY fences -/

/-- A message from a source chip counts at its port, and changes nothing else. -/
theorem State.heardFrom_frame (s : State) (n kind : Nat) : s.heardFrom n kind = { s with obs := (s.heardFrom n kind).obs } := by
  unfold State.heardFrom
  split
  · rfl
  · rfl

theorem State.heardFrom_of_none (h : (s.fenceAt n).src = none) (kind : Nat) : s.heardFrom n kind = s := by
  unfold State.heardFrom
  rw [h]

theorem State.fenceAt_heardFrom (s : State) (n kind m : Nat) : (s.heardFrom n kind).fenceAt m = s.fenceAt m := by
  rw [State.heardFrom_frame]
  rfl

theorem State.updateProxy_of_live (hst : (s.fenceAt n).st = .live) (hkind : (s.fenceAt n).kind = .proxy) (v : W64) :
    s.updateProxy n v =
      match (s.fenceAt n).judge v with
      | .accepted => s.setFence n v
      | .stale => s.modFence n fun f => { f with stale := inc32 f.stale }
      | .rejected => s.modFence n fun f => { f with rejected := inc32 f.rejected } :=
  if_pos ⟨hst, hkind⟩

theorem exec_proxyUpdate_of_live (ha : s.alive = true) (hst : (s.fenceAt n).st = .live) (hkind : (s.fenceAt n).kind = .proxy) (v : W64) :
    exec (.proxyUpdate n v) s = .next
      (match (s.fenceAt n).judge v with
      | .accepted => (s.heardFrom n 3).setFence n v
      | .stale => (s.heardFrom n 3).modFence n fun f => { f with stale := inc32 f.stale }
      | .rejected => (s.heardFrom n 3).modFence n fun f => { f with rejected := inc32 f.rejected }) := by
  refine congrArg Host.Outcome.next ((State.live_of_alive ha _).trans ((if_pos hkind).trans ?_))
  have hfence := State.fenceAt_heardFrom s n 3 n
  refine (State.updateProxy_of_live (by rw [hfence, hst]) (by rw [hfence, hkind]) v).trans ?_
  rw [hfence]

theorem exec_proxyUpdate_of_other (hkind : (s.fenceAt n).kind ≠ .proxy) (v : W64) : exec (.proxyUpdate n v) s = .next s := by
  refine congrArg Host.Outcome.next ?_
  unfold State.live
  split
  · exact if_neg hkind
  · rfl

theorem exec_proxyAbandon_of_other (hkind : (s.fenceAt n).kind ≠ .proxy) : exec (.proxyAbandon n) s = .next s := by
  refine congrArg Host.Outcome.next ?_
  unfold State.live
  split
  · exact if_neg hkind
  · rfl

theorem exec_proxyAbandon_of_live (ha : s.alive = true) (hst : (s.fenceAt n).st = .live) (hkind : (s.fenceAt n).kind = .proxy) :
    exec (.proxyAbandon n) s = .next (((s.fenceAt n).waiters.foldl State.releaseAbandoned ((s.heardFrom n 4).modFence n fun f =>
      { f with st := .abandoned, value := if f.compat then f.value else BitVec.allOnes 64, waiters := [] })).mirror n) := by
  refine congrArg Host.Outcome.next ((State.live_of_alive ha _).trans ((if_pos hkind).trans ?_))
  unfold State.abandonOne
  rw [State.fenceAt_heardFrom]
  exact if_neg (by simp [hst])

/-! ### The wait-for graph -/

/-- From one state to another records and events joined what was there, and nothing else changed. -/
structure Reported (s t : State) : Prop where
  frame : t = { s with log := t.log, out := t.out }
  next : s.log.next ≤ t.log.next

theorem Reported.refl (s : State) : Reported s s := ⟨rfl, Nat.le_refl _⟩

theorem Reported.logRec (h : Reported s t) (r : RecBody) : Reported s (t.logRec r) :=
  ⟨by rw [State.logRec_frame, h.frame], Nat.le_succ_of_le h.next⟩

theorem Reported.partEvent (h : Reported s t) (p : Nat) : Reported s (t.partEvent p) :=
  ⟨by rw [State.partEvent_frame, h.frame], by rw [State.partEvent_frame]; exact h.next⟩

theorem Reported.foldl {α : Type} {f : State → α → State} {l : List α} (h : Reported s t) (hf : ∀ u a, Reported s u → Reported s (f u a)) :
    Reported s (l.foldl f t) := State.foldl_inv (Reported s) f hf l t h

/-- The end of a scan puts the new graph in place, and reports its cycles (R319). -/
theorem wfgScanEnd_of_scan (h : s.fen.wfg.scan.isSome = true) (host : List (Nat × Nat × BitVec 512)) : ∃ w : Wfg,
    w.scan = none ∧ w.epoch = s.fen.wfg.scanAt ∧ Reported { s with fen := { s.fen with wfg := w } } (wfgScanEnd host s) := by
  obtain ⟨snap, hsnap⟩ := Option.isSome_iff_exists.1 h
  unfold wfgScanEnd
  rw [hsnap]
  refine ⟨_, rfl, rfl, (Reported.refl _).foldl fun u p hu => ?_⟩
  have hmine := fun l => hu.foldl (l := l) fun u c hu => hu.logRec (WfgCycle.record c p s.fen.wfg.scanAt)
  dsimp only
  split
  · exact (hmine _).partEvent p
  · exact hmine _

theorem runWfgRead_of_passes (h : Passes (wfgReadChecks c)) :
    runWfgRead c s =
      (let w := s.fen.wfg
      let mine := (w.cycles.filter fun x => x.parts.contains c.part).take 64
      let rest := (mine.drop (c.f 0 0 16)).map (cycleFields s c.part (c.ref.mb == .manager))
      let out := fillSpace (c.space - 16) rest
      s.answer s c ([(8, c.part), (8, (s.partAt c.part).gen.toNat), (1, bit w.overrun), (1, bit (decide (out.length < rest.length))), (14, 0),
        (32, w.epoch.toNat), (32, ((w.blocked.find? fun e => e.1 == c.part).map Prod.snd).getD 0), (16, mine.length), (16, out.length)] ++
        out.flatten)) :=
  State.checked_of_passes h _

/-- Settles O23. -/
theorem proxiesAndGraph : Obligations.ProxiesAndGraph := by
  refine ⟨fun s n v ha hst hkind => ⟨fun hj => ?_, fun hj => ?_, fun hj => ?_, exec_proxyAbandon_of_live ha hst hkind⟩,
    fun s n v hkind => ⟨exec_proxyUpdate_of_other hkind v, exec_proxyAbandon_of_other hkind⟩,
    fun s n kind => ⟨_, rfl, State.heardFrom_frame .., fun hsrc => State.heardFrom_of_none hsrc kind⟩, fun s host ha hscan => ?scan, fun s k c h hp => ?read⟩
  case scan =>
    obtain ⟨w, hnone, hepoch, hrep⟩ := wfgScanEnd_of_scan hscan host
    have hfen : (wfgScanEnd host s).fen = { s.fen with wfg := w } := by rw [hrep.frame]
    refine ⟨_, congrArg Host.Outcome.next (State.live_of_alive ha _), ?_, by rw [hfen, hnone], by rw [hfen, hepoch], hrep.next⟩
    rw [hfen]
    exact hrep.frame
  case read => exact fun hfits => exec_of_serves h ((runWfgRead_of_passes hp).trans (State.answer_of_fits hfits)) rfl
  all_goals
    rw [exec_proxyUpdate_of_live ha hst hkind, hj]

end Sys2Proof.Machine

/-! SUPPORT. Segments, and the drains of translations (O24, O25). -/

namespace Sys2Proof.Machine

variable {s t : State} {k : Take} {c : Cmd} {table : HostTable} {ws : List W64}

/-! ### SEG_SYNC and SEG_CHECK -/

theorem runSegLoad_of_passes (h : Passes (segLoadChecks table c s)) (ht : table = some ws) :
    (∀ i, s.badEntry (segDesc c) ws = some i → runSegLoad table c s = s.segFail c i) ∧
    (s.badEntry (segDesc c) ws = none → runSegLoad table c s =
      s.answer ((s.modSeg (segName c) fun _ => (segDesc c).withMapped (ws.map BitVec.toNat)).putWords c.part (segName c) 0 ws) c
        [(32, ws.length), (32, 0xFFFFFFFF)]) := by
  subst ht
  unfold runSegLoad
  rw [State.checked_of_passes h]
  exact ⟨fun i hi => by simp only [Option.getD_some, hi], fun hi => by simp only [Option.getD_some, hi]⟩

theorem runSegEntries_of_passes (h : Passes (segEntriesChecks table c s)) (ht : table = some ws) :
    (∀ i, s.badEntry (s.segAt (segName c)) ws = some i → runSegEntries table c s = s.segFail c (c.f 4 0 32 + i)) ∧
    (s.badEntry (s.segAt (segName c)) ws = none → runSegEntries table c s =
      let t := s.putWords c.part (segName c) (c.f 4 0 32) ws
      s.answer ((t.modSeg (segName c) fun g => g.withMapped (t.allWords c.part (segName c))).retryWaits (segName c)) c
        [(32, c.f 8 0 32), (32, 0xFFFFFFFF)]) := by
  subst ht
  unfold runSegEntries
  rw [State.checked_of_passes h]
  exact ⟨fun i hi => by simp only [Option.getD_some, hi], fun hi => by simp only [Option.getD_some, hi]⟩

theorem State.segFail_of_fits (i : Nat) (hspace : 8 ≤ c.space) :
    s.segFail c i = s.respond c.ref .rejectedInconsistent 0x0908 8 (pack [(32, 0), (32, i)]) none := by
  unfold State.segFail
  rw [if_pos hspace]

theorem State.drainTlb_of_quiet {f : Nat → Nat → Bool} {unload : Bool} (hspace : 8 ≤ c.space)
    (htiles : (t.dropTlb fun e => f e.seg e.page).movingUnder f = []) :
    s.drainTlb t c f unload = (t.dropTlb fun e => f e.seg e.page).respond c.ref .ok 0
      (([(32, 0), (32, if unload then 0xFFFFFFFF else 0)].map Prod.fst).sum / 8) (pack [(32, 0), (32, if unload then 0xFFFFFFFF else 0)]) none :=
  (if_pos htiles).trans (State.answer_of_fits (fits_of_le hspace (by simp)))

theorem State.drainTlb_of_moving {f : Nat → Nat → Bool} {unload : Bool} (hspace : 8 ≤ c.space)
    (htiles : (t.dropTlb fun e => f e.seg e.page).movingUnder f ≠ []) :
    s.drainTlb t c f unload =
      (let u := t.dropTlb fun e => f e.seg e.page
      { u with xl := { u.xl with drains := u.xl.drains ++ [⟨c.ref, u.movingUnder f, (u.movingUnder f).length, t.beat.tick, unload⟩] } }) :=
  (if_neg htiles).trans (State.background_of_fits hspace)

theorem runSegUnload_of_passes (h : Passes (segUnloadChecks c s)) :
    runSegUnload c s =
      s.drainTlb (((s.modSeg (segName c) fun _ => Seg.init).endWaits fun t => t.seg == segName c).stopMoves (segName c)) c
        (fun g _ => g == segName c) true := by
  unfold runSegUnload
  exact State.checked_of_passes h _

/-- The pages whose words in the table are not the host's (R347). -/
def Cmd.segDiff (c : Cmd) (s : State) (ws : List W64) : List Nat :=
  (ws.zipIdx.filter fun w => (s.tableWord c.part (segName c) (c.f 4 0 32 + w.2) .clean).2 != some w.1.toNat).map Prod.snd

theorem runSegCheck_of_passes (h : Passes (segCheckChecks table c s)) (ht : table = some ws) :
    (c.segDiff s ws = [] → runSegCheck table c s = s.answer s c [(32, c.f 8 0 32), (32, 0), (32, 0xFFFFFFFF), (32, 0)]) ∧
    (∀ i l, c.segDiff s ws = i :: l → runSegCheck table c s =
      s.answer s c [(32, c.f 8 0 32), (32, (c.segDiff s ws).length), (32, c.f 4 0 32 + i), (32, 0)]) := by
  subst ht
  have hrun : runSegCheck (some ws) c s = s.answer s c [(32, c.f 8 0 32), (32, (c.segDiff s ws).length), (32, match c.segDiff s ws with
      | [] => 0xFFFFFFFF
      | i :: _ => c.f 4 0 32 + i), (32, 0)] := by
    unfold runSegCheck
    exact State.checked_of_passes h _
  exact ⟨fun hdiff => by rw [hrun, hdiff, List.length_nil], fun i l hdiff => by rw [hrun, hdiff]⟩

/-- Settles O24. -/
theorem segmentCommands : Obligations.SegmentCommands := by
  refine ⟨fun s k c table ws h hop ht hp hspace => ?load, fun s k c table ws h hop ht hp hspace => ?entries, fun s k c h hop hp hspace => ?unload,
    fun s k c table ws h ht hp hspace => ?check⟩
  case load =>
    have hmine : (segOp c == 0 || segOp c == 3) = true := by rw [hop]; rfl
    obtain ⟨hbad, hgood⟩ := runSegLoad_of_passes hp ht
    refine ⟨fun i hi => exec_of_serves_mine h hmine ((hbad i hi).trans (State.segFail_of_fits i hspace)) rfl, fun hi => ?_⟩
    exact exec_of_serves_mine h hmine ((hgood hi).trans (State.answer_of_fits (fits_of_le hspace (by simp)))) rfl
  case entries =>
    have hmine : (segOp c == 1) = true := by rw [hop]; rfl
    obtain ⟨hbad, hgood⟩ := runSegEntries_of_passes hp ht
    refine ⟨fun i hi => exec_of_serves_mine h hmine ((hbad i hi).trans (State.segFail_of_fits _ hspace)) rfl, fun hi => ?_⟩
    exact exec_of_serves_mine h hmine ((hgood hi).trans (State.answer_of_fits (fits_of_le hspace (by simp)))) rfl
  case unload =>
    have hmine : (segOp c == 2) = true := by rw [hop]; rfl
    have hrun := runSegUnload_of_passes hp
    refine ⟨fun htiles => exec_of_serves_mine h hmine (hrun.trans (State.drainTlb_of_quiet hspace htiles)) rfl, fun htiles => ?_⟩
    exact ⟨_, exec_of_serves_mine h hmine (hrun.trans (State.drainTlb_of_moving hspace htiles)) rfl, rfl, _, rfl⟩
  case check =>
    obtain ⟨hsame, hdiffer⟩ := runSegCheck_of_passes hp ht
    refine ⟨fun hdiff => exec_of_serves h ((hsame hdiff).trans (State.answer_of_fits (fits_of_le hspace (by simp)))) rfl, fun i l hdiff => ?_⟩
    exact exec_of_serves h ((hdiffer i l hdiff).trans (State.answer_of_fits (fits_of_le hspace (by simp)))) rfl

/-! ### TLB_INVALIDATE -/

/-- The translations in the scope of a TLB_INVALIDATE (R348). -/
def Cmd.tlbCovers (c : Cmd) (s : State) (g page : Nat) : Bool :=
  if c.f 3 0 2 = 0 then decide (segKey c.part (c.f 0 0 16) 0 ≤ g ∧ g < segKey c.part (c.f 0 0 16) 0 + 16)
  else if c.f 3 0 2 = 1 then g == segName c
  else if c.f 3 0 2 = 2 then g == segName c && decide (c.f 4 0 32 ≤ page ∧ page < c.f 4 0 32 + c.f 8 0 32)
  else s.keyOf c.part g

/-- The state without the translations of sequences in its scope. -/
def Cmd.kvDropped (c : Cmd) (s : State) : State :=
  if c.f 3 0 2 = 0 then s.dropKv fun q => (s.seqAt q).ctx == c.f 0 0 16
  else if c.f 3 0 2 = 3 then s.dropKv fun q => (s.partAt c.part).record.hasSeq q else s

theorem Cmd.kvDropped_beat (c : Cmd) (s : State) : (c.kvDropped s).beat = s.beat := by
  unfold Cmd.kvDropped
  split
  · rfl
  · split
    · rfl
    · rfl

theorem runTlbInvalidate_of_passes (h : Passes (tlbInvalidateChecks c s)) :
    runTlbInvalidate c s = s.drainTlb (c.kvDropped s) c (c.tlbCovers s) false := by
  unfold runTlbInvalidate
  exact State.checked_of_passes h _

theorem tlbDrainEnd_of_drain {mb : Mailbox} {slot : Nat} {d : Drain} (hd : s.xl.drains.find? (fun d => d.ref.mb == mb && d.ref.slot == slot) = some d) :
    tlbDrainEnd mb slot s =
      if d.tiles.any fun i => (s.xl.tiles.get none i).isSome then s
      else { s with xl := { s.xl with drains := s.xl.drains.filter fun x => x != d } }.finish d.ref .ok 0 8
        (pack [(32, d.count), (32, if d.unload then 0xFFFFFFFF else (s.beat.tick - d.start).toNat)]) := by
  unfold tlbDrainEnd
  rw [hd]

/-- Settles O25. -/
theorem translationDrains : Obligations.TranslationDrains := by
  refine ⟨fun s k c h hp hspace => ?invalidate, fun s mb slot d ha hd => ⟨fun hnone => ?done, fun hmoving => ?waits⟩⟩
  case invalidate =>
    have hrun := runTlbInvalidate_of_passes hp
    refine ⟨fun htiles => exec_of_serves h (hrun.trans (State.drainTlb_of_quiet hspace htiles)) rfl, fun htiles => ?_⟩
    refine exec_of_serves h (hrun.trans ((State.drainTlb_of_moving hspace htiles).trans ?_)) rfl
    rw [Cmd.kvDropped_beat]
    rfl
  case done => exact congrArg Host.Outcome.next ((State.live_of_alive ha _).trans ((tlbDrainEnd_of_drain hd).trans (if_neg (by rw [hnone]; decide))))
  case waits => exact congrArg Host.Outcome.next ((State.live_of_alive ha _).trans ((tlbDrainEnd_of_drain hd).trans (if_pos hmoving)))

end Sys2Proof.Machine

/-! SUPPORT. Tiles, table walks, fault waits and the swap of a tier move (O26). -/

namespace Sys2Proof.Machine

variable {s : State}

/-! ### Tiles -/

theorem tile_of_waits {t : TileReq} (h : s.streamWaits t.engine = true) : tile t s = s := if_pos h

theorem tile_of_runs {t : TileReq} (h : s.streamWaits t.engine = false) :
    tile t s =
      let u := { t with tag := s.runTag t.engine t.tag }
      if s.pastRows u.engine u.tag then (s.badTag u.engine 1).endTileWith s.xl.nextTile u ⟨.faultRange, 0, 0⟩
      else ({ s with xl := { s.xl with nextTile := s.xl.nextTile + 1 } } : State).runTile s.xl.nextTile u :=
  if_neg (by rw [h]; decide)

/-- Only a row that the running batch has not is past its rows. -/
theorem State.pastRows_of_within {e : Nat} {tag : TileTag} (h : ∀ i b, tag = .row i → (s.engAt e).running = some (.batch b) → i < b.rows.length) :
    s.pastRows e tag = false := by
  unfold State.pastRows
  split
  · next i b hrun => exact decide_eq_false (Nat.not_le.2 (h i b rfl hrun))
  · rfl

theorem State.pastRows_of_past {e i : Nat} {b : Batch} (hrun : (s.engAt e).running = some (.batch b)) (hi : b.rows.length ≤ i) :
    s.pastRows e (.row i) = true := by
  unfold State.pastRows
  rw [hrun]
  exact decide_eq_true hi

/-! ### Table walks and fault waits -/

theorem State.walk_of_present {f p k page w : Nat} {ecc : EccEvent} (hw : (s.tableWord p k page ecc).2 = some w) (hp : entryPresent w = true) :
    (s.walk f p k page ecc).1 = (s.tableWord p k page ecc).1.stlbFill f ⟨p, k, page, entryPhys w, entryTier w⟩ := by
  unfold State.walk
  generalize s.tableWord p k page ecc = word at hw
  obtain ⟨t, v⟩ := word
  subst hw
  exact congrArg Prod.fst (if_pos hp)

theorem faultWaitExpiry_of_past {p slot : Nat} {x : FaultSlot} (hx : (s.migrateAt p).slots.get none slot = some x) (hlimit : x.limit ≤ x.frames) :
    (∀ t, s.xl.tiles.get none x.tile = some t → faultWaitExpiry p slot s = s.endWait x.tile t) ∧
    (s.xl.tiles.get none x.tile = none → faultWaitExpiry p slot s = s.freeFaultSlot p slot) := by
  unfold faultWaitExpiry
  simp only [hx, if_neg (Nat.not_lt.2 hlimit)]
  exact ⟨fun t ht => by rw [ht], fun ht => by rw [ht]⟩

/-! ### The swap of a tier move -/

section

variable {id w : Nat} {host : List LineData} {bad : List (Nat × EccEvent)} {a : Activity} (ha : s.actAt id = some a)

include ha

theorem tierMoveSwap_of_waits (h : a.complete = true ∨ a.paced = false ∨ s.movingUnder (fun g n => g == a.seg && n == a.page) ≠ []) :
    tierMoveSwap id host bad s = s := by
  unfold tierMoveSwap
  rw [ha]
  exact if_pos (by tauto)

/-- A move that is paid for, with nothing moving under its page, copies the page and points the entry at its destination (R351). -/
theorem tierMoveSwap_of_paid (hcode : a.code = 3) (hrun : a.running = true) (hdump : s.log.run = none) (hw : (s.tableWord a.part a.seg a.page .clean).2 = some w)
    (hc : a.complete = false) (hpaid : a.paced = true) (hquiet : s.movingUnder (fun g n => g == a.seg && n == a.page) = []) :
    tierMoveSwap id host bad s =
      (let o := s.copyPage a (entryPhys w) (entryTier w) host bad
      let phys := if a.destTier = 0 then a.dest else s.ownNode * 2 ^ 48 + localAddr a.dest
      let word := BitVec.ofNat 64 (phys / 65536 * 65536 + 2 * a.destTier + 1)
      let src := (s.segAt a.seg).keyFor (entryTier w)
      let fixed := if entryTier w = 0 then 0 else ((o.1.rangeAt src).fixed - (s.rangeAt src).fixed).toNat
      let t := (o.1.putWords a.part a.seg a.page [word]).hostWrite ((s.segAt a.seg).host + 8 * a.page) (some (s.partAt a.part).record.hostPasid) 8 word.toNat
      let t := (t.dropTlb fun e => e.seg == a.seg && e.page == a.page).modAct id fun x =>
        { x with complete := true, lines := (s.segAt a.seg).pageSize / 128, fixed := fixed, poisoned := o.2 }
      t.releaseMove id) := by
  unfold tierMoveSwap
  rw [ha]
  dsimp only
  rw [if_neg (by simp [hcode, hrun, hdump, hc, hpaid, hquiet]), hw]

end

/-- Settles O26. A stream that waits holds its tiles (DEDUCED, notes/assumptions/94.md), a swap waits for the tiles under its page (DEDUCED,
notes/assumptions/22.md) and for the bucket that pays for it (DESIGN CHOICE, notes/assumptions/53.md). -/
theorem tilesAndWalks : Obligations.TilesAndWalks := by
  refine ⟨fun s t halive => ⟨fun hwait => ?held, fun hgo hin => ?run, fun i b hgo htag hrun hi => ?past⟩,
    fun s f p key page w ecc halive hkey hvalid hpage hf hw hp => ?walk, fun s p slot x halive hx hlimit => ?expiry,
    fun s id host bad a w halive ha hcode hrun hdump hw => ⟨fun hc hpaid hquiet => ?swap, fun hwait => ?wait⟩⟩
  case held => exact congrArg Host.Outcome.next ((State.live_of_alive halive _).trans (tile_of_waits hwait))
  case run =>
    refine congrArg Host.Outcome.next ((State.live_of_alive halive _).trans ((tile_of_runs hgo).trans (if_neg ?_)))
    rw [State.pastRows_of_within hin]
    decide
  case past =>
    refine congrArg Host.Outcome.next ((State.live_of_alive halive _).trans ((tile_of_runs hgo).trans (if_pos ?_)))
    rw [htag]
    exact State.pastRows_of_past hrun hi
  case walk =>
    refine congrArg Host.Outcome.next ((State.live_of_alive halive _).trans ((if_pos ?_).trans (State.walk_of_present hw hp)))
    simp [hkey, hvalid, hpage, hf]
  case expiry =>
    obtain ⟨hsome, hnone⟩ := faultWaitExpiry_of_past hx hlimit
    exact ⟨fun t ht => congrArg Host.Outcome.next ((State.live_of_alive halive _).trans (hsome t ht)),
      fun ht => congrArg Host.Outcome.next ((State.live_of_alive halive _).trans (hnone ht))⟩
  case swap =>
    exact ⟨_, _, _, rfl, rfl, congrArg Host.Outcome.next ((State.live_of_alive halive _).trans (tierMoveSwap_of_paid ha hcode hrun hdump hw hc hpaid hquiet))⟩
  case wait => exact congrArg Host.Outcome.next ((State.live_of_alive halive _).trans (tierMoveSwap_of_waits ha hwait))

end Sys2Proof.Machine

/-! SUPPORT. Lines at a lane (O27). -/

namespace Sys2Proof.Machine

variable {s t : State} {r l tweak : Nat}

/-- From one state to another the lines stay, and range `r` opens the same generations with the same keys. -/
structure SameSeal (r : Nat) (s t : State) : Prop where
  line : t.mem.line = s.mem.line
  sec : t.sec = s.sec
  gen : (t.rangeAt r).keyGen = (s.rangeAt r).keyGen
  slot : (t.rangeAt r).keySlot = (s.rangeAt r).keySlot
  skim : t.skimOn r = s.skimOn r

theorem SameSeal.refl (s : State) : SameSeal r s s := ⟨rfl, rfl, rfl, rfl, rfl⟩

/-- An operation on other units. -/
theorem SameSeal.of_eq {u : State} (h : SameSeal r s t) (hl : u.mem.line = t.mem.line) (hs : u.sec = t.sec) (hr : u.mem.range = t.mem.range)
    (ha : u.mem.acts = t.mem.acts) : SameSeal r s u :=
  ⟨hl.trans h.line, hs.trans h.sec, by rw [State.rangeAt, hr]; exact h.gen, by rw [State.rangeAt, hr]; exact h.slot,
    by rw [State.skimOn, ha]; exact h.skim⟩

theorem SameSeal.ite {c : Prop} [Decidable c] {u : State} (ht : SameSeal r s t) (hu : SameSeal r s u) : SameSeal r s (if c then t else u) := by
  split
  · exact ht
  · exact hu

theorem SameSeal.dirtyMark (h : SameSeal r s t) (n a : Nat) : SameSeal r s (t.dirtyMark n a) := by
  refine .ite h ?_
  split
  · exact .ite (h.of_eq rfl rfl rfl rfl) (h.of_eq rfl rfl rfl rfl)
  · exact h

/-- A count in a range's entry is no key. -/
theorem SameSeal.modRange (h : SameSeal r s t) (n : Nat) {f : Range → Range} (hg : ∀ x, (f x).keyGen = x.keyGen) (hk : ∀ x, (f x).keySlot = x.keySlot) :
    SameSeal r s (t.modRange n f) := by
  have hat := State.rangeAt_modRange t n r f
  refine ⟨h.line, h.sec, ?_, ?_, h.skim⟩
  · rw [hat, ← h.gen]
    split
    · next e => rw [hg, e]
    · rfl
  · rw [hat, ← h.slot]
    split
    · next e => rw [hk, e]
    · rfl

/-- An activity that is queued runs no SKIM. -/
theorem SameSeal.addAct (h : SameSeal r s t) {a : Activity} (ha : a.running = false) : SameSeal r s (t.addAct a) := by
  refine ⟨h.line, h.sec, h.gen, h.slot, ?_⟩
  rw [← h.skim]
  simp [State.skimOn, State.addAct, List.find?_append, ha]

theorem SameSeal.raiseSkim (h : SameSeal r s t) (n : Nat) : SameSeal r s (t.raiseSkim n) := by
  have hraised := h.modRange n (f := fun x => { x with raised := true }) (fun _ => rfl) fun _ => rfl
  exact .ite h (.ite hraised (.ite (hraised.of_eq rfl rfl rfl rfl) (hraised.addAct rfl)))

theorem State.newestGen_of_same (h : SameSeal r s t) : t.newestGen r = s.newestGen r := by
  rw [State.newestGen, State.newestGen, h.skim, h.gen]

theorem State.genKey_of_same (h : SameSeal r s t) (g : Nat) : t.genKey r g = s.genKey r g := by
  have hmat : ∀ n, t.pairMat n = s.pairMat n := fun n => by simp only [State.pairMat, State.slotMat, h.sec]
  rw [State.genKey, State.genKey, h.skim, h.gen, h.slot]
  simp only [hmat]

/-! ### A whole write -/

/-- The line that a whole write stores (R364, R368). -/
def State.sealedLine (s : State) (r l : Nat) (data : LineData) (tweak : Nat) : Line :=
  let g := s.newestGen r
  let n := if (s.lineAt l).st == .valid && (s.lineAt l).gen == g then min ((s.lineAt l).wcount + 1) 65535 else 1
  ⟨data, .valid, g, n, .sealed ((s.genKey r g).getD 0) (lineTweak l tweak g n), false⟩

/-- A use of a tag line changes what the tag cache holds, and its traffic. -/
theorem SameSeal.countControl (h : SameSeal r s t) (a n : Nat) : SameSeal r s (t.countControl a n) :=
  h.of_eq rfl rfl rfl rfl

theorem SameSeal.tagUse (h : SameSeal r s t) (l : Nat) (write : Bool) : SameSeal r s (t.tagUse l write) := by
  unfold State.tagUse
  extract_lets f u c d d' out v
  have hu : SameSeal r s u := .ite h (h.countControl _ _)
  clear_value u
  have hv : SameSeal r s v := .ite (hu.countControl _ _) hu
  clear_value v
  exact .ite (hv.of_eq rfl rfl rfl rfl) (hu.of_eq rfl rfl rfl rfl)

theorem SameSeal.putLine (h : SameSeal r s t) (l : Nat) (v : Line) : SameSeal r (s.putLine l v) (t.putLine l v) :=
  ⟨by simp only [State.putLine, h.line], h.sec, h.gen, h.slot, h.skim⟩

theorem State.writeLine_same (s : State) (r l : Nat) (data : LineData) (tweak : Nat) :
    SameSeal r (s.putLine l (s.sealedLine r l data tweak)) (s.writeLine r l data tweak) := by
  unfold State.writeLine
  extract_lets old g same n put marked frozen
  have hput : SameSeal r (s.putLine l (s.sealedLine r l data tweak)) put := ((SameSeal.refl s).tagUse l true).putLine l _
  have hmarked : SameSeal r (s.putLine l (s.sealedLine r l data tweak)) marked := .ite hput (hput.dirtyMark _ _)
  have hfrozen : SameSeal r (s.putLine l (s.sealedLine r l data tweak)) frozen := .ite (hmarked.modRange r (fun _ => rfl) fun _ => rfl) hmarked
  exact .ite (hfrozen.raiseSkim r) hfrozen

theorem State.lineAt_writeLine (s : State) (r l : Nat) (data : LineData) (tweak m : Nat) :
    (s.writeLine r l data tweak).lineAt m = if l = m then s.sealedLine r l data tweak else s.lineAt m := by
  rw [State.lineAt, (s.writeLine_same r l data tweak).line]
  exact Tab.get_put ..

theorem State.genKey_putLine (s : State) (l : Nat) (v : Line) (r g : Nat) : (s.putLine l v).genKey r g = s.genKey r g := rfl

/-- What was stored opens again under the same key. -/
theorem State.opened_writeLine (h : (s.genKey r (s.newestGen r)).isSome = true) (data : LineData) :
    (s.writeLine r l data tweak).opened r l (s.sealedLine r l data tweak) tweak = some data := by
  obtain ⟨key, hkey⟩ := Option.isSome_iff_exists.1 h
  rw [State.opened, State.genKey_of_same (s.writeLine_same r l data tweak), State.genKey_putLine]
  simp only [State.sealedLine, hkey, Option.bind_some, Option.getD_some]
  exact if_pos rfl

/-! ### Reads -/

theorem State.bareRead_of_clear {base : Bool} (h : (s.lineAt l).st = .clear) : s.bareRead r l tweak .clean base = ⟨s, 0, .ok, 0, false, false⟩ := by
  simp [State.bareRead, h]

theorem State.bareRead_of_poisoned {base : Bool} {ecc : EccEvent} (h : (s.lineAt l).st = .poisoned) : (s.bareRead r l tweak ecc base).status = .poisoned := by
  unfold State.bareRead
  simp only [h, beq_self_eq_true, Bool.or_true, Bool.true_or, if_true]
  split
  · rfl
  · split
    · rfl
    · rfl

theorem State.bareRead_of_opened {base : Bool} {data : LineData} (h : (s.lineAt l).st = .valid) (ho : s.opened r l (s.lineAt l) tweak = some data) :
    s.bareRead r l tweak .clean base = ⟨s, data, .ok, 0, false, false⟩ := by
  simp [State.bareRead, h, ho]

/-- Settles O27: a whole write seals its bytes under the newest key whatever the line held, and the read after it opens that seal (R367–R371). -/
theorem linesReadAsWritten : Obligations.LinesReadAsWritten := by
  refine ⟨fun s r l tw base h => ?clear, fun s r l tw ecc base h => State.bareRead_of_poisoned h, fun s r l tw d ecc => ?write, fun s r l tw d m ecc hm h => ?partial_⟩
  case clear =>
    rw [State.bareRead_of_clear h]
    exact ⟨rfl, rfl, rfl⟩
  case write =>
    have hwrite : s.bareWrite r l tw d (BitVec.allOnes 128) ecc = ⟨s.writeLine r l d tw, 0, .ok, 0, false, false⟩ := by
      unfold State.bareWrite
      exact if_pos rfl
    have hline := (s.lineAt_writeLine r l d tw l).trans (if_pos rfl)
    rw [hwrite]
    refine ⟨rfl, congrArg Line.data hline, congrArg Line.st hline, fun m hm => (s.lineAt_writeLine r l d tw m).trans (if_neg hm.symm), fun hkey base => ?_⟩
    rw [State.bareRead_of_opened (congrArg Line.st hline) (by rw [hline]; exact State.opened_writeLine hkey d)]
    exact ⟨rfl, rfl, rfl⟩
  case partial_ =>
    have hwrite : s.bareWrite r l tw d m ecc = ⟨s, 0, .poisoned, 0, false, false⟩ := (if_neg hm).trans (if_pos (by rw [h]; rfl))
    rw [hwrite]
    exact ⟨rfl, rfl⟩

end Sys2Proof.Machine

/-! SUPPORT. O28: a request at the lane of its line, a peer's request, refusals and the fill of a tag line. -/
namespace Sys2Proof.Machine

variable {s t : State} {g x : GateReq} {k : Nat}

/-! ### The queue of a lane -/

/-- The lane of a request's line: the one that the line's first request named. -/
def State.laneFor (s : State) (x : GateReq) : Nat :=
  18 * lineField (localAddr x.addr) + (s.mem.laneOf.get none (localAddr x.addr / 128)).getD x.lane

/-- The state in which a request has joined its lane's queue and its bucket has noted the wait. -/
def State.queued (s : State) (x : GateReq) (dl : Nat) : State :=
  ({ s with mem := { s.mem with
      lanes := s.mem.lanes.put [] (s.laneFor x) (s.laneAt (s.laneFor x) ++ [⟨x, dl, s.beat.tick.toNat⟩])
      laneOf := s.mem.laneOf.put none (localAddr x.addr / 128) (some ((s.mem.laneOf.get none (localAddr x.addr / 128)).getD x.lane)) } } : State).noteWait x

theorem State.enterLane_of_noCredit {dl : Nat} (h : s.creditLeft (s.laneFor x) x.who = false) : s.enterLane x dl = s := if_pos h

theorem State.enterLane_of_credit {dl : Nat} (h : s.creditLeft (s.laneFor x) x.who = true) :
    s.enterLane x dl = (s.queued x dl).serveLane (s.laneFor x) (s.laneAt (s.laneFor x) ++ [(⟨x, dl, s.beat.tick.toNat⟩ : Held)]).length :=
  if_neg (by simp [State.laneFor] at h ⊢; simp [h])

theorem State.serveLane_of_none (h : s.laneNext k = none) (n : Nat) : s.serveLane k n = s := by
  cases n with
  | zero => rfl
  | succ n => simp [State.serveLane, h]

theorem State.serveLane_one {h : Held} (hn : s.laneNext k = some h) : s.serveLane k 1 = (s.leaveLane k h).answerGate h := by
  simp [State.serveLane, hn]

theorem State.noteWait_tick (s : State) (x : GateReq) : (s.noteWait x).beat = s.beat := by
  unfold State.noteWait
  extract_lets a
  split <;> rfl

theorem State.queued_beat (s : State) (x : GateReq) (dl : Nat) : (s.queued x dl).beat = s.beat := State.noteWait_tick ..

theorem State.leaveLane_beat (s : State) (h : Held) : (s.leaveLane k h).beat = s.beat := rfl

/-- A lane that picks a request in the tick in which it came serves it as it came. -/
theorem State.answerGate_of_now {dl tick : Nat} (ht : tick = s.beat.tick.toNat) (hwho : ∀ node span port cls, x.who ≠ .peer node span port cls) :
    s.answerGate ⟨x, dl, tick⟩ = ((s.gate x).1.reply x (s.gate x).2.1 (s.gate x).2.2).endTile x := by
  unfold State.answerGate State.answerWith
  simp only [ht, beq_self_eq_true, Bool.and_true]

theorem State.answerGate_of_peer {dl tick node span port cls : Nat} (ht : tick = s.beat.tick.toNat) (hwho : x.who = .peer node span port cls) :
    s.answerGate ⟨x, dl, tick⟩ =
      (let o := s.gate x
       let c := (s.charged x.who (localAddr x.addr) x.sel.tweak).getD ⟨0xFF, 0, 0⟩
       let n := if o.2.1 = .faultRange then 0 else accessBytes x.acc
       let t := if isWrite x.acc && n != 0 then o.1.countLink c.part c.ctx port n false else o.1
       t.portSend port ⟨c.part, c.ctx, 0, if isWrite x.acc then 0 else n, dl, .answer port o.2.1 (s.failReason x o.2.1) o.2.2⟩) := by
  unfold State.answerGate
  simp only [ht, beq_self_eq_true, Bool.and_true]
  split
  next h =>
    cases hwho.symm.trans h
    rfl
  next h => exact absurd hwho (h _ _ _ _)

/-! ### Requests of engines and of peers -/

theorem State.oneTag_addr (s : State) (g : GateReq) : (s.oneTag g).addr = g.addr := by
  unfold State.oneTag
  split <;> rfl

theorem gateRequest_of_away (h : addrNode g.addr ≠ s.ownNode) : gateRequest g s = s := by
  unfold gateRequest
  exact if_pos (by rwa [State.oneTag_addr])

theorem gateRequest_of_formed (hnode : addrNode g.addr = s.ownNode) (hx : s.formed (s.oneTag g) = some x)
    (hrun : ∀ e tag, reqTag (s.oneTag g).who = some (e, tag) → s.pastRows e tag = false ∧ (s.reqPart (s.oneTag g).who).isSome = true) :
    gateRequest g s = s.enterLane x (s.reqDl (s.oneTag g).who) := by
  unfold gateRequest
  extract_lets g'
  have hg : addrNode g'.addr = s.ownNode := (congrArg addrNode (s.oneTag_addr g)).trans hnode
  simp only [g', hg, ne_eq, not_true_eq_false, if_false, hx]
  cases hr : reqTag (s.oneTag g).who with
  | none => rfl
  | some et =>
    obtain ⟨e, tag⟩ := et
    obtain ⟨hpast, hpart⟩ := hrun e tag hr
    have hsome : (s.reqPart (s.oneTag g).who).isNone = false := by
      rw [← Option.not_isSome, hpart]
      rfl
    simp [hpast, hsome]

theorem linkRequest_of_up {node span port cls deadline : Nat} {drift : Bool} (hwho : g.who = .peer node span port cls)
    (hup : (s.net.ports.get Port.init port).up = true) (hnode : addrNode g.addr = s.ownNode) :
    linkRequest g deadline drift s = s.enterLane g (if drift || (s.net.ports.get Port.init port).drift then 0 else s.readDl deadline) := by
  unfold linkRequest
  simp [hwho, hup, hnode]

/-! ### Refusals and tag lines -/

theorem State.gate_of_step {n : Nat} (h : s.gateStep g.who (localAddr g.addr) g.sel (isWrite g.acc) = some n) :
    s.gate g = (s.gateRefuse g.who (localAddr g.addr) n, .faultRange, 0) := by
  simp [State.gate, h]

theorem State.gateRefuse_frame {who : Requester} (h : reqTag who = none) (a n : Nat) :
    (s.gateRefuse who a n).mem.line = s.mem.line ∧ (s.gateRefuse who a n).reg = s.reg := by
  unfold State.gateRefuse State.gateFail
  simp only [h]
  split
  · split <;> exact ⟨rfl, rfl⟩
  · split
    next hn => cases hn
    next => exact ⟨rfl, rfl⟩

theorem mem_touch (l : List Nat) (n : Nat) : n ∈ touch l n := by simp [touch]

/-- A touched entry survives when the least recent one leaves a list that holds another. -/
theorem mem_drop_touch {l : List Nat} {n : Nat} (h : 1 < (touch l n).length) : n ∈ (touch l n).drop 1 := by
  unfold touch at h ⊢
  cases hf : l.filter (· != n) with
  | nil => simp [hf] at h
  | cons a r => simp

theorem State.countControl_frame (s : State) (a n : Nat) :
    (s.countControl a n).mem = s.mem ∧ (s.countControl a n).chip = s.chip := ⟨rfl, rfl⟩

theorem State.tagUse_frame (s : State) (l : Nat) (write : Bool) :
    (s.tagUse l write).mem.line = s.mem.line ∧ (s.tagUse l write).mem.range = s.mem.range ∧ (s.tagUse l write).chip = s.chip := by
  unfold State.tagUse
  extract_lets f u c d d' out v
  have hu : u.mem.line = s.mem.line ∧ u.mem.range = s.mem.range ∧ u.chip = s.chip := by
    unfold u
    obtain ⟨hm, hc⟩ := s.countControl_frame (l * 128) 128
    split
    · exact ⟨rfl, rfl, rfl⟩
    · exact ⟨congrArg Mem.line hm, congrArg Mem.range hm, hc⟩
  clear_value u
  have hv : v.mem.line = s.mem.line ∧ v.mem.range = s.mem.range ∧ v.chip = s.chip := by
    unfold v
    obtain ⟨hm, hc⟩ := u.countControl_frame (out * 2048) 128
    split
    · exact ⟨(congrArg Mem.line hm).trans hu.1, (congrArg Mem.range hm).trans hu.2.1, hc.trans hu.2.2⟩
    · exact hu
  clear_value v
  split
  · exact hv
  · exact hu

theorem State.tagHeld_tagUse (s : State) (l : Nat) (write : Bool) : (s.tagUse l write).tagHeld l = true := by
  unfold State.tagUse State.tagHeld
  extract_lets f u c d d' out v
  clear_value u v
  rw [List.contains_iff_mem]
  split
  next h =>
    rw [show f = lineField (l * 128) from rfl]
    simp only [Tab.get_put_self]
    exact mem_drop_touch (by unfold tagCacheSize at h; exact lt_trans (by decide) h)
  next =>
    simp only [f, Tab.get_put_self]
    exact mem_touch ..

theorem State.tagFetch_clean (s : State) (a : Nat) : s.tagFetch a .clean = s.tagUse (a / 128) false := by
  unfold State.tagFetch
  extract_lets l t
  split
  · rfl
  · split
    · exact if_pos rfl
    · split <;> simp [t, l]

/-- Settles O28: a request joins its line's lane (R200, R224), which serves what it can pick (R29; the lane that the line's first request named
is the model's choice, notes/assumptions/81.md); a refusal moves no byte (R352), and a clean tag line comes in unchanged (R374). -/
theorem gateRequests : Obligations.GateRequests := by
  refine ⟨fun s g x ha hnode hx hrun => ?_, fun s g hnode => ?_, fun s g node span port cls deadline drift ha hwho hup hnode => ?_,
    fun s g n h => ?_, fun s a ha h => ?_⟩
  · have hstep : exec (.gateRequest g) s = .next (s.enterLane x (s.reqDl (s.oneTag g).who)) :=
      congrArg Host.Outcome.next ((State.live_of_alive ha _).trans (gateRequest_of_formed hnode hx hrun))
    rw [hstep]
    refine ⟨fun hc => ?_, fun hc hn => ?_, fun hc hl hn hwho => ?_⟩
    · exact congrArg _ (State.enterLane_of_noCredit hc)
    · exact congrArg _ ((State.enterLane_of_credit hc).trans (State.serveLane_of_none hn _))
    · refine congrArg _ ((State.enterLane_of_credit hc).trans ?_)
      rw [show s.laneAt (s.laneFor x) = [] from hl]
      refine (State.serveLane_one hn).trans ?_
      exact State.answerGate_of_now (congrArg (fun b => b.tick.toNat) (State.queued_beat s x _).symm) hwho
  · exact congrArg Host.Outcome.next (by unfold State.live; rw [gateRequest_of_away hnode]; split <;> rfl)
  · have hstep : exec (.linkRequest g deadline drift) s = .next (s.enterLane g (if drift || (s.net.ports.get Port.init port).drift then 0 else s.readDl deadline)) :=
      congrArg Host.Outcome.next ((State.live_of_alive ha _).trans (linkRequest_of_up hwho hup hnode))
    have hc : s.creditLeft (s.laneFor g) g.who = true := by simp [State.creditLeft, hwho, creditUnit]
    rw [hstep]
    refine ⟨fun hn => ?_, fun hl hn => ?_⟩
    · exact congrArg _ ((State.enterLane_of_credit hc).trans (State.serveLane_of_none hn _))
    · refine congrArg _ ((State.enterLane_of_credit hc).trans ?_)
      rw [show s.laneAt (s.laneFor g) = [] from hl]
      refine (State.serveLane_one hn).trans ?_
      exact State.answerGate_of_peer (congrArg (fun b => b.tick.toNat) (State.queued_beat s g _).symm) hwho
  · rw [State.gate_of_step h]
    exact ⟨rfl, fun hwho => State.gateRefuse_frame (by rcases hwho with h | h <;> rw [h] <;> rfl) _ _⟩
  · have hfill : exec (.tagFill a .clean) s = .next (s.tagUse (a / 128) false) := by
      refine congrArg Host.Outcome.next ((State.live_of_alive ha _).trans ?_)
      rw [if_pos (by simpa using h), State.tagFetch_clean]
    exact ⟨_, hfill, State.tagHeld_tagUse .., State.tagUse_frame ..⟩

end Sys2Proof.Machine

/-! SUPPORT. O29: maintenance activities and the end of a range's clearing. -/
namespace Sys2Proof.Machine

variable {s : State} {c : Cmd}

theorem runMaintStart_of_start (h : Passes (maintStartChecks c s)) (hcode : c.f 0 0 8 ≠ 3) (hs : c.f 0 0 8 ≠ 2 ∨ s.queuedSkim (c.f 1 0 7) = none) :
    runMaintStart c s = s.startActivity s c { Activity.new (c.f 0 0 8) [c.f 1 0 7] c.part with
      skimSlot := if c.f 2 0 16 = 0xFFFF then (s.rangeAt (c.f 1 0 7)).skimSlot else c.f 2 0 16 } 32 := by
  unfold runMaintStart
  refine (State.checked_of_passes h _).trans ?_
  rw [if_neg hcode]
  have hnone : (if c.f 0 0 8 = 2 then s.queuedSkim (c.f 1 0 7) else none) = none := by
    split
    next h2 => exact hs.resolve_left (not_not_intro h2)
    next => rfl
  dsimp only
  rw [hnone]

theorem runMaintStart_of_skim {old : Activity} (h : Passes (maintStartChecks c s)) (hcode : c.f 0 0 8 = 2) (hs : s.queuedSkim (c.f 1 0 7) = some old) :
    runMaintStart c s = s.replaceSkim c old { Activity.new (c.f 0 0 8) [c.f 1 0 7] c.part with
      skimSlot := if c.f 2 0 16 = 0xFFFF then (s.rangeAt (c.f 1 0 7)).skimSlot else c.f 2 0 16 } := by
  unfold runMaintStart
  refine (State.checked_of_passes h _).trans ?_
  simp [hcode, hs]

/-- The page that a TIER_MOVE names lies in a valid segment (R345). -/
theorem maintStart_move_page (h : Passes (maintStartChecks c s)) (hcode : c.f 0 0 8 = 3) :
    (s.segAt (segKey c.part (c.f 4 0 16) (c.f 7 0 4))).valid = true ∧ c.f 8 0 32 < (s.segAt (segKey c.part (c.f 4 0 16) (c.f 7 0 4))).pages := by
  have hmove : ∃ word, ∀ x ∈ moveChecks c s (segKey c.part (c.f 4 0 16) (c.f 7 0 4)) (c.f 8 0 32) (c.f 16 0 64) (c.f 7 4 2) word, x.1 = true :=
    ⟨_, fun x hx => passes_iff.1 h x (List.mem_append_right _ (by rw [if_pos hcode]; exact hx))⟩
  obtain ⟨word, hall⟩ := hmove
  have hpage := hall _ (List.mem_append_right _ (List.mem_cons_self ..))
  simp only [Bool.and_eq_true, decide_eq_true_eq] at hpage
  obtain ⟨⟨⟨hvalid, -⟩, hlt⟩, -⟩ := hpage
  exact ⟨hvalid, hlt⟩

theorem runMaintStart_of_move {w : Nat} (h : Passes (maintStartChecks c s)) (hcode : c.f 0 0 8 = 3)
    (hw : (s.tableWord c.part (segKey c.part (c.f 4 0 16) (c.f 7 0 4)) (c.f 8 0 32) .clean).2 = some w) :
    runMaintStart c s =
      (let n := segKey c.part (c.f 4 0 16) (c.f 7 0 4)
       let g := s.segAt n
       let src := if entryTier w = 0 then [] else [g.keyFor (entryTier w)]
       let dst := if c.f 7 4 2 = 0 then [] else [g.keyFor (c.f 7 4 2)]
       s.startActivity s c { Activity.new 3 (src ++ dst) c.part with
         seg := n, page := c.f 8 0 32, destTier := c.f 7 4 2, dest := c.f 16 0 64 } 32) := by
  unfold runMaintStart
  refine (State.checked_of_passes h _).trans ?_
  have hword : (if c.f 0 0 8 = 3 ∧ (s.segAt (segKey c.part (c.f 4 0 16) (c.f 7 0 4))).valid = true ∧
      c.f 8 0 32 < (s.segAt (segKey c.part (c.f 4 0 16) (c.f 7 0 4))).pages
      then (s.tableWord c.part (segKey c.part (c.f 4 0 16) (c.f 7 0 4)) (c.f 8 0 32) .clean).2 else none) = some w :=
    (if_pos ⟨hcode, maintStart_move_page h hcode⟩).trans hw
  rw [hword]
  exact if_pos hcode

/-- What MAINT_QUERY answers of a range (R388). -/
def State.maintView (s : State) (r : Nat) : List (Nat × Nat) :=
  let x := s.rangeAt r
  let acts := s.mem.acts.filter fun a => a.ranges.contains r
  let codes := fun (f : Activity → Bool) => ((List.range 6).map fun i => bit (acts.any fun a => a.code == i + 1 && f a) * 2 ^ i).sum
  let bad := (s.linesIn r).filter fun l => (s.lineAt l).st == .poisoned || (s.lineAt l).st == .shared
  [(7, r), (1, 0), (2, rangeCode x.st), (1, bit x.act), (2, x.keyGen), (1, bit x.overflow), (2, 0), (8, x.owner), (8, 0),
    (16, x.keySlot), (16, x.skimSlot), (64, x.base), (64, x.len), (6, codes Activity.running + 32 * bit s.log.run.isSome), (2, 0), (6, codes fun a => !a.running), (2, 0),
    (8, x.lost.length), (8, 0), (32, ((acts.find? fun a => a.running).map Activity.progress).getD 0), (64, x.frozen), (32, s.frozenLines r),
    (32, bad.length), (32, x.mismatch.toNat), (32, x.fixed.toNat), (32, x.blocked.toNat), (32, 0)]

theorem State.maintView_bits (s : State) (r : Nat) : ((s.maintView r).map Prod.fst).sum = 512 := by simp [State.maintView]

theorem runMaintQuery_of_passes (h : Passes (maintQueryChecks c s)) : runMaintQuery c s = s.answer s c (s.maintView (c.f 0 0 7)) := by
  unfold runMaintQuery
  exact State.checked_of_passes h _

theorem parkedResume_of_parked {mb : Mailbox} {slot : Nat} {a : Activity} (hst : ((s.mbAt mb).slotAt slot).st = .parked)
    (ha : s.mem.acts.find? (fun a => a.running && a.parked && a.ref == some ⟨mb, slot, ((s.mbAt mb).slotAt slot).ticket⟩) = some a) :
    parkedResume mb slot s =
      (s.modMb mb fun b => b.modSlot slot fun x => { x with st := .running }).modAct a.id fun a => { a with parked := false } := by
  unfold parkedResume
  extract_lets x
  rw [show x = (s.mbAt mb).slotAt slot from rfl, ha]
  exact if_pos hst

/-! ### The end of a range's clearing -/

/-- What clearing leaves of a line of the memory (R379). -/
def clearedLine (base len l : Nat) (v : Line) : Line :=
  if base ≤ l * 128 ∧ l * 128 < base + len then { v with st := .clear, gen := 0, wcount := 0, lost := false }
  else if base + len ≤ l * 128 ∧ l * 128 < base + len + len / 16 then Line.init else v

theorem clearedLine_init (base len l : Nat) : clearedLine base len l Line.init = Line.init := by
  unfold clearedLine
  split
  · rfl
  · split <;> rfl

theorem State.lineAt_clearLines (h : s.linesWf = true) (base len l : Nat) : (s.clearLines base len).lineAt l = clearedLine base len l (s.lineAt l) :=
  Tab.get_mapAll (clearedLine base len) l (clearedLine_init base len l) h

/-- What the end of its clearing leaves of a range. -/
def Range.cleared (x : Range) : Range := { x with st := .free, owner := 0xFF, released := none }

theorem rangeClearingDone_of_clearing {r : Nat} (h : (s.rangeAt r).st = .clearing) :
    rangeClearingDone r s =
      ((s.clearLines (s.rangeAt r).base (s.rangeAt r).len).countControl (s.rangeAt r).base ((s.rangeAt r).len / 16)).modRange r Range.cleared :=
  if_neg (not_not_intro h)

theorem State.countControl_eq (s : State) (a n : Nat) : s.countControl a n = { s with obs := (s.countControl a n).obs } := rfl

theorem rangeClearingDone_frame {r : Nat} (h : (s.rangeAt r).st = .clearing) :
    ∃ t, rangeClearingDone r s = t ∧ t = { s with mem := { s.mem with range := t.mem.range, line := t.mem.line, extents := t.mem.extents }, obs := t.obs } ∧
      t.rangeAt r = (s.rangeAt r).cleared ∧ (∀ q, q ≠ r → t.rangeAt q = s.rangeAt q) ∧
      (s.linesWf = true → ∀ l, t.lineAt l = clearedLine (s.rangeAt r).base (s.rangeAt r).len l (s.lineAt l)) := by
  rw [rangeClearingDone_of_clearing h, State.countControl_eq]
  generalize State.obs (State.countControl _ _ _) = obs
  exact ⟨_, rfl, rfl, State.rangeAt_modRange_self .., fun q hq => (State.rangeAt_modRange ..).trans (if_neg hq.symm),
    fun hwf l => State.lineAt_clearLines hwf _ _ l⟩

/-- Settles O29: an activity starts on its ranges (R384), a query only answers (R388), a parked slot runs again (R62), and a cleared range
is FREE with its lines CLEAR (R379). -/
theorem maintenanceCommands : Obligations.MaintenanceCommands := by
  refine ⟨fun s k c hserves hp hcode => ⟨fun hs => ?_, fun old hcode2 hs => ?_⟩, fun s k c w hserves hp hcode => ?_, fun s k c hserves hp hspace => ?_,
    fun s mb slot a halive hst ha => ?_, fun s r halive hst => ?_⟩
  · exact exec_of_serves hserves (runMaintStart_of_start hp hcode hs) rfl
  · exact exec_of_serves hserves (runMaintStart_of_skim hp hcode2 hs) rfl
  · exact fun hw => exec_of_serves hserves (runMaintStart_of_move hp hcode hw) rfl
  · exact ⟨_, exec_of_serves hserves ((runMaintQuery_of_passes hp).trans (State.answer_of_fits (fits_of_le hspace (by rw [State.maintView_bits])))) rfl,
      State.maintView_bits .., rfl⟩
  · exact congrArg Host.Outcome.next ((State.live_of_alive halive _).trans (parkedResume_of_parked hst ha))
  · obtain ⟨t, ht, hframe⟩ := rangeClearingDone_frame hst
    exact ⟨t, congrArg Host.Outcome.next ((State.live_of_alive halive _).trans ht), hframe⟩

end Sys2Proof.Machine

/-! SUPPORT. O30–O34: coherence requests, the start of transactions, messages and errors. -/
namespace Sys2Proof.Machine

variable {s u : State} {m : Msg} {who : Requester} {op cls : Nat} {x : Nat × Msg}

/-! ### Requests that their home orders -/

theorem State.heard_of_ticket (h : m.ticket = true) : s.heard m =
    { s with coh := { s.coh with granted := s.coh.granted.upd [] m.dst fun l => l.filter fun x => x != (m.src, m.domain) } } := if_pos h

theorem State.heard_of_none (h : m.ticket = false) : s.heard m = s := if_neg (by simp [h])

theorem State.cohWho_heard (s : State) (m : Msg) : (s.heard m).cohWho m = s.cohWho m := by
  unfold State.heard
  split <;> rfl

theorem State.gateStep_heard (s : State) (m : Msg) (a : Nat) (sel : Selector) (write : Bool) :
    (s.heard m).gateStep who a sel write = s.gateStep who a sel write := by
  unfold State.heard
  split <;> rfl

theorem request_of_orders (h : s.orders m who) (hop : m.op = op) : request op m s = (s.heard m).orderReq m := by
  obtain ⟨hgood, hopen, hreset, -, -, hroom⟩ := h
  unfold request
  rw [if_neg fun h => h.1 hop, if_neg (by simp [hgood]), if_neg (by simpa [hopen] using hreset)]
  cases ht : m.ticket with
  | true => rw [if_pos rfl, State.heard_of_ticket ht]
  | false =>
    obtain ⟨hbucket, hentry, hfree⟩ := hroom.resolve_left (by simp [ht])
    rw [if_neg (by simp), if_neg fun hb => Bool.false_ne_true ((hbucket.resolve_left hb.1).symm.trans hb.2), State.heard_of_none ht]
    split
    next hc => exact if_neg (by simp [hfree hc, hentry])
    next => exact if_neg (by simp [hentry])

theorem State.orderReq_of_orders (h : s.orders m who) :
    (s.heard m).orderReq m =
      (let p := (s.heard m).placeAtomic m
       let t := p.1.withTxn m p.2
       (if m.op = 0x0C then t.modCopy m.line m.src fun c => { c with buf := true } else t).pumpLine m.line) := by
  obtain ⟨-, -, -, hwho, hgate, -⟩ := h
  unfold State.orderReq
  extract_lets write a refuse
  rw [State.cohWho_heard, hwho]
  dsimp only
  rw [State.gateStep_heard, hgate]
  rfl

/-- Only an ATOMIC is placed. -/
theorem State.placeAtomic_of_other (h : m.op ≠ 0x10) : s.placeAtomic m = (s, false) := if_pos (.inl h)

theorem request_of_plain (h : s.orders m who) (hop : m.op = op) (hspill : op ≠ 0x0C) (hatomic : op ≠ 0x10) :
    request op m s = ((s.heard m).withTxn m false).pumpLine m.line := by
  rw [request_of_orders h hop, State.orderReq_of_orders h, State.placeAtomic_of_other (hop.trans_ne hatomic)]
  exact congrArg (fun t : State => t.pumpLine m.line) (if_neg (hop.trans_ne hspill))

/-- Settles O30: each request passes the checks of R395 and joins its line (R396, R402, R404), a SPILL with its spill buffer, an ATOMIC where R407 places it. -/
theorem coherenceRequests : Obligations.CoherenceRequests := by
  intro s m who halive h
  have plain : ∀ {op : Nat}, op ≠ 0x0C → op ≠ 0x10 → m.op = op →
      Host.Outcome.next (s.live (request op m)) = (.next (((s.heard m).withTxn m false).pumpLine m.line) : Host.Outcome State Fault Refusal) :=
    fun hspill hatomic hop => congrArg Host.Outcome.next ((State.live_of_alive halive _).trans (request_of_plain h hop hspill hatomic))
  refine ⟨plain (by decide) (by decide), plain (by decide) (by decide), plain (by decide) (by decide), plain (by decide) (by decide),
    plain (by decide) (by decide), fun hop => ?_, plain (by decide) (by decide), fun hop => ?_⟩
  · refine congrArg Host.Outcome.next ((State.live_of_alive halive _).trans ((request_of_orders h hop).trans ((State.orderReq_of_orders h).trans ?_)))
    rw [State.placeAtomic_of_other (hop.trans_ne (by decide))]
    exact congrArg (fun t : State => t.pumpLine m.line) (if_pos hop)
  · refine congrArg Host.Outcome.next ((State.live_of_alive halive _).trans ((request_of_orders h hop).trans ((State.orderReq_of_orders h).trans ?_)))
    exact congrArg (fun t : State => t.pumpLine m.line) (if_neg (hop.trans_ne (by decide)))

/-! ### Transactions start -/

/-- The copies of a line do not all have the tweak of a request (R395). -/
def State.clash (s : State) (m : Msg) : Bool := (s.copies m.line).any fun c => c.tweak != m.tweak

section Start

variable {t : Txn}

theorem State.startTxn_of_clash (hc : s.clash t.req = true) (hop : t.req.op = 0x04 ∨ t.req.op = 0x05 ∨ t.req.op = 0x06 ∨ t.req.op = 0x07) :
    s.startTxn t = (s.cohMismatch t.req).closeTxn t := by
  unfold State.clash at hc
  unfold State.startTxn
  refine if_pos ?_
  rcases hop with h | h | h | h <;> simp only [h, hc] <;> rfl

/-- Without a clash, or where the request reads nothing, the opcode decides. -/
theorem State.startTxn_fetchShare (hc : s.clash t.req = false) (hop : t.req.op = 0x04) :
    s.startTxn t = if (s.others t.req).any (fun c => c.own) = true then s.probeAll t.req 0x04 0 true false
      else (s.fillFromMemory t.req (if (s.others t.req).isEmpty then .e else .s)).closeTxn t := by
  unfold State.clash at hc
  simp [State.startTxn, hc, hop]

theorem State.startTxn_fetchOwn (hc : s.clash t.req = false) (hop : t.req.op = 0x05) :
    s.startTxn t = if (s.others t.req).isEmpty then (s.fillFromMemory t.req .e).closeTxn t else s.probeAll t.req 0x05 0x07 true false := by
  unfold State.clash at hc
  simp [State.startTxn, hc, hop]

theorem State.startTxn_fetchTransient (hc : s.clash t.req = false) (hop : t.req.op = 0x06) :
    s.startTxn t = if (s.others t.req).any (fun c => c.own) = true then s.probeAll t.req 0x06 0 false false
      else (s.fillFromMemory t.req .i).closeTxn t := by
  unfold State.clash at hc
  simp [State.startTxn, hc, hop]

theorem State.startTxn_storeThrough (hnear : t.near = false) (hop : t.req.op = 0x08) :
    s.startTxn t = if (s.others t.req).isEmpty then (s.modTxn t.req fun x => { x with phase := .writing }).send 2 (msgBack t.req 0x04)
      else s.probeAll t.req 0x05 0x07 false false := by
  simp [State.startTxn, hnear, hop]

theorem State.startTxn_release (hnear : t.near = false) (hop : t.req.op = 0x0D) :
    s.startTxn t = ((match (s.copies t.req.line).find? fun (c : Copy) => c.agent == t.req.src with
      | some c => ((s.dropCopy t.req.line t.req.src).victim t.req c).getD (s.dropCopy t.req.line t.req.src)
      | none => s.dropCopy t.req.line t.req.src).doneTo t.req .ok (!(s.copies t.req.line).any fun c => c.agent == t.req.src)).endTxn t.req := by
  simp only [State.startTxn, hnear, hop]
  rfl

end Start

/-- Settles O31: what R398 and R409 have a transaction do on a line without another copy, with an owner, or with a clash of tweaks (R395). -/
theorem transactionsStart : Obligations.TransactionsStart := by
  intro s t m clash
  refine ⟨fun hc ho hop => ?_, fun hc ho hop => ?_, fun hc ho hop => ?_, fun ho hnear hop => ?_, fun hnear hop => ⟨fun hnone => ?_, fun x hx => ?_⟩,
    fun hc ho hop => (State.startTxn_fetchShare hc hop).trans (if_pos ho), fun hc hop => State.startTxn_of_clash hc hop⟩
  · rw [State.startTxn_fetchShare hc hop, ho]
    rfl
  · rw [State.startTxn_fetchOwn hc hop, ho]
    rfl
  · rw [State.startTxn_fetchTransient hc hop, ho]
    rfl
  · rw [State.startTxn_storeThrough hnear hop, ho]
    rfl
  · have hheld : (s.copies m.line).any (fun c => c.agent == m.src) = false := List.any_eq_false.2 (List.find?_eq_none.1 hnone)
    rw [State.startTxn_release hnear hop, hnone, hheld]
    rfl
  · have hheld : (s.copies m.line).any (fun c => c.agent == m.src) = true :=
      List.any_eq_true.2 ⟨x, List.mem_of_find?_eq_some hx, List.find?_some (p := fun c : Copy => c.agent == m.src) hx⟩
    rw [State.startTxn_release hnear hop, hx, hheld]
    rfl

/-! ### Messages that arrive -/

/-- A message that is in flight and may arrive does what its row says, once it has left the network. -/
theorem arrive_of_inFlight {f : Msg → State → State} (hop : m.op = op) (h : s.inFlightMsg cls m x) : arrive cls op m f s = f x.2 (s.delivered cls m) := by
  obtain ⟨hnet, hhome, hover⟩ := h
  unfold arrive
  extract_lets home
  rw [if_neg (not_not_intro hop), if_neg, if_neg, hnet]
  · rfl
  · rintro ⟨hcls, ho⟩
    exact Bool.false_ne_true ((hover hcls).symm.trans ho)
  · rintro ⟨hh, hbad⟩
    obtain ⟨hlo, hhi⟩ := of_decide_eq_true hh
    obtain ⟨hres, hdom⟩ := hhome hlo hhi
    simp [hres, hdom] at hbad

theorem live_arrive (halive : s.alive = true) {f : Msg → State → State} (h : s.inFlightMsg cls m x) (hop : m.op = op) :
    Host.Outcome.next (s.live (arrive cls op m f)) = (.next (f x.2 (s.delivered cls m)) : Host.Outcome State Fault Refusal) :=
  congrArg Host.Outcome.next ((State.live_of_alive halive _).trans (arrive_of_inFlight hop h))

/-- A FILL answers the request of a transaction that an owner supplies directly, and finds no copy at its agent (R400). -/
def State.straight (s : State) (m : Msg) : Prop :=
  (∃ t ∈ s.coh.txns, t.req.src = m.dst ∧ t.req.txn = m.txn ∧ t.req.line = m.line ∧ t.direct = true) ∧ ∀ c ∈ s.copies m.line, c.agent ≠ m.dst

theorem fillArrives_of_straight (hst : m.status = .ok) (hstate : m.state ≠ 0) (h : s.straight m) :
    fillArrives m s = (s.addCopy m.line ⟨m.dst, decide (m.state ≠ 1), cacheOf m.state, m.tweak, m.data, false, m.cls, none⟩).ackHome m.dst m.txn m.line := by
  unfold fillArrives
  extract_lets direct t
  have ht : t = s.addCopy m.line ⟨m.dst, decide (m.state ≠ 1), cacheOf m.state, m.tweak, m.data, false, m.cls, none⟩ :=
    (if_neg (by simp [hst, hstate])).trans (if_pos (by simpa [direct, State.straight, and_assoc] using h))
  rw [ht]

theorem fillArrives_of_held (hst : m.status = .ok) (hstate : m.state ≠ 0) (h : ¬s.straight m) :
    fillArrives m s = (s.modCopy m.line m.dst fun c => { c with st := cacheOf m.state, data := if m.narrow then c.data else m.data }).ackHome m.dst m.txn m.line := by
  unfold fillArrives
  extract_lets direct t
  have ht : t = s.modCopy m.line m.dst fun c => { c with st := cacheOf m.state, data := if m.narrow then c.data else m.data } :=
    (if_neg (by simp [hst, hstate])).trans (if_neg fun hc => h (by simpa [direct, State.straight, and_assoc] using hc))
  rw [ht]

theorem fillArrives_of_nothing (h : m.status ≠ .ok ∨ m.state = 0) : fillArrives m s = s.ackHome m.dst m.txn m.line := by
  unfold fillArrives
  simp only [if_pos h]

/-- Settles O32: what each message does at its agent (R399–R401, R403, R408), once it may arrive. -/
theorem messagesAtAgents : Obligations.MessagesAtAgents := fun _ _ _ halive =>
  ⟨fun hop h => live_arrive halive h hop, fun hop h => live_arrive halive h hop, fun hop h => live_arrive halive h hop,
    fun hop h => live_arrive halive h hop,
    fun hop h hst hstate =>
      ⟨fun hs => (live_arrive halive h hop).trans (congrArg _ (fillArrives_of_straight hst hstate hs)),
        fun hs => (live_arrive halive h hop).trans (congrArg _ (fillArrives_of_held hst hstate hs))⟩,
    fun hop h hnot => (live_arrive halive h hop).trans (congrArg _ (fillArrives_of_nothing hnot)),
    fun hop h => live_arrive halive h hop, fun hop h => live_arrive halive h hop, fun hop h => live_arrive halive h hop,
    fun hop h => live_arrive halive h hop⟩

theorem doneAck_of_acking {t : Txn} (h : s.txnOf m.src m.dst m.txn = some t) (hp : t.phase = .acking) :
    doneAck m s = (s.endTxn t.req).pumpLine t.req.line := by
  simp [doneAck, h, hp]

theorem doneAck_of_other {t : Txn} (h : s.txnOf m.src m.dst m.txn = some t) (hp : t.phase ≠ .acking) :
    doneAck m s = s.modTxn t.req fun y => { y with acked := true } := by
  simp [doneAck, h, hp]

theorem spillData_of_txn {t : Txn} (h : s.txnOf m.src m.dst m.txn = some t) :
    spillData m s =
      ((((((s.dropCopy m.line m.src).victim t.req ⟨m.src, true, .m, m.tweak, m.data, false, m.cls, none⟩).getD
        ((s.dropCopy m.line m.src).cohPut t.req m.tweak m.data)).doneTo t.req .ok false).endTxn t.req).pumpLine t.req.line) := by
  simp [spillData, h]

theorem storeData_of_atomic {t : Txn} (h : s.txnOf m.src m.dst m.txn = some t) (hop : t.req.op = 0x10) :
    storeData m s = ((s.atomicAt t.req m).endTxn t.req).pumpLine t.req.line := by
  simp [storeData, h, hop]

/-- What a STORE_THROUGH writes at its lane: the state after it, its status and its data. -/
def State.storeAt (s : State) (q m : Msg) : State × Status × LineData :=
  let v := (s.dropCopy q.line q.src).cohCount q (if q.narrow then 32 else 128)
  let w := placed q m.data m.mask
  if q.domain = 64 then v.regionAccess (q.line * 128) (.write w.1 w.2 q.narrow) q.ecc
    else v.gateLine (v.cohGate q (.write w.1 w.2 q.narrow)) (v.cohCharged q) (q.line * 128)

theorem storeData_of_store {t : Txn} (h : s.txnOf m.src m.dst m.txn = some t) (hop : t.req.op ≠ 0x10) :
    storeData m s = (((s.storeAt t.req m).1.doneTo t.req (s.storeAt t.req m).2.1 false).endTxn t.req).pumpLine t.req.line := by
  unfold storeData
  rw [h]
  dsimp only
  rw [if_neg hop]
  rfl

/-- A DONE_ACK that its home does not expect breaks R412. -/
theorem arrive_doneAck_of_none {f : Msg → State → State} (hop : m.op = 0x02) (hnet : s.coh.net.find? (sameMsg 2 m) = none) (hlo : 132 ≤ m.dst) (hhi : m.dst ≤ 135)
    (hres : m.reserved = 0) (hdom : s.inDomain m.src m.domain = true) : arrive 2 0x02 m f s = s.badMsg m (if s.outstanding m then 5 else 4) := by
  unfold arrive
  simp [hop, hnet, hlo, hhi, hres, hdom]

/-- Settles O33: what each message does at its home (R399, R403, R409, R412), once it may arrive. -/
theorem messagesAtHomes : Obligations.MessagesAtHomes := fun _ _ _ halive =>
  ⟨fun hop h => live_arrive halive h hop, fun hop h => live_arrive halive h hop,
    fun _ hop h ht =>
      ⟨fun hp => (live_arrive halive h hop).trans (congrArg _ (doneAck_of_acking ht hp)),
        fun hp => (live_arrive halive h hop).trans (congrArg _ (doneAck_of_other ht hp))⟩,
    fun _ hop h ht => (live_arrive halive h hop).trans (congrArg _ (spillData_of_txn ht)),
    fun _ hop h ht hq => (live_arrive halive h hop).trans (congrArg _ (storeData_of_atomic ht hq)),
    fun _ hop h ht hq => (live_arrive halive h hop).trans (congrArg _ (storeData_of_store ht hq)),
    fun hop hnet hlo hhi hres hdom => congrArg Host.Outcome.next
      ((State.live_of_alive halive _).trans (arrive_doneAck_of_none hop hnet hlo hhi hres hdom))⟩

/-! ### Errors -/

theorem snoopTimeout_of_probing {home agent domain : Nat} {t : Txn} (hmem : t ∈ s.coh.txns) (hdst : t.req.dst = 132 + home) (hphase : t.phase = .probing)
    (hdom : t.req.domain = domain) (hneed : agent ∈ t.need) : snoopTimeout home agent domain s = s.loseDomain domain agent 3 :=
  if_pos (List.any_eq_true.2 ⟨t, hmem, by simp [hdst, hphase, hdom, hneed]⟩)

section Filter

variable {home line : Nat} (hcopies : s.copies line ≠ []) (hfield : lineField (line * 128) = home)
include hcopies hfield

theorem snoopFilterError_of_copies (readable : Bool) : snoopFilterError home line readable s =
    if readable = false then s.needReset 1 (132 + home)
    else if inControl (line * 128) then s.loseDomain 64 (132 + home) 2
    else match s.rangeOf (line * 128) with
      | some r => s.loseDomain (s.rangeAt r).owner (132 + home) 2
      | none => s := by
  unfold snoopFilterError
  exact if_neg (by simp [hcopies, hfield])

theorem snoopFilterError_of_control (h : inControl (line * 128) = true) : snoopFilterError home line true s = s.loseDomain 64 (132 + home) 2 :=
  (snoopFilterError_of_copies hcopies hfield true).trans ((if_neg (by simp)).trans (if_pos h))

theorem snoopFilterError_of_range {r : Nat} (h : inControl (line * 128) = false) (hr : s.rangeOf (line * 128) = some r) :
    snoopFilterError home line true s = s.loseDomain (s.rangeAt r).owner (132 + home) 2 := by
  rw [snoopFilterError_of_copies hcopies hfield, hr]
  simp [h]

end Filter

/-- Settles O34: an agent that is late (R412) or whose cache fails and a filter entry that fails lose their domain, or the chip (R414). -/
theorem coherenceErrors : Obligations.CoherenceErrors :=
  ⟨fun _ _ _ _ _ halive hmem hdst hphase hdom hneed => congrArg Host.Outcome.next
      ((State.live_of_alive halive _).trans (snoopTimeout_of_probing hmem hdst hphase hdom hneed)),
    fun _ _ _ halive hin => congrArg Host.Outcome.next ((State.live_of_alive halive _).trans (if_pos hin)),
    fun _ _ _ halive hcopies hfield =>
      ⟨congrArg Host.Outcome.next ((State.live_of_alive halive _).trans (snoopFilterError_of_copies hcopies hfield false)),
        fun h => congrArg Host.Outcome.next ((State.live_of_alive halive _).trans (snoopFilterError_of_control hcopies hfield h)),
        fun _ h hr => congrArg Host.Outcome.next ((State.live_of_alive halive _).trans (snoopFilterError_of_range hcopies hfield h hr))⟩⟩

end Sys2Proof.Machine

/-! SUPPORT. O35 and O36: power moves of partitions, LOW and back, and Capo. -/
namespace Sys2Proof.Machine

variable {s t : State} {c : Cmd} {p f n : Nat}

/-! ### Power states of a partition -/

/-- The state after PWR_STATE_SET has taken `wake_on_work` (R425). -/
def State.wakeSet (s : State) (c : Cmd) : State := s.modPow c.part fun x => { x with wake := c.f 0 2 1 == 1 }

theorem runPwrStateSet_of_passes (h : Passes (pwrStateSetChecks c s)) : runPwrStateSet c s =
    if (s.powAt c.part).st = powOf (c.f 0 0 2) then s.answer (s.wakeSet c) c [(8, c.f 0 0 2), (24, 0), (32, (s.powAt c.part).since.toNat)]
    else s.background (((s.wakeSet c).modPow c.part fun x => { x with earlier := none }).powMove c.part (c.f 0 0 2) (some c.ref)) c 8 := by
  unfold runPwrStateSet
  exact State.checked_of_passes h _

theorem drainIdle_of_idle (hst : (s.powAt p).st = .draining) (hstep : (s.powAt p).step = false) (hidle : s.partIdle p = true) :
    drainIdle p s = if (s.powAt p).target = 3 then s.startSave p
      else ((s.snoopEngines p).modPow p fun x => { x with st := .l2, nominal := 0 }).powDone p :=
  if_neg (by simp [hst, hstep, hidle])

/-- What the start of a save leaves of a partition's power (R427). -/
def PowPart.save (bytes : Nat) (x : PowPart) : PowPart := { x with st := .saving, nominal := 0, left := bytes }

theorem State.powAt_startSave (s : State) (p : Nat) :
    (s.startSave p).powAt p = (((s.snoopEngines p).snoopWays p).powAt p).save (s.slotBytes p) :=
  State.powAt_modPow_self _ p (PowPart.save (s.slotBytes p))

theorem saveDone_of_saved (hst : (s.powAt p).st = .saving) (hleft : (s.powAt p).left = 0) :
    saveDone p s = ((s.markSlots p true).modPow p fun x => { x with st := .l3 }).powDone p := if_pos ⟨hst, hleft⟩

section Restore

variable (hst : (s.powAt p).st = .restoring) (hstep : (s.powAt p).step = false)
include hst hstep

theorem restoreDone_of_good (hgood : s.slotsGood p = true) (hleft : (s.powAt p).left = 0) : restoreDone p true s = s.restored p :=
  (if_neg (by simp [hst, hstep])).trans ((if_pos ⟨rfl, hgood⟩).trans (if_pos hleft))

theorem restoreDone_of_bad {good : Bool} (hbad : ¬(good = true ∧ s.slotsGood p = true)) :
    restoreDone p good s = s.loseDomain p 149 (Config.unstatedDetail 4).toNat :=
  (if_neg (by simp [hst, hstep])).trans (if_neg hbad)

end Restore

theorem wake_of_work (hpart : (s.partAt p).st = .live) (hwake : (s.powAt p).wake = true) (hbusy : (s.powAt p).busy = false)
    (hst : (s.powAt p).st = .l2 ∨ (s.powAt p).st = .l3) (hf : f < 4) (hwork : s.work p f ≠ []) (hlow : s.out.low = false) :
    wake p s = (s.powMove p 0 none).partEvent p := by
  have hready : ([0, 1, 2, 3].any fun f => !(s.work p f).isEmpty) = true :=
    List.any_eq_true.2 ⟨f, by simp; omega, by simp [hwork]⟩
  exact if_pos ⟨hpart, hwake, hbusy, hst, hready, hlow⟩

/-- Settles O35: PWR_STATE_SET and the events of a move (R424, R426, R427, R429). -/
theorem powerMoves : Obligations.PowerMoves := by
  refine ⟨fun s k c hserves hp hspace => ⟨fun hst => ?_, fun hst => ?_⟩, fun s p halive hst hstep hidle => ⟨fun htarget => ⟨?_, ?_, ?_⟩, fun htarget => ?_⟩,
    fun s p halive hst hleft => congrArg Host.Outcome.next ((State.live_of_alive halive _).trans (saveDone_of_saved hst hleft)),
    fun s p halive hst hstep => ⟨fun hgood hleft htarget => ?_, fun hgood hleft htarget => ?_, ⟨(Config.unstatedDetail 4).toNat, ?_, fun hbad => ?_⟩⟩,
    fun s p f halive hpart hwake hbusy hst hf hwork hlow => congrArg Host.Outcome.next
      ((State.live_of_alive halive _).trans (wake_of_work hpart hwake hbusy hst hf hwork hlow))⟩
  · exact exec_of_serves hserves ((runPwrStateSet_of_passes hp).trans ((if_pos hst).trans (State.answer_of_fits (fits_of_le hspace (by simp))))) rfl
  · exact exec_of_serves hserves ((runPwrStateSet_of_passes hp).trans ((if_neg hst).trans (State.background_of_fits hspace))) rfl
  · exact congrArg Host.Outcome.next ((State.live_of_alive halive _).trans ((drainIdle_of_idle hst hstep hidle).trans (if_pos htarget)))
  · exact congrArg PowPart.st (s.powAt_startSave p)
  · exact congrArg PowPart.left (s.powAt_startSave p)
  · exact congrArg Host.Outcome.next ((State.live_of_alive halive _).trans ((drainIdle_of_idle hst hstep hidle).trans (if_neg htarget)))
  · exact congrArg Host.Outcome.next ((State.live_of_alive halive _).trans ((restoreDone_of_good hst hstep hgood hleft).trans (if_pos htarget)))
  · exact congrArg Host.Outcome.next ((State.live_of_alive halive _).trans ((restoreDone_of_good hst hstep hgood hleft).trans (if_neg htarget)))
  · exact congrArg Host.Outcome.next ((State.live_of_alive halive _).trans (restoreDone_of_bad hst hstep fun h => Bool.false_ne_true h.1))
  · exact congrArg Host.Outcome.next ((State.live_of_alive halive _).trans
      (restoreDone_of_bad hst hstep fun h => Bool.false_ne_true (hbad.symm.trans h.2)))

/-! ### LOW -/

/-- What entering LOW leaves alone once the link is down: LOW itself, the security state and the memory. -/
def State.lowView (s : State) : Bool × Sec × Mem := (s.out.low, s.sec, s.mem)

theorem State.lowView_ite {q : Prop} [Decidable q] {u : State} (ht : t.lowView = s.lowView) (hu : u.lowView = s.lowView) :
    (if q then t else u).lowView = s.lowView := by
  split
  · exact ht
  · exact hu

theorem State.msix_lowView (s : State) (v : Nat) : (s.msix v).lowView = s.lowView := by
  unfold State.msix State.lowView
  dsimp only
  congr 1
  split
  · split <;> rfl
  · rfl

theorem State.setDone_lowView (s : State) (m : Mailbox) (slot : Nat) : (s.setDone m slot).lowView = s.lowView := by
  unfold State.setDone
  extract_lets b t
  refine State.lowView_ite ?_ rfl
  split
  · exact State.msix_lowView ..
  · rfl

theorem State.respond_lowView (s : State) (r : SlotRef) (st : Status) (d len pay : Nat) (sid : Option W32) :
    (s.respond r st d len pay sid).lowView = s.lowView := by
  unfold State.respond
  extract_lets slot fits st' d' sid' inline resp u v
  refine (State.setDone_lowView ..).trans ?_
  change u.lowView = _
  exact State.lowView_ite rfl rfl

theorem State.finishOpt_lowView (s : State) (r : Option SlotRef) (st : Status) (d len pay : Nat) : (s.finishOpt r st d len pay).lowView = s.lowView := by
  cases r with
  | none => rfl
  | some r => exact State.lowView_ite (State.respond_lowView ..) rfl

theorem State.powDone_lowView (s : State) (p : Nat) : (s.powDone p).lowView = s.lowView := State.finishOpt_lowView ..

/-- A move to L2 saves nothing. -/
theorem State.powMove_lowView (s : State) (p : Nat) : (s.powMove p 2 none).lowView = s.lowView := by
  unfold State.powMove
  extract_lets t
  split <;> rfl

theorem State.lowEntry_lowView (s : State) (p : Nat) : (s.lowEntry p).lowView = s.lowView := by
  unfold State.lowEntry
  extract_lets x t
  have ht : t.lowView = s.lowView := State.lowView_ite (State.powDone_lowView ..) rfl
  exact State.lowView_ite rfl ((State.powMove_lowView ..).trans ht)

/-- The end of rights (R495) writes the watch, the board and the chip alone. -/
def OnlyRights (s t : State) : Prop := ∃ watch board stopped pending,
  t = { s with watch := watch, board := board, chip := { s.chip with stopped := stopped, pending := pending } }

theorem OnlyRights.refl (s : State) : OnlyRights s s := ⟨s.watch, s.board, s.chip.stopped, s.chip.pending, rfl⟩

theorem OnlyRights.set {watch : Watch} {board : Board} {stopped : Bool} {pending : Option (Nat × Nat)} (h : OnlyRights s t) :
    OnlyRights s { t with watch := watch, board := board, chip := { t.chip with stopped := stopped, pending := pending } } := by
  obtain ⟨w, b, st, p, rfl⟩ := h
  exact ⟨watch, board, stopped, pending, rfl⟩

theorem OnlyRights.ite {q : Prop} [Decidable q] {u : State} (ht : OnlyRights s t) (hu : OnlyRights s u) : OnlyRights s (if q then t else u) := by
  split
  · exact ht
  · exact hu

theorem OnlyRights.releaseHolds (h : OnlyRights s t) : OnlyRights s t.releaseHolds :=
  State.foldl_inv (OnlyRights s) State.releaseCore (fun _ _ h => .ite h.set h) _ _ h

theorem OnlyRights.clearBps (h : OnlyRights s t) : OnlyRights s t.clearBps :=
  State.foldl_inv (OnlyRights s) (fun t c => t.modCore c fun x => { x with bps := [] }) (fun _ _ h => h.set) _ _ h

theorem OnlyRights.modTrace (h : OnlyRights s t) (f : Trace → Trace) : OnlyRights s (t.modTrace f) := h.set

theorem OnlyRights.leaveScan (h : OnlyRights s t) (ir : TapIr) : OnlyRights s (t.leaveScan ir) := .ite (.ite h.set h.set) h.set

theorem OnlyRights.endRights (h : OnlyRights s t) (old : BitVec 8) : OnlyRights s (t.endRights old) := by
  unfold State.endRights
  extract_lets gone counter instr port holds
  have hcounter : OnlyRights s counter := .ite (h.modTrace _) h
  have hinstr : OnlyRights s instr := .ite (hcounter.modTrace _) hcounter
  have hport : OnlyRights s port := .ite (hinstr.modTrace _) hinstr
  have hholds : OnlyRights s holds := .ite hport.releaseHolds.clearBps hport
  exact .ite (hholds.leaveScan _) hholds

theorem State.lowView_of_onlyRights (h : OnlyRights s t) : t.lowView = s.lowView := by
  obtain ⟨w, b, st, p, rfl⟩ := h
  rfl

theorem State.d3hotEntry_lowView (h : s.out.low = false) :
    (d3hotEntry s).lowView = (true, { s.sec with grant := none, challenge := none }, s.mem) := by
  unfold d3hotEntry
  rw [if_neg (by simp [h])]
  extract_lets t u
  refine (State.foldl_keeps State.lowView _ State.lowEntry_lowView _ _).trans ?_
  exact State.lowView_of_onlyRights ((OnlyRights.refl _).endRights _).releaseHolds

/-! ### Capo -/

theorem mem_fieldEngines {e : Nat} : e ∈ fieldEngines f ↔ e / 32 = f := by
  simp only [fieldEngines, List.mem_map, List.mem_range]
  constructor
  · rintro ⟨i, hi, rfl⟩
    omega
  · intro h
    exact ⟨e % 32, by omega, by omega⟩

theorem Tab.get_foldl_put {α : Type} [DecidableEq α] (d : α) (k : Nat → α) (l : List Nat) (n : Nat) : ∀ t : Tab α,
    (l.foldl (fun t e => t.put d e (k e)) t).get d n = if n ∈ l then k n else t.get d n := by
  induction l with
  | nil => exact fun t => rfl
  | cons a l ih =>
    intro t
    rw [List.foldl_cons, ih, Tab.get_put]
    by_cases hl : n ∈ l
    · rw [if_pos hl, if_pos (List.mem_cons_of_mem _ hl)]
    · rw [if_neg hl]
      by_cases ha : a = n
      · subst ha
        simp
      · simp [ha, hl, Ne.symm ha]

theorem State.setKeeps_keep (s : State) (f : Nat) (k : Nat → Nat) (e : Nat) :
    (s.setKeeps f k).pwr.keep.get 16 e = if e / 32 = f then k e else s.pwr.keep.get 16 e := by
  refine (Tab.get_foldl_put 16 k (fieldEngines f) e s.pwr.keep).trans ?_
  simp only [mem_fieldEngines]

theorem State.setKeeps_frame (s : State) (f : Nat) (k : Nat → Nat) : s.setKeeps f k = { s with pwr := (s.setKeeps f k).pwr } := rfl

/-- Capo has moved the keeps of its field since the boundary. -/
def Capo.noteMove (c : Capo) : Capo := { c with moved := true }

theorem State.capoAt_setKeeps (s : State) (f : Nat) (k : Nat → Nat) : (s.setKeeps f k).capoAt f = (s.capoAt f).noteMove :=
  Tab.get_upd_self Capo.init s.pwr.capo f Capo.noteMove

theorem State.capoAt_modCapo_self (s : State) (f : Nat) (g : Capo → Capo) : (s.modCapo f g).capoAt f = g (s.capoAt f) := Tab.get_upd_self ..

/-- What a trip of a sensor leaves of its field's Capo (R437). -/
def Capo.trip (n : Nat) (c : Capo) : Capo := { c with
  st := .whole, lanes := true, detections := satAdd 16 c.detections 1
  tripped := if c.tripped.any fun x => x.1 == n then c.tripped else c.tripped ++ [(n, 0)] }

theorem droopTrip_of_sensor (hf : f < 4) (hn : n / 64 = f) (hmask : n ∉ (s.capoAt f).masked) :
    droopTrip f n s = (s.modCapo f (Capo.trip n)).setKeeps f fun _ => 8 :=
  if_neg (by simp [hn, hmask, hf])

/-- The engines that STRETCH_REASSIGN takes to `deep_keep` (R438). -/
def State.stretched (s : State) (f : Nat) : List Nat :=
  s.capoChoose (((fieldEngines f).map fun e => s.pwr.report.get 0 e).sum * s.pwr.shed) 0 (s.capoOrder f)

theorem stretchReassign_of_whole (h : (s.capoAt f).st = .whole) : stretchReassign f s =
    (s.modCapo f fun c => { c with st := .reassigned }).setKeeps f fun e => if (s.stretched f).contains e then s.pwr.deepKeep else 16 :=
  if_neg (not_not_intro h)

/-- The keeps of a field one step up its ramp (R439). -/
def State.rampUp (s : State) (f : Nat) : State := s.setKeeps f fun e => min 16 (s.pwr.keep.get 16 e + 1)

theorem keepRampStep_of_ramp (h : (s.capoAt f).st = .ramp) : keepRampStep f s =
    if (fieldEngines f).all fun e => (s.rampUp f).pwr.keep.get 16 e == 16 then (s.rampUp f).modCapo f fun c => { c with st := .idle } else s.rampUp f :=
  if_neg (not_not_intro h)

theorem rampUp_done_iff : ((fieldEngines f).all fun e => (s.rampUp f).pwr.keep.get 16 e == 16) = true ↔ ∀ e, e / 32 = f → 15 ≤ s.pwr.keep.get 16 e := by
  simp only [List.all_eq_true, mem_fieldEngines, beq_iff_eq]
  refine forall₂_congr fun e he => ?_
  rw [show (s.rampUp f).pwr.keep.get 16 e = _ from s.setKeeps_keep .., if_pos he]
  omega

theorem sensorMask_of_due (hf : f < 4) (hn : n / 64 = f) (hmask : n ∉ (s.capoAt f).masked) (hdue : (s.capoAt f).maskDue n = true) :
    sensorMask f n s = ((s.modCapo f fun c => { c with masked := c.masked ++ [n], tripped := c.tripped.filter fun x => x.1 != n }).logRec
      { kind := 0x0011, part := 0xFF, place := f, a := n }).chipEvent :=
  if_neg (by simp [hf, hn, hmask, hdue])

/-- Settles O36: LOW and back (R430, R431), and a field's trips, stretches, ramp and masked sensors (R437–R440). -/
theorem lowAndCapo : Obligations.LowAndCapo := by
  refine ⟨fun s halive hlow => ?low, fun s halive hlow => congrArg Host.Outcome.next ((State.live_of_alive halive _).trans (if_pos hlow)),
    fun s f n halive hf hn hmask => ?trip, fun s f halive hst => ?stretch,
    fun s f halive hst => congrArg Host.Outcome.next ((State.live_of_alive halive _).trans (if_pos hst)),
    fun s f halive hst => ?ramp, fun s f n halive => ⟨fun hdue => ?_, fun hf hn hmask hdue => ?_⟩⟩
  case low =>
    have hview := State.d3hotEntry_lowView hlow
    simp only [State.lowView, Prod.mk.injEq] at hview
    obtain ⟨hl, hsec, hmem⟩ := hview
    refine ⟨d3hotEntry s, congrArg Host.Outcome.next (State.live_of_alive halive _), hl, ?_⟩
    rw [hsec, hmem]
    exact ⟨rfl, rfl, rfl, rfl, rfl⟩
  case trip =>
    refine ⟨_, congrArg Host.Outcome.next ((State.live_of_alive halive _).trans (droopTrip_of_sensor hf hn hmask)), rfl, ?_, ?_, fun e he => ?_, fun e he => ?_⟩
    · rw [State.capoAt_setKeeps, State.capoAt_modCapo_self]
      rfl
    · rw [State.capoAt_setKeeps, State.capoAt_modCapo_self]
      rfl
    · exact (State.setKeeps_keep ..).trans (if_pos he)
    · exact (State.setKeeps_keep ..).trans (if_neg he)
  case stretch =>
    refine ⟨_, s.stretched f, congrArg Host.Outcome.next ((State.live_of_alive halive _).trans (stretchReassign_of_whole hst)), rfl, ?_, rfl, fun e he => ?_⟩
    · rw [State.capoAt_setKeeps, State.capoAt_modCapo_self]
      rfl
    · simpa using (State.setKeeps_keep ..).trans (if_pos he)
  case ramp =>
    have hup : ∀ e, e / 32 = f → (s.rampUp f).pwr.keep.get 16 e = min 16 (s.pwr.keep.get 16 e + 1) := fun e he => (State.setKeeps_keep ..).trans (if_pos he)
    have hcapo : ((s.rampUp f).capoAt f).st = .ramp := by
      rw [State.rampUp, State.capoAt_setKeeps]
      exact hst
    have hstep : exec (.keepRampStep f) s = .next (keepRampStep f s) := congrArg Host.Outcome.next (State.live_of_alive halive _)
    rw [hstep, keepRampStep_of_ramp hst]
    by_cases hdone : ∀ e, e / 32 = f → 15 ≤ s.pwr.keep.get 16 e
    · rw [if_pos (rampUp_done_iff.2 hdone)]
      refine ⟨_, rfl, rfl, hup, fun _ => ?_, fun ⟨e, he, hlt⟩ => absurd (hdone e he) (Nat.not_le.2 hlt)⟩
      rw [State.capoAt_modCapo_self]
    · rw [if_neg (mt rampUp_done_iff.1 hdone)]
      exact ⟨_, rfl, rfl, hup, fun h => absurd h hdone, fun _ => hcapo⟩
  · exact congrArg Host.Outcome.next ((State.live_of_alive halive _).trans (if_pos (.inr (.inr (.inr hdue)))))
  · exact congrArg Host.Outcome.next ((State.live_of_alive halive _).trans (sensorMask_of_due hf hn hmask hdue))

end Sys2Proof.Machine

/-! SUPPORT. O37–O39: key commands, the steps of the life cycle and debug rights. -/
namespace Sys2Proof.Machine

variable {s : State} {c : Cmd}

/-! ### Keys -/

/-- A forged request is not acted on, whichever of the island's commands it names (R459). -/
theorem State.live_hawk_of_forged {k : Take} {op : Nat} {ref : SlotRef} {mine : Cmd → Bool} {run : Cmd → State → State} (halive : s.alive = true)
    (hcore : s.coreStopped 0 = false) (hhead : s.headRef k.mb = some ref) (hop : reqOpcode ((s.mbAt k.mb).slotAt ref.slot).req = op)
    (hchecks : (s.takeSlot ref).checks k.mb ((s.mbAt k.mb).slotAt ref.slot).req k.host = none) (hforged : s.forged k ref = true)
    (hisland : islandServes k.mb op = true) (hmine : mine (cmdOf ref ((s.mbAt k.mb).slotAt ref.slot).req k.host) = true) :
    s.live (hawk op mine k run) = (s.takeSlot ref).forgedRequest ref := by
  rw [State.live_of_alive halive]
  simp [hawk, hhead, hcore, hop, hchecks, hforged, hisland, hmine]

/-- The key that KEY_DERIVE loads (R457). -/
def State.derivedKey (s : State) (c : Cmd) : KeySlot :=
  ⟨true, c.f 2 0 8, 0, c.f 3 0 1 == 1, c.f 4 0 8, s.sec.derive s.chip.serial (c.f 0 0 16) (c.f 2 0 8) (c.f 4 0 8) (c.f 8 0 64) true⟩

/-- The state after KEY_DERIVE has loaded its slot. -/
def State.keyLoaded (s : State) (c : Cmd) : State :=
  { s with sec := { s.sec with slots := s.sec.slots.put KeySlot.init (c.f 0 0 16) (s.derivedKey c), derived := s.sec.derived + 1 } }

theorem State.slotAt_keyLoaded_self (s : State) (c : Cmd) : (s.keyLoaded c).slotAt (c.f 0 0 16) = s.derivedKey c := by
  simp [State.slotAt, State.keyLoaded]

theorem State.slotAt_keyLoaded_ne {n : Nat} (h : n ≠ c.f 0 0 16) : (s.keyLoaded c).slotAt n = s.slotAt n := by
  simp [State.slotAt, State.keyLoaded, Tab.get_put_ne _ _ _ h.symm]

theorem runKeyDerive_of_passes (h : Passes (keyDeriveChecks c s)) : runKeyDerive c s =
    s.answer (s.keyLoaded c) c [(16, c.f 0 0 16), (8, c.f 2 0 8), (8, c.f 4 0 8), (32, (s.sec.derived + 1).toNat)] := by
  unfold runKeyDerive
  exact State.checked_of_passes h _

theorem runKeyDestroy_of_passes (h : Passes (keyDestroyChecks c s)) : runKeyDestroy c s =
    ({ s with sec := { s.sec with slots := s.sec.slots.drop (c.f 0 0 16) } } : State).respond c.ref .ok 0 0 0 none := by
  unfold runKeyDestroy
  exact State.checked_of_passes h _

/-- Settles O37: a key command writes its slot alone (R457, R463), and a forged request makes a chip reset due (R459, R530). -/
theorem keyCommands : Obligations.KeyCommands := by
  refine ⟨?forged, fun s k c hserves hp hspace => ?_, fun s k c hserves hp => ?_⟩
  case forged =>
    intro i s k op ref hi halive hcore hhead c hop _ hchecks hforged hisland hmine
    obtain ⟨run, hrun, -⟩ := Instr.exists_runs hi
    exact ⟨_, _, (hrun s).trans (congrArg Host.Outcome.next (State.live_hawk_of_forged halive hcore hhead hop hchecks hforged hisland hmine))⟩
  · exact ⟨_, exec_of_serves hserves ((runKeyDerive_of_passes hp).trans (State.answer_of_fits (fits_of_le hspace (by simp)))) rfl, rfl,
      State.slotAt_keyLoaded_self .., fun n hn => State.slotAt_keyLoaded_ne hn⟩
  · exact ⟨_, exec_of_serves hserves (runKeyDestroy_of_passes hp) rfl, rfl, Tab.get_drop_self .., fun n hn => Tab.get_drop_ne _ _ hn.symm⟩

/-! ### The life cycle -/

theorem runLcTransition_of_passes {b : Lc} {n : Nat} (h : Passes (lcTransitionChecks c s)) (hspace : 8 ≤ c.space) (hb : lcOf (c.f 0 0 8) = some b)
    (hn : lcRow s.sec.lc b = some n) :
    runLcTransition c s =
      (let t : State := { s with sec := { s.sec with run := some ⟨n, 0, some c.ref, false⟩ } }
       if 5 ≤ n then t.destroyAll else t) := by
  unfold runLcTransition
  refine (State.checked_of_passes h _).trans ((State.background_of_fits hspace).trans ?_)
  rw [hb, Option.bind_some, hn]
  rfl

theorem Sec.mark_testBit (x : Sec) (row k : Nat) : ((x.mark row k).marks.get 0 row).testBit (k - 1) = true := by
  rw [Sec.mark, Tab.get_upd_self]
  simp

theorem State.lcNext_eq_some {row k : Nat} : s.lcNext = some (row, k) ↔ ∃ r, s.sec.run = some r ∧ r.ended = false ∧ r.row = row ∧ r.steps + 1 = k := by
  unfold State.lcNext
  cases s.sec.run with
  | none => simp
  | some r => cases h : r.ended <;> simp [h]

/-- A step's mark makes the next step due. -/
theorem State.lcNext_of_mark {t : State} {x : Sec} {row k : Nat} (hnext : s.lcNext = some (row, k)) (hx : x.run = s.sec.run) (ht : t.sec = x.mark row k) :
    t.lcNext = some (row, k + 1) := by
  obtain ⟨r, hrun, hended, hrow, -⟩ := State.lcNext_eq_some.1 hnext
  refine State.lcNext_eq_some.2 ⟨{ r with steps := k }, ?_, hended, hrow, rfl⟩
  rw [ht, Sec.mark]
  simp [hx, hrun]

theorem wipeSlots_of_next {row : Nat} (h : s.lcNext = some (row, 1)) (hfree : row < 5 ∨ ∀ p ∈ parts, (s.partAt p).st = .free) :
    wipeSlots s = { s with sec := (s.sec.wipe).mark row 1, log := { s.log with slot0 := none, slot1 := none } } := by
  unfold wipeSlots
  rw [h]
  refine if_neg ?_
  rintro ⟨hrow, hbusy⟩
  obtain ⟨p, hp, hst⟩ := List.any_eq_true.1 hbusy
  simp [(hfree.resolve_left (Nat.not_lt.2 hrow)) p hp] at hst

theorem destroyRoot_of_next {row : Nat} (h : s.lcNext = some (row, 2)) (hrow : 3 ≤ row) :
    destroyRoot s = { s with sec := (s.sec.burnRoot).mark row 2 } := by
  unfold destroyRoot
  rw [h]
  exact if_neg (Nat.not_lt.2 hrow)

theorem eraseUser_of_next {row : Nat} (h : s.lcNext = some (row, 3)) (verified : Bool) :
    eraseUser verified s = if verified then { s with sec := ({ s.sec with saved := none } : Sec).mark row 3, log := { s.log with flash := 0 } } else s := by
  unfold eraseUser
  split
  next r hr =>
    cases h.symm.trans hr
    rfl
  next hno => exact absurd h (hno row)

/-- The security state that BURN_STATE leaves (R466). -/
def Sec.burnEnd (x : Sec) (row k : Nat) : Sec :=
  { (x.burnLc row).mark row k with
    grant := x.grant.map fun g => g % 128
    run := x.run.map fun r => { r with steps := k, ended := true } }

theorem burnState_of_next {row : Nat} (h : s.lcNext = some (row, lcSteps row)) :
    burnState s = (s.changeSec fun x => x.burnEnd row (lcSteps row)).finishOpt (s.sec.run.bind LcRun.ref) .ok 0 8
      (pack [(8, lcCode s.sec.lc), (8, lcCode (lcTarget row)), (8, lcSteps row), (40, 0)]) := by
  unfold burnState
  rw [h]
  exact if_neg (not_not_intro rfl)

theorem State.changeSec_frame (s : State) (f : Sec → Sec) : OnlyRights { s with sec := f s.sec } (s.changeSec f) := (OnlyRights.refl _).endRights _

theorem State.changeSec_sec (s : State) (f : Sec → Sec) : (s.changeSec f).sec = f s.sec := by
  obtain ⟨w, b, st, p, h⟩ := s.changeSec_frame f
  rw [h]

/-- What BURN_STATE leaves beside the rights that end. -/
theorem burnState_frame {row : Nat} (h : s.lcNext = some (row, lcSteps row)) :
    (burnState s).sec = s.sec.burnEnd row (lcSteps row) ∧ (burnState s).mem = s.mem ∧ (burnState s).ten = s.ten := by
  rw [burnState_of_next h, State.finishOpt_frame]
  obtain ⟨w, b, st, p, hrights⟩ := s.changeSec_frame fun x => x.burnEnd row (lcSteps row)
  rw [hrights]
  exact ⟨rfl, rfl, rfl⟩

/-- Settles O38: the steps of R466 in their order (R467, R470). That WIPE_SLOTS empties the dump slots too is the model's choice (DEDUCED,
notes/assumptions/44.md). -/
theorem lifeCycleSteps : Obligations.LifeCycleSteps := by
  refine ⟨fun s k c b n hserves hp hspace hb hn => ⟨fun hlt => ?_, fun hle => ?_⟩, fun s row halive hnext hfree => ?_, fun s row halive hnext hrow => ?_,
    fun s row halive hnext => ⟨?_, ?_⟩, fun s row halive hnext => ?_⟩
  · exact exec_of_serves hserves ((runLcTransition_of_passes hp hspace hb hn).trans (if_neg (Nat.not_le.2 hlt))) rfl
  · exact exec_of_serves hserves ((runLcTransition_of_passes hp hspace hb hn).trans (if_pos hle)) rfl
  · exact ⟨_, congrArg Host.Outcome.next ((State.live_of_alive halive _).trans (wipeSlots_of_next hnext hfree)), rfl, rfl, rfl,
      Sec.mark_testBit _ row 1, State.lcNext_of_mark (x := s.sec.wipe) hnext rfl rfl, rfl, rfl⟩
  · exact ⟨_, congrArg Host.Outcome.next ((State.live_of_alive halive _).trans (destroyRoot_of_next hnext hrow)), rfl, rfl,
      Sec.mark_testBit _ row 2, State.lcNext_of_mark (x := s.sec.burnRoot) hnext rfl rfl, rfl, rfl, rfl⟩
  · exact congrArg Host.Outcome.next ((State.live_of_alive halive _).trans (eraseUser_of_next hnext false))
  · exact ⟨_, congrArg Host.Outcome.next ((State.live_of_alive halive _).trans (eraseUser_of_next hnext true)), rfl, rfl,
      Sec.mark_testBit _ row 3, State.lcNext_of_mark (x := { s.sec with saved := none }) hnext rfl rfl, rfl, rfl⟩
  · obtain ⟨hsec, hmem, hten⟩ := burnState_frame hnext
    obtain ⟨r, hrun, -⟩ := State.lcNext_eq_some.1 hnext
    refine ⟨burnState s, congrArg Host.Outcome.next (State.live_of_alive halive _), ?_, ?_, ?_, ?_, ?_, ?_, hmem, hten⟩
    · rw [hsec]
      rfl
    · rw [hsec]
      rfl
    · rw [hsec]
      rfl
    · simp [State.lcNext, hsec, Sec.burnEnd, hrun]
    · rw [hsec]
      exact Sec.mark_testBit ..
    · rw [hsec]
      rfl

/-! ### Debug rights -/

/-- The certificate of a DBG_CERT_LOAD (R475). -/
def Cmd.cert (c : Cmd) : Cert := ⟨c.f 28 0 8, c.f 29 0 8, c.f 30 0 6, c.f 32 0 64, BitVec.ofNat 32 (c.f 40 0 32)⟩

/-- What a certificate command answers (R476): the rights and the level in effect, and the certificate's number. -/
def State.certView (s : State) : List (Nat × Nat) := [(8, s.rights.toNat), (8, s.level), (16, 0), (32, s.sec.certId.toNat)]

theorem State.certView_bits (s : State) : (s.certView.map Prod.fst).sum / 8 = 8 := by simp [State.certView]

theorem runDbgCertLoad_of_passes (h : Passes (dbgCertLoadChecks c s)) (hspace : 8 ≤ c.space) : runDbgCertLoad c s =
    (let t := s.changeSec fun x => { x with cert := some (c.cert, true), saved := if c.f 2 0 1 = 1 then some c.cert else x.saved }
     t.respond c.ref .ok 0 ((t.certView.map Prod.fst).sum / 8) (pack t.certView) none) := by
  unfold runDbgCertLoad
  exact (State.checked_of_passes h _).trans (State.answer_of_fits (fits_of_le hspace (State.certView_bits _)))

theorem runDbgCertClear_of_passes (h : Passes (dbgCertClearChecks c s)) (hspace : 8 ≤ c.space) : runDbgCertClear c s =
    (let t := s.changeSec fun x => { x with cert := none, saved := none }
     t.respond c.ref .ok 0 ((t.certView.map Prod.fst).sum / 8) (pack t.certView) none) :=
  (State.checked_of_passes h _).trans (State.answer_of_fits (fits_of_le hspace (State.certView_bits _)))

theorem runDbgCertRevoke_of_passes (h : Passes (dbgCertRevokeChecks c s)) (hspace : 8 ≤ c.space) : runDbgCertRevoke c s =
    (let t := s.changeSec fun x => { x with rev := c.f 1 0 8 }
     t.respond c.ref .ok 0 ((t.certView.map Prod.fst).sum / 8) (pack t.certView) none) := by
  unfold runDbgCertRevoke
  exact (State.checked_of_passes h _).trans (State.answer_of_fits (fits_of_le hspace (State.certView_bits _)))


theorem runDbgChallenge_of_passes (nonce : BitVec 256) (h : Passes (dbgChallengeChecks c s)) : runDbgChallenge nonce c s =
    s.answer { s with sec := { s.sec with challenges := s.sec.challenges + 1, challenge := some ⟨s.sec.challenges + 1, s.epoch + 8192, nonce, c.f 0 0 8⟩ } } c
      [(32, (s.sec.challenges + 1).toNat), (64, s.epoch + 8192), (256, nonce.toNat), (128, s.chip.serial.toNat), (32, 0)] :=
  State.checked_of_passes h _

/-- The tests of a response to a challenge, in order (R480; the three codes of R477 and their order are the model's reading, DEDUCED,
notes/assumptions/44.md). -/
def State.responseTests (s : State) (c : Cmd) : List (Bool × Status × Nat) :=
  [(s.challengeNamed c, .notPermitted, 0x0D27), (c.f 0 0 16 == 1 && c.zeros [(2, 0, 16), (58, 6, 2), (59, 0, 40)], .notPermitted, 0x0D20)] ++
    grantTests s (makerSigned s c 0 160) (c.f 40 0 128) (c.f 57 0 8) ++ [(decide (s.sec.rev ≤ c.f 58 0 6), .notPermitted, 0x0D24),
    ((BitVec.ofNat 8 (c.f 56 0 8) &&& ~~~(BitVec.ofNat 8 ((s.sec.challenge.map Challenge.wanted).getD 0))) == 0, .notPermitted, 0x0D26)]

theorem State.responseTests_takeSlot (s : State) (r : SlotRef) (c : Cmd) : (s.takeSlot r).responseTests c = s.responseTests c := rfl

/-- The state in which an open challenge is closed (R480). -/
def State.unchallenged (s : State) : State := { s with sec := { s.sec with challenge := none } }

theorem runDbgResponse_of_passes (h : Passes (dbgResponseChecks s)) : runDbgResponse c s =
    s.unchallenged.checked c (s.responseTests c) fun t => (t.changeSec fun x => { x with grant := some (c.f 56 0 8) }).respond c.ref .ok 0 0 0 none := by
  unfold runDbgResponse
  exact State.checked_of_passes h _

/-- Settles O39: certificates (R475, R476), challenges and responses (R480). The codes 0x0D20, 0x0D24 and 0x0D26 of DBG_RESPONSE and their order are
the model's reading (DEDUCED, notes/assumptions/44.md). -/
theorem debugRights : Obligations.DebugRights := by
  refine ⟨fun s k v c hserves hmine hp hspace => ?_, fun s k c hserves hop hp hspace => ?_, fun s k c hserves hop hp hspace => ⟨?_, ?_⟩,
    fun s k nonce c hserves hp hspace => ?_, fun s k v c hserves hp => ⟨fun htests => ?_, fun st d hfail => ?_⟩⟩
  · exact exec_of_serves_mine hserves hmine (runDbgCertLoad_of_passes hp hspace) rfl
  · have hcert : (((s.takeSlot c.ref).changeSec fun x => { x with cert := none, saved := none }).sec.certId) = 0 := by
      rw [State.changeSec_sec]
      rfl
    have hexec := exec_of_serves_mine (i := .dbgCertClear k) (mine := fun c => c.f 0 0 8 == 1) hserves (beq_iff_eq.2 hop) (runDbgCertClear_of_passes hp hspace) rfl
    simp only [State.certView, hcert] at hexec
    exact hexec
  · have hcert : (((s.takeSlot c.ref).changeSec fun x => { x with rev := c.f 1 0 8 }).sec.certId) = s.sec.certId := by
      rw [State.changeSec_sec]
      rfl
    have hexec := exec_of_serves_mine (i := .dbgCertRevoke k) (mine := fun c => c.f 0 0 8 == 2) hserves (beq_iff_eq.2 hop) (runDbgCertRevoke_of_passes hp hspace) rfl
    simp only [State.certView, hcert] at hexec
    exact hexec
  · have hrev := passes_iff.1 hp (decide (s.sec.rev < c.f 1 0 8 ∧ c.f 1 0 8 ≤ 63), .rejectedInconsistent, 0x0D24)
      (.tail _ (.tail _ (.tail _ (.head _))))
    rw [State.changeSec_sec]
    exact (of_decide_eq_true hrev).1
  · exact exec_of_serves hserves ((runDbgChallenge_of_passes nonce hp).trans (State.answer_of_fits (fits_of_le hspace (by simp)))) rfl
  · exact exec_of_serves hserves ((runDbgResponse_of_passes hp).trans (State.checked_of_passes htests _)) rfl
  · exact exec_of_serves hserves ((runDbgResponse_of_passes hp).trans (State.checked_of_fails hfail _)) rfl

end Sys2Proof.Machine

/-! SUPPORT. O40, O41 and O43: dirty-page logging, revocation and reset, dumps and the log. -/
namespace Sys2Proof.Machine

variable {s : State} {c : Cmd}

/-! ### Dirty-page logging -/

/-- What DIRTY_LOG_BEGIN leaves of its partition's logging (R506). -/
def State.dirtyBegun (s : State) (c : Cmd) : DirtyLog :=
  { DirtyLog.init with
    areaA := c.f 8 0 64, areaB := c.f 16 0 64, len := c.f 24 0 32, hostBase := c.f 32 0 64, hostLen := c.f 40 0 64
    ranges := (s.areaLayout c.part).1, hostOff := (s.areaLayout c.part).2, wait := some ⟨0, s.earliest, c.ref⟩ }

/-- A command of a partition's logging waits for the earliest boundary. -/
def State.dirtyWait (s : State) (kind : Nat) (c : Cmd) (d : DirtyLog) : DirtyLog := { d with wait := some ⟨kind, s.earliest, c.ref⟩ }

theorem runDirtyLogBegin_of_passes (h : Passes (dirtyLogBeginChecks c s)) (hspace : 16 ≤ c.space) :
    runDirtyLogBegin c s = s.modDirty c.part fun _ => s.dirtyBegun c := by
  unfold runDirtyLogBegin
  exact (State.checked_of_passes h _).trans (State.background_of_fits hspace)

theorem runDirtyLogFlip_of_passes (h : Passes (dirtyLogFlipChecks c s)) (hspace : 16 ≤ c.space) :
    runDirtyLogFlip c s = s.modDirty c.part (s.dirtyWait 1 c) :=
  (State.checked_of_passes h _).trans (State.background_of_fits hspace)

theorem runDirtyLogStop_of_passes (h : Passes (dirtyLogStopChecks c s)) (hspace : 16 ≤ c.space) :
    runDirtyLogStop c s = s.modDirty c.part (s.dirtyWait 2 c) :=
  (State.checked_of_passes h _).trans (State.background_of_fits hspace)

theorem State.dirtyAt_modDirty_self (s : State) (p : Nat) (f : DirtyLog → DirtyLog) : (s.modDirty p f).dirtyAt p = f (s.dirtyAt p) :=
  Tab.get_upd_self ..

theorem State.dirtyAt_modDirty_ne {p q : Nat} (h : q ≠ p) (f : DirtyLog → DirtyLog) : (s.modDirty p f).dirtyAt q = s.dirtyAt q :=
  Tab.get_upd_ne _ _ _ h.symm

theorem State.bitmaps_takeSlot (s : State) (r : SlotRef) (l : List Nat) : ∀ off, (s.takeSlot r).bitmaps off l = s.bitmaps off l := by
  induction l with
  | nil => exact fun _ => rfl
  | cons n l ih =>
    intro off
    have hrange : (s.takeSlot r).rangeAt n = s.rangeAt n := rfl
    simp only [State.bitmaps, hrange, ih]

theorem State.dirtyBegun_takeSlot (s : State) (r : SlotRef) (c : Cmd) : (s.takeSlot r).dirtyBegun c = s.dirtyBegun c := by
  have hlayout : (s.takeSlot r).areaLayout c.part = s.areaLayout c.part := State.bitmaps_takeSlot ..
  unfold State.dirtyBegun
  rw [hlayout]
  rfl

/-- Settles O40: BEGIN, FLIP and STOP wait for the earliest boundary (R506, R508). That BEGIN takes the layout at its take, and that nothing is
active before the boundary, is the model's reading (DEDUCED, notes/assumptions/46.md). -/
theorem dirtyLogCommands : Obligations.DirtyLogCommands := by
  intro s k c hspace u p
  refine ⟨fun hserves hop hp => ?_, fun hserves hop hp => ?_, fun hserves hp => ?_⟩
  · exact ⟨_, exec_of_serves_mine (mine := fun c => c.f 0 0 1 == 0) hserves (beq_iff_eq.2 hop) (runDirtyLogBegin_of_passes hp hspace) rfl, rfl,
      fun q hq => State.dirtyAt_modDirty_ne hq _, (State.dirtyAt_modDirty_self u p fun _ => u.dirtyBegun c).trans (State.dirtyBegun_takeSlot ..)⟩
  · exact ⟨_, exec_of_serves_mine (mine := fun c => c.f 0 0 1 == 1) hserves (beq_iff_eq.2 hop) (runDirtyLogFlip_of_passes hp hspace) rfl, rfl,
      fun q hq => State.dirtyAt_modDirty_ne hq _, State.dirtyAt_modDirty_self u p (u.dirtyWait 1 c)⟩
  · exact ⟨_, exec_of_serves hserves (runDirtyLogStop_of_passes hp hspace) rfl, rfl,
      fun q hq => State.dirtyAt_modDirty_ne hq _, State.dirtyAt_modDirty_self u p (u.dirtyWait 2 c)⟩

/-! ### Revocation and reset -/

theorem runCtxRevoke_of_passes (h : Passes (ctxRevokeChecks c s)) (hspace : 16 ≤ c.space) : runCtxRevoke c s =
    (s.modCtx (c.f 0 0 16) fun z => { z with revoke := some ⟨c.ref, s.beat.tick, 0, 0, 0⟩ }).revokeCtx c.part (c.f 0 0 16) 9 .contextLost := by
  unfold runCtxRevoke
  exact (State.checked_of_passes h _).trans (State.background_of_fits hspace)

theorem revokeDrainEnd_of_run {x : Nat} {v : RevokeRun} (h : (s.ctxAt x).revoke = some v) : revokeDrainEnd x s =
    if s.revokeDrained x then (s.modCtx x fun y => { y with revoke := none }).finish v.ref .ok 0 16
      (pack [(8, (s.ctxAt x).gen.toNat), (8, 0), (16, v.fences), (32, v.descs), (32, v.rows), (32, (s.beat.tick - v.start).toNat)])
    else s := by
  unfold revokeDrainEnd
  rw [h]

theorem runPartReset_of_passes (h : Passes (partResetChecks c s)) (hspace : 16 ≤ c.space) :
    runPartReset c s = s.startReset c.part (c.f 8 0 32) (some c.ref) true :=
  (State.checked_of_passes h _).trans (State.background_of_fits hspace)

theorem runPartResetConfig_of_passes (h : Passes (partResetConfigChecks c s)) : runPartResetConfig c s =
    s.answer (s.modPart c.part fun x => { x with wdNext := some (c.f 2 0 16, c.f 4 0 16) }) c
      [(16, c.f 2 0 16), (16, c.f 4 0 16), (32, (frameBits (s.frame + 1)).toNat)] := by
  unfold runPartResetConfig
  exact State.checked_of_passes h _

/-- What the end of a partition's reset leaves before it is answered (R528). -/
def State.resetEnded (s : State) (p : Nat) : State :=
  let t := (bitsOf (s.partAt p).record.engines).foldl State.resetEngine (s.snoopWays p)
  ({ t with coh := { t.coh with lost := t.coh.lost.filter (· != p) } } : State).modPart p fun y => { y with st := .live, reset := none }

theorem partitionResetComplete_of_run {p : Nat} {r : ResetRun} (hr : (s.partAt p).reset = some r) (hst : (s.partAt p).st = .resetting) :
    partitionResetComplete p s =
      if s.partIdle p = false then s
      else ((((s.resetEnded p).logRec { kind := 0x0004, part := p, a := r.reason, b := r.lost, c := (s.beat.tick - r.start).toNat }).writeCard p).finishOpt
        r.ref .ok 0 16 (pack [(8, (s.partAt p).gen.toNat), (8, 0), (16, r.lost), (16, r.fences),
          (8, (bitsOf (s.partAt p).record.engines).length), (8, 0), (32, (s.beat.tick - r.start).toNat), (32, 0)])) := by
  unfold partitionResetComplete
  simp only [hr, hst]
  cases s.partIdle p
  · rfl
  · rfl

/-- Settles O41: CTX_REVOKE and its end (R519), PART_RESET, its configuration and its end (R527, R528). -/
theorem recoveryCommands : Obligations.RecoveryCommands := by
  refine ⟨fun s k c hserves hp hspace => ?_, fun s x v halive hv => ⟨fun hd => ?_, fun hd => ?_⟩, fun s k c hserves hmine hp hspace => ?_,
    fun s k c hserves hmine hp hspace => ?_, fun s p r halive hr hst => ⟨fun hidle => ?_, fun hidle => ?_⟩⟩
  · exact exec_of_serves hserves (runCtxRevoke_of_passes hp hspace) rfl
  · exact congrArg Host.Outcome.next ((State.live_of_alive halive _).trans ((revokeDrainEnd_of_run hv).trans (if_pos hd)))
  · exact congrArg Host.Outcome.next ((State.live_of_alive halive _).trans ((revokeDrainEnd_of_run hv).trans (if_neg (by simp [hd]))))
  · exact exec_of_serves_mine (mine := fun c => !isConfig c) hserves (by simp [hmine]) (runPartReset_of_passes hp hspace) rfl
  · exact exec_of_serves_mine hserves hmine ((runPartResetConfig_of_passes hp).trans (State.answer_of_fits (fits_of_le hspace (by simp)))) rfl
  · exact congrArg Host.Outcome.next ((State.live_of_alive halive _).trans ((partitionResetComplete_of_run hr hst).trans (if_neg (by simp [hidle]))))
  · exact congrArg Host.Outcome.next ((State.live_of_alive halive _).trans ((partitionResetComplete_of_run hr hst).trans (if_pos hidle)))

/-! ### Dumps and the log -/

theorem runDumpStart_of_passes (h : Passes (dumpStartChecks c s)) (hspace : 16 ≤ c.space) : runDumpStart c s =
    { s with log := { s.log with run := some ⟨c.ref, s.nowFrame, s.newDump 0 (c.f 0 0 8 + 0x300)⟩ }, free := s.free + 1 } := by
  unfold runDumpStart
  exact (State.checked_of_passes h _).trans (State.background_of_fits hspace)

theorem dumpEnd_of_run {r : DumpRun} (h : s.log.run = some r) (bytes : Nat) : dumpEnd bytes s =
    (({ s with log := { s.log with run := none } } : State).storeDump { r.dump with bytes := bytes }).finish r.ref .ok 0 16
      (pack [(32, r.dump.id), (32, bytes), (32, r.start.toNat), (32, s.nowFrame.toNat)]) := by
  unfold dumpEnd
  rw [h]

theorem Rec.fields_bits (r : Rec) : (r.fields.map Prod.fst).sum = 512 := by simp [Rec.fields]

theorem Rec.flatMap_fields_bits (l : List Rec) : ((l.flatMap Rec.fields).map Prod.fst).sum = 512 * l.length := by
  induction l with
  | nil => rfl
  | cons r l ih =>
    rw [List.flatMap_cons, List.map_append, List.sum_append, ih, Rec.fields_bits, List.length_cons]
    omega

theorem byteFields_bits (l : List Byte) : ((l.map fun x : Byte => (8, x.toNat)).map Prod.fst).sum = 8 * l.length := by
  induction l with
  | nil => rfl
  | cons x l ih =>
    rw [List.map_cons, List.map_cons, List.sum_cons, ih, List.length_cons]
    omega

theorem Dump.bytesFrom_length (d : Dump) (start n stored : Nat) : (d.bytesFrom start n stored).length = n := by simp [Dump.bytesFrom]

/-- The blocked accesses that LOG_READ shows, to no partition (R544). -/
theorem runLogCounters_eq (c : Cmd) (s : State) : runLogCounters c s =
    s.answer s c [(64, s.log.first), (64, s.log.next), sat 32 s.log.lost, (32, match c.ref.mb with | .part _ => 0 | _ => s.mem.blocked.toNat),
      (32, if c.part = 0xFF then s.obs.faultAll.toNat else (s.migrateAt c.part).overflow.toNat),
      (32, if c.part = 0xFF then s.obs.wdAll.toNat else s.obs.wdPart.get 0 c.part)] := by
  unfold runLogCounters
  simp only [beq_iff_eq]
  cases c.ref.mb <;> rfl

theorem runLogRead_of_passes (dump : Nat) (h : Passes (logReadChecks c)) : runLogRead dump c s =
    if c.f 0 0 8 = 0 then runLogRecords c s else if c.f 0 0 8 = 1 then runLogCounters c s else runLogDump dump c s := by
  unfold runLogRead
  exact State.checked_of_passes h _

theorem runLogDump_of_kept {d : Dump} (h : s.log.dumpOf (c.f 4 0 32) = some d) (dump : Nat) : runLogDump dump c s =
    (let b := d.bytesFrom (c.f 8 0 64) (min (c.space - 16) (d.bytes - c.f 8 0 64)) dump
     s.answer { s with log := s.log.showDump d.id (c.f 8 0 64) b } c
      ([(32, d.id), (32, d.bytes), (32, min (c.space - 16) (d.bytes - c.f 8 0 64)), (32, 0)] ++ b.map fun x => (8, x.toNat))) := by
  simp [runLogDump, h]

theorem runLogDump_of_none (h : s.log.dumpOf (c.f 4 0 32) = none) (dump : Nat) : runLogDump dump c s = s.reject c .rejectedInconsistent 0x0F32 := by
  simp [runLogDump, h]

theorem State.storeDump_of_older {d : Dump} (h : s.log.older = true) : (s.storeDump d).log.slot0 = some d ∧ (s.storeDump d).log.slot1 = s.log.slot1 := by
  simp [State.storeDump, h]

theorem State.storeDump_of_newer {d : Dump} (h : s.log.older = false) : (s.storeDump d).log.slot1 = some d ∧ (s.storeDump d).log.slot0 = s.log.slot0 := by
  simp [State.storeDump, h]

/-- Settles O43: dumps (R542, R543) and LOG_READ (R544). That `next_seq` of view 0 is the log's next number whatever the caller may read (DEDUCED,
notes/assumptions/47.md), and that the bytes of a dump stay what was shown (DESIGN CHOICE, notes/assumptions/51.md), are the model's choices. -/
theorem dumpsAndLog : Obligations.DumpsAndLog := by
  refine ⟨fun s k c hserves hp hspace => ?_, fun s bytes r halive hr => ⟨?_, fun u => ⟨rfl, State.storeDump_of_older, State.storeDump_of_newer⟩⟩,
    fun s k dump c hserves hp => ⟨fun hview hspace => ?_, fun hview hspace => ?_, fun hview hnone => ?_, fun d hview hd hspace => ?_⟩⟩
  · exact ⟨_, _, exec_of_serves hserves (runDumpStart_of_passes hp hspace) rfl, rfl, rfl, rfl, rfl, rfl, rfl⟩
  · exact congrArg Host.Outcome.next ((State.live_of_alive halive _).trans (dumpEnd_of_run hr bytes))
  · refine exec_of_serves hserves ((runLogRead_of_passes dump hp).trans ((if_pos hview).trans (State.answer_of_fits (fits_of_le hspace ?_)))) rfl
    rw [List.map_append, List.sum_append, Rec.flatMap_fields_bits]
    simp only [List.map_cons, List.map_nil, List.sum_cons, List.sum_nil]
    omega
  · exact exec_of_serves hserves ((runLogRead_of_passes dump hp).trans ((if_neg (by simp [hview])).trans ((if_pos hview).trans
      ((runLogCounters_eq ..).trans (State.answer_of_fits (fits_of_le hspace (by simp [sat]))))))) rfl
  · exact exec_of_serves hserves ((runLogRead_of_passes dump hp).trans ((if_neg (by simp [hview])).trans ((if_neg (by simp [hview])).trans
      (runLogDump_of_none hnone dump)))) rfl
  · refine exec_of_serves hserves ((runLogRead_of_passes dump hp).trans ((if_neg (by simp [hview])).trans ((if_neg (by simp [hview])).trans
      ((runLogDump_of_kept hd dump).trans (State.answer_of_fits ?_))))) rfl
    unfold Fits
    rw [List.map_append, List.sum_append, byteFields_bits, Dump.bytesFrom_length]
    simp only [List.map_cons, List.map_nil, List.sum_cons, List.sum_nil]
    omega

end Sys2Proof.Machine

/-! SUPPORT. O44: breakpoints, trace, a lane's overcurrent and digest windows. -/
namespace Sys2Proof.Machine

variable {s t : State} {c : Cmd}

/-! ### Breakpoints -/

theorem passes_append {l m : List (Bool × Status × Nat)} (hl : Passes l) (hm : Passes m) : Passes (l ++ m) :=
  passes_iff.2 fun x hx => (List.mem_append.1 hx).elim (passes_iff.1 hl x) (passes_iff.1 hm x)

theorem breakFields_bits (s : State) (n b : Nat) : ((breakFields s n b).map Prod.fst).sum / 8 = 16 := by simp [breakFields]

theorem breakDo_of_passes {extra : List (Bool × Status × Nat)} {f : State → State} (hhead : Passes (breakHead c s)) (hextra : Passes extra)
    (hspace : 16 ≤ c.space) : breakDo extra f c s =
      (f s).respond c.ref .ok 0 (((breakFields (f s) (c.f 1 0 4) (c.f 1 4 2)).map Prod.fst).sum / 8) (pack (breakFields (f s) (c.f 1 0 4) (c.f 1 4 2))) none :=
  (State.checked_of_passes (passes_append hhead hextra) _).trans (State.answer_of_fits (fits_of_le hspace (breakFields_bits ..)))

theorem firstFail_append_of_passes {l m : List (Bool × Status × Nat)} (hl : Passes l) : firstFail (l ++ m) = firstFail m := by
  induction l with
  | nil => rfl
  | cons x l ih =>
    obtain ⟨ok, fail⟩ := x
    have hok : ok = true := passes_iff.1 hl (ok, fail) (List.mem_cons_self ..)
    subst hok
    exact ih (passes_iff.2 fun y hy => passes_iff.1 hl y (List.mem_cons_of_mem _ hy))

theorem runBreakResume_of_running (hhead : Passes (breakHead c s)) (hst : (s.coreAt (c.f 1 0 4)).st ≠ .held) :
    runBreakResume c s = s.reject c .rejectedInconsistent 0x1023 := by
  unfold runBreakResume breakDo
  refine State.checked_of_fails ?_ _
  rw [firstFail_append_of_passes hhead, beq_eq_false_iff_ne.2 hst]
  rfl

section Hit

variable {n b : Nat} {pc : W32}

theorem breakpointHit_of_off (h : (s.bpAt n b).armed = false ∨ s.coreStopped n = true ∨ s.hasRight 3 = false) : breakpointHit n b pc s = s :=
  if_pos (.inr h)

/-- The breakpoint has counted a hit (R562). -/
def State.bpCounted (s : State) (n b : Nat) : State := s.modBp n b fun x => { x with hits := satAdd 32 x.hits 1 }

/-- A core that a breakpoint stops drains (R563). -/
def Core.stopAt (pc : W32) (b : Nat) (y : Core) : Core := { y with st := .draining, pc := pc, frames := 0, hitBy := b }

theorem breakpointHit_of_armed (hn : n < 8) (harmed : (s.bpAt n b).armed = true) (hcore : s.coreStopped n = false) (hright : s.hasRight 3 = true) :
    breakpointHit n b pc s =
      if s.out.low = true ∨ (s.bpAt n b).hits + 1 < (s.bpAt n b).count then s.bpCounted n b
      else ((scopeEngines n).foldl (fun t e => match t.engPart e with
        | some p => t.leaveService p e
        | none => t) (((s.bpCounted n b).modCore n (Core.stopAt pc b)).haltPacket n 2)).holdCheck n := by
  unfold breakpointHit
  exact if_neg (by simp [hn, harmed, hcore, hright])

end Hit

/-! ### Trace -/

theorem runTraceSet_of_passes (h : Passes (traceChecks c s)) (hspace : 16 ≤ c.space) : runTraceSet c s =
    { s with box := { s.box with sets := s.box.sets ++ [⟨[s.entryOf c (c.f 0 0 2) c.pay], s.earliest, c.ref, 0xFF, none⟩] } } :=
  (State.checked_of_passes h _).trans (State.background_of_fits hspace)

theorem traceFifoRoom_of_kept (h : s.watch.trace.lost = []) (n : Nat) :
    ∃ tr : Trace, traceFifoRoom n s = { s with watch := { s.watch with trace := tr } } ∧ tr.fifo = s.watch.trace.fifo.drop n := by
  unfold traceFifoRoom
  extract_lets t lost
  have hlost : lost = [] := h
  split
  · exact ⟨_, rfl, rfl⟩
  · rw [hlost]
    exact ⟨_, rfl, rfl⟩

/-! ### Board pairs -/

/-- A bad sample of a pair with another code: the fourth in a row changes the code (R571, R572). -/
theorem State.samplePair_of_bad {n code : Nat} (hcode : code ≠ 0) (hle : code ≤ 5) (hn : n < 17) (hfixed : (s.pairAt n).code ≠ 6)
    (hne : (s.pairAt n).code ≠ code) :
    s.samplePair n code = if 4 ≤ (s.pairAt n).bad + 1 then s.setCode n code
      else { s with board := { s.board with pair := s.board.pair.put Pair.init n ⟨(s.pairAt n).code, (s.pairAt n).bad + 1, 0⟩ } } := by
  unfold State.samplePair
  simp [hcode, hle, hn, hfixed, hne]

theorem State.msix_pldm (s : State) (v : Nat) : (s.msix v).out.pldm = s.out.pldm := by
  unfold State.msix
  dsimp only
  split
  · split <;> rfl
  · rfl

theorem State.setCode_pldm (s : State) (n code : Nat) : (s.setCode n code).out.pldm = s.out.pldm ++ [(14 + n, code)] :=
  congrArg (· ++ [(14 + n, code)]) (State.msix_pldm _ 3)

/-! ### Digest windows -/

section Digest

variable {p i : Nat}

/-- A write of Lendor's own that fails goes one way, any other the other. -/
theorem written_cases {α : Type} (w : State × Written) (failed done : State → α) :
    (match w with
      | (t, .failed) => failed t
      | (t, _) => done t) = if w.2 = .failed then failed w.1 else done w.1 := by
  obtain ⟨t, st⟩ := w
  cases st <;> rfl

/-- A window of a probe that closes (R559). -/
theorem digestWindowClose_of_due (hi : i < 8) (harmed : (s.probeAt p i).armed = true) (hdue : (s.probeAt p i).window ≤ (s.probeAt p i).frames)
    (hcore : s.coreStopped 7 = false) :
    digestWindowClose p i s =
      (let x := s.probeAt p i
       let next := fun (t : State) (n : Nat) => t.modProbe p i fun y => { y with n := n, frames := x.frames - x.window, acc := Digest.zero }
       if x.acc.lines = 0 ∧ x.acc.unseen = 0 then next s x.n
       else
         let a := s.digestSum x.acc
         let b := a.2.digestSum x.acc
         let w := b.2.objWriteAs (.digest p i) p x.ctx (x.out + 128 * (x.n % 2 ^ x.logSize)) 128 0
           (x.record i (frameBits (s.frame - (x.frames - x.window))) a.1 b.1)
         if w.2 = .failed then w.1.digestLost p i
         else if x.once then w.1.modProbe p i fun _ => Probe.init else next w.1 (x.n + 1)) := by
  unfold digestWindowClose
  extract_lets x past next
  rw [if_neg (by simp [x, hi, harmed, hdue, hcore])]
  refine if_congr Iff.rfl rfl ?_
  exact written_cases _ (fun t => t.digestLost p i) fun t => if x.once then t.modProbe p i fun _ => Probe.init else next t (x.n + 1)

end Digest

theorem runBreakSet_of_passes (h : Passes (breakHead c s)) (hspace : 16 ≤ c.space) : runBreakSet c s =
    (let t := s.modBp (c.f 1 0 4) (c.f 1 4 2) fun _ => ⟨true, c.f 1 6 2, BitVec.ofNat 32 (c.f 4 0 32), BitVec.ofNat 32 (c.f 8 0 32), c.f 12 0 32, 0⟩
     t.respond c.ref .ok 0 (((breakFields t (c.f 1 0 4) (c.f 1 4 2)).map Prod.fst).sum / 8) (pack (breakFields t (c.f 1 0 4) (c.f 1 4 2))) none) :=
  breakDo_of_passes h rfl hspace

theorem runBreakClear_of_passes (h : Passes (breakHead c s)) (hspace : 16 ≤ c.space) : runBreakClear c s =
    (let t := s.modBp (c.f 1 0 4) (c.f 1 4 2) fun _ => Bp.init
     t.respond c.ref .ok 0 (((breakFields t (c.f 1 0 4) (c.f 1 4 2)).map Prod.fst).sum / 8) (pack (breakFields t (c.f 1 0 4) (c.f 1 4 2))) none) :=
  breakDo_of_passes h rfl hspace

theorem runBreakQuery_of_passes (h : Passes (breakHead c s)) (hspace : 16 ≤ c.space) : runBreakQuery c s =
    s.respond c.ref .ok 0 (((breakFields s (c.f 1 0 4) (c.f 1 4 2)).map Prod.fst).sum / 8) (pack (breakFields s (c.f 1 0 4) (c.f 1 4 2))) none :=
  breakDo_of_passes h rfl hspace

theorem runBreakResume_of_held (h : Passes (breakHead c s)) (hst : (s.coreAt (c.f 1 0 4)).st = .held) (hspace : 16 ≤ c.space) : runBreakResume c s =
    (let t := s.releaseCore (c.f 1 0 4)
     t.respond c.ref .ok 0 (((breakFields t (c.f 1 0 4) (c.f 1 4 2)).map Prod.fst).sum / 8) (pack (breakFields t (c.f 1 0 4) (c.f 1 4 2))) none) :=
  breakDo_of_passes h (passes_iff.2 (by simp [hst])) hspace

/-- Settles O44: breakpoints (R561–R564), trace (R565–R567), a lane's overcurrent (R571, R572) and digest windows (R559). That the lanes' sensors in a
pair's event are 15 to 18 is the model's choice (DESIGN CHOICE, notes/assumptions/40.md). -/
theorem observation : Obligations.Observation := by
  refine ⟨fun s k c hserves hp hspace => ⟨fun hop => ?_, fun hop => ?_, fun hop hst => ?_, fun hop hst => ?_, fun hop => ?_⟩, fun s n b pc halive hn harmed hcore hright => ⟨fun h => ?_, fun hlow hcount => ⟨?_, ?_, ?_, ?_, ?_⟩⟩,
    fun s n b pc halive hoff => congrArg Host.Outcome.next ((State.live_of_alive halive _).trans (breakpointHit_of_off hoff)),
    fun s k c hserves hp hspace => exec_of_serves hserves (runTraceSet_of_passes hp hspace) rfl,
    fun s n halive hlost => ?fifo, fun s lane code halive hlane hlo hhi hfixed hne => ?lane,
    fun s p i halive hi harmed hdue hcore => ?digest⟩
  · exact exec_of_serves_mine (mine := fun c => breakOp c == 0) hserves (beq_iff_eq.2 hop) (runBreakSet_of_passes hp hspace) rfl
  · exact exec_of_serves_mine (mine := fun c => breakOp c == 1) hserves (beq_iff_eq.2 hop) (runBreakClear_of_passes hp hspace) rfl
  · exact exec_of_serves_mine (mine := fun c => breakOp c == 2) hserves (beq_iff_eq.2 hop) (runBreakResume_of_held hp hst hspace) rfl
  · exact exec_of_serves_mine (mine := fun c => breakOp c == 2) hserves (beq_iff_eq.2 hop) (runBreakResume_of_running hp hst) rfl
  · exact exec_of_serves_mine (mine := fun c => breakOp c == 3) hserves (beq_iff_eq.2 hop) (runBreakQuery_of_passes hp hspace) rfl
  · exact congrArg Host.Outcome.next ((State.live_of_alive halive _).trans ((breakpointHit_of_armed hn harmed hcore hright).trans (if_pos h)))
  · exact congrArg Core.st (State.coreAt_modCore_self _ n (Core.stopAt pc b))
  · exact congrArg Core.pc (State.coreAt_modCore_self _ n (Core.stopAt pc b))
  · exact congrArg Core.hitBy (State.coreAt_modCore_self _ n (Core.stopAt pc b))
  · exact congrArg Core.frames (State.coreAt_modCore_self _ n (Core.stopAt pc b))
  · exact congrArg Host.Outcome.next ((State.live_of_alive halive _).trans ((breakpointHit_of_armed hn harmed hcore hright).trans
      (if_neg (by simp [hlow, hcount]))))
  case fifo =>
    obtain ⟨tr, htr, hfifo⟩ := traceFifoRoom_of_kept hlost n
    exact ⟨_, congrArg Host.Outcome.next ((State.live_of_alive halive _).trans htr), rfl, hfifo⟩
  case lane =>
    have hstep : exec (.traceLaneOvercurrent lane code) s = .next (s.samplePair (1 + lane) code) :=
      congrArg Host.Outcome.next ((State.live_of_alive halive _).trans (if_pos ⟨hlane, hlo, hhi⟩))
    refine ⟨_, hstep, ?_⟩
    rw [State.samplePair_of_bad (by omega) (by omega) (by omega) hfixed hne]
    split
    next hbad =>
      refine ⟨fun h => absurd h (by omega), fun _ => ⟨Tab.get_put_self .., rfl, rfl, ?_⟩, fun n hn => Tab.get_put_ne _ _ _ hn.symm⟩
      rw [State.setCode_pldm, ← Nat.add_assoc]
    next hbad =>
      exact ⟨fun _ => ⟨Tab.get_put_self .., rfl, rfl⟩, fun h => absurd h (by omega), fun n hn => Tab.get_put_ne _ _ _ hn.symm⟩
  case digest =>
    have hstep : exec (.digestWindowClose p i) s = .next (digestWindowClose p i s) := congrArg Host.Outcome.next (State.live_of_alive halive _)
    rw [hstep, digestWindowClose_of_due hi harmed hdue hcore]
    refine ⟨fun hlines hunseen => ?_, fun hsome => ⟨fun hw honce => ?_, fun hw honce => ?_, fun hw => ?_⟩⟩
    · exact congrArg _ (if_pos ⟨hlines, hunseen⟩)
    · exact congrArg _ ((if_neg (by tauto)).trans ((if_neg hw).trans (if_pos honce)))
    · exact congrArg _ ((if_neg (by tauto)).trans ((if_neg hw).trans (if_neg (by simp [honce]))))
    · exact congrArg _ ((if_neg (by tauto)).trans (if_pos hw))

end Sys2Proof.Machine

/-! SUPPORT. O46 and O47: ring-state fills, descriptor fetches and the descriptors at the head of a ring. -/
namespace Sys2Proof.Machine

variable {s t u : State} {r : Nat}

/-! ### Fills -/

theorem mem_of_argMin {α : Type} {key : α → Int} {l : List α} {a : α} (h : argMin key l = some a) : a ∈ l := by
  induction l with
  | nil => cases h
  | cons b l ih =>
    unfold argMin at h
    split at h
    · cases h
      exact List.mem_cons_self ..
    · next c hc =>
      split at h
      · cases h
        exact List.mem_cons_of_mem _ (ih hc)
      · cases h
        exact List.mem_cons_self ..

/-- The ring that leaves a cache is one of those that it holds. -/
theorem State.mem_of_ringVictim {f v : Nat} (h : s.ringVictim f = some v) : v ∈ s.ten.ringCache.get [] f :=
  (List.mem_filter.1 (mem_of_argMin h)).1

/-- A ring that enters its cache stays as it is; of another at most `fill` changes (R166). -/
theorem State.cacheRing_ring (h : s.cacheRing r = some t) :
    t = { s with ten := { s.ten with ring := t.ten.ring, ringCache := t.ten.ringCache } } ∧ t.ringAt r = s.ringAt r ∧ t.cached r = true := by
  unfold State.cacheRing at h
  dsimp only at h
  split at h
  next hin =>
    cases h
    exact ⟨rfl, rfl, hin⟩
  next hout =>
    split at h
    · cases h
      exact ⟨rfl, rfl, by simp [State.cached, State.ringAt]⟩
    · split at h
      next v hv =>
        cases h
        have hne : v ≠ r := fun hvr => hout (by simpa [hvr] using State.mem_of_ringVictim hv)
        have hring : ∀ (w : State) (f : Ring → Ring), (w.modRing v f).ringAt r = w.ringAt r := fun w f => (State.ringAt_modRing ..).trans (if_neg hne)
        refine ⟨rfl, hring _ _, ?_⟩
        unfold State.cached
        rw [hring]
        simp [State.modRing, State.ringAt]
      next => cases h

theorem ringStateFill_of_waiting (hfill : (s.ringAt r).fill = true) (hst : (s.ringAt r).st ≠ .unbound) (hcore : s.coreStopped (1 + (s.ringAt r).home) = false) :
    ringStateFill r s = match s.cacheRing r with
      | some t => t.modRing r fun x => { x with fill := false }
      | none => s := by
  unfold ringStateFill
  extract_lets x
  rw [if_neg (by simp [x, hfill, hst, hcore])] <;> rfl


/-! ### Fetches -/

/-- The descriptor bytes of a ring's format. -/
def Ring.descBytes (x : Ring) : Nat := if x.fmt = 3 then 64 else 32

/-- Where the entry at `fetch` lies (R146). -/
def Ring.fetchAddr (x : Ring) : Nat := x.descAddr + x.descBytes * (x.fetch.toNat % x.slots)

/-- The copy that a push left of the entry at `fetch`. -/
def Ring.pushedCopy (x : Ring) : Option (BitVec 512) := (x.pushed.find? fun e => e.1 == x.fetch).map Prod.snd

/-- A fetch reads the entry at `fetch`: the copy that a push left, or memory. -/
def State.fetchRead (s : State) (r : Nat) (host : Option (BitVec 512)) : State × Option Nat :=
  match (s.ringAt r).pushedCopy with
  | some b => (s, some b.toNat)
  | none => s.objRead ((s.ringPart r).getD 0xFF) (s.ringAt r).ctx (s.ringAt r).fetchAddr (s.ringAt r).descBytes (s.ringAt r).cls (host.map BitVec.toNat)

/-- A fetch from memory whose access has to wait for its bucket. -/
def State.fetchWaits (s : State) (r : Nat) : Prop :=
  (s.ringAt r).pushedCopy = none ∧ s.objWaits ((s.ringPart r).getD 0xFF) (s.ringAt r).ctx (s.ringAt r).fetchAddr (s.ringAt r).cls false = true

/-- The descriptor that a fetched word is. -/
def State.fetchedDesc (s : State) (r v : Nat) : Desc :=
  let x := s.ringAt r
  ⟨x.fetch, BitVec.ofNat 512 (v % 2 ^ (8 * x.descBytes)), ((x.frames.find? fun e => below x.fetch e.1).map Prod.snd).getD s.frame⟩

/-- The ring's indices once the entry at `fetch` is taken. -/
def Ring.fetched (i : W32) (x : Ring) : Ring :=
  { x with
    fetch := i + 1, pushed := x.pushed.filter fun e => e.1 != i
    frames := x.frames.filter fun e => e.1 != i + 1, flushes := x.flushes.filter fun e => e.1 != i + 1 }

/-- What a fetch does with what it has read. -/
def State.fetchDone (s : State) (r : Nat) (o : State × Option Nat) : State :=
  let x := s.ringAt r
  match o.2 with
  | none => ((o.1.haltRing r 0x0320 x.fetch).unbindCheck r).floorSettle
  | some v =>
    let d := s.fetchedDesc r v
    let u := o.1.modRing r (Ring.fetched x.fetch)
    if (x.flushes.any fun e => below x.fetch e.1) = false ∧ 4 < d.type then
      (((u.modRing r fun x => { x with queue := x.queue ++ [d] }).haltRing r 0x0321 x.fetch).unbindCheck r).floorSettle
    else match u.fetchStatus ((s.ringPart r).getD 0xFF) x d with
      | some st => u.complete r d st
      | none => u.modRing r fun x => { x with queue := x.queue ++ [d] }

theorem State.fetchDone_of_fault {o : State × Option Nat} (ho : o.2 = none) :
    s.fetchDone r o = ((o.1.haltRing r 0x0320 (s.ringAt r).fetch).unbindCheck r).floorSettle := by
  unfold State.fetchDone
  rw [ho]

/-- The state in which a fetch has moved its ring on. -/
def State.fetchMoved (s : State) (r : Nat) (o : State × Option Nat) : State := o.1.modRing r (Ring.fetched (s.ringAt r).fetch)

theorem State.fetchDone_of_badType {o : State × Option Nat} {v : Nat} (ho : o.2 = some v)
    (hflush : ((s.ringAt r).flushes.any fun e => below (s.ringAt r).fetch e.1) = false) (htype : 4 < (s.fetchedDesc r v).type) :
    s.fetchDone r o = ((((s.fetchMoved r o).modRing r fun x => { x with queue := x.queue ++ [s.fetchedDesc r v] }).haltRing r 0x0321
      (s.ringAt r).fetch).unbindCheck r).floorSettle := by
  unfold State.fetchDone
  rw [ho]
  exact if_pos ⟨hflush, htype⟩

section

variable {o : State × Option Nat} {v : Nat} (ho : o.2 = some v)
  (hgood : ((s.ringAt r).flushes.any fun e => below (s.ringAt r).fetch e.1) = true ∨ (s.fetchedDesc r v).type ≤ 4)
include ho hgood

theorem State.fetchDone_of_good : s.fetchDone r o =
    match (s.fetchMoved r o).fetchStatus ((s.ringPart r).getD 0xFF) (s.ringAt r) (s.fetchedDesc r v) with
    | some st => (s.fetchMoved r o).complete r (s.fetchedDesc r v) st
    | none => (s.fetchMoved r o).modRing r fun x => { x with queue := x.queue ++ [s.fetchedDesc r v] } := by
  unfold State.fetchDone
  rw [ho]
  refine if_neg ?_
  rintro ⟨hflush, htype⟩
  exact hgood.elim (fun h => Bool.false_ne_true (hflush.symm.trans h)) fun h => Nat.not_le.2 htype h

theorem State.fetchDone_of_status {st : Status}
    (hst : (s.fetchMoved r o).fetchStatus ((s.ringPart r).getD 0xFF) (s.ringAt r) (s.fetchedDesc r v) = some st) :
    s.fetchDone r o = (s.fetchMoved r o).complete r (s.fetchedDesc r v) st := by
  rw [State.fetchDone_of_good ho hgood, hst]

theorem State.fetchDone_of_queue
    (hst : (s.fetchMoved r o).fetchStatus ((s.ringPart r).getD 0xFF) (s.ringAt r) (s.fetchedDesc r v) = none) :
    s.fetchDone r o = (s.fetchMoved r o).modRing r fun x => { x with queue := x.queue ++ [s.fetchedDesc r v] } := by
  rw [State.fetchDone_of_good ho hgood, hst]

end

theorem descriptorFetch_of_idle (h : s.fetches r = false) (host : Option (BitVec 512)) : descriptorFetch r host s = s := if_pos h

section Fetch

variable {host : Option (BitVec 512)} (hf : s.fetches r = true)
include hf

theorem descriptorFetch_of_waits (hw : s.fetchWaits r) : descriptorFetch r host s = s := by
  obtain ⟨hcopy, hwait⟩ := hw
  unfold descriptorFetch
  rw [if_neg (by simp [hf])]
  extract_lets x p i n copy
  exact if_pos ⟨Option.isNone_iff_eq_none.2 hcopy, hwait⟩

theorem descriptorFetch_of_ready (hw : ¬s.fetchWaits r) : descriptorFetch r host s = s.fetchDone r (s.fetchRead r host) := by
  unfold descriptorFetch
  rw [if_neg (by simp [hf])]
  extract_lets x p i n copy
  have hwait : ¬(copy.isNone = true ∧ s.objWaits p x.ctx (x.descAddr + n * (i.toNat % x.slots)) x.cls false = true) :=
    fun h => hw ⟨Option.isNone_iff_eq_none.1 h.1, h.2⟩
  dsimp only
  rw [if_neg hwait]
  rfl

end Fetch

section Status

variable {p : Nat} {x : Ring} {d : Desc}

theorem State.fetchStatus_of_unflushed (h : ∀ e ∈ x.flushes, below d.index e.1 = false) : s.fetchStatus p x d =
    if d.partGen ≠ (s.partAt p).gen.toNat then some .staleGeneration
    else if (s.ctxAt x.ctx).st ≠ .live then some .contextLost
    else if d.ctxGen ≠ (s.ctxAt x.ctx).gen.toNat then some .staleGeneration
    else if d.deadline x.fmt ≠ 0 ∧ s.driftBars p = true then some .notPermitted
    else none := by
  have hnone : (x.flushes.find? fun e => below d.index e.1) = none := List.find?_eq_none.2 fun e he => by simp [h e he]
  unfold State.fetchStatus
  rw [hnone]

end Status

/-- Settles O46: a fill (R166), and a fetch by what it reads and by its status (R150, R158, R163). -/
theorem ringFillsAndFetches : Obligations.RingFillsAndFetches := by
  refine ⟨fun s r halive hfill hst hcore => ⟨fun hnone => ?_, fun u hu => ?fill⟩, fun s r host hf => ?_, fun s r host halive hf => ⟨fun hw => ?_, fun hw ho => ?_, fun v hw ho => ⟨fun hflush htype => ?_, fun hgood => ⟨fun st hst => ?_, fun hst => ?_⟩⟩⟩,
    fun s p x d h => ⟨fun hgen => ?_, fun hgen hctx => ?_, fun hgen hctx hcgen => ?_⟩⟩
  · exact congrArg Host.Outcome.next ((State.live_of_alive halive _).trans ((ringStateFill_of_waiting hfill hst hcore).trans (by rw [hnone])))
  case fill =>
    obtain ⟨hframe, hring, hcached⟩ := State.cacheRing_ring hu
    obtain ⟨-, -, hother⟩ := State.cacheRing_frame hu
    have hstep : ringStateFill r s = u.modRing r fun x => { x with fill := false } := (ringStateFill_of_waiting hfill hst hcore).trans (by rw [hu])
    refine ⟨_, congrArg Host.Outcome.next ((State.live_of_alive halive _).trans hstep), ?_, ?_, fun q hq => ?_, ?_⟩
    · rw [State.ringAt_modRing_self, hring]
    · simpa [State.cached, State.modRing, State.ringAt] using hcached
    · rw [State.ringAt_modRing, if_neg hq.symm]
      obtain ⟨fill, hfill⟩ := hother q
      rw [hfill]
    · rw [hframe]
      rfl
  · exact congrArg Host.Outcome.next (by unfold State.live; rw [descriptorFetch_of_idle hf]; split <;> rfl)
  · exact congrArg Host.Outcome.next ((State.live_of_alive halive _).trans (descriptorFetch_of_waits hf hw))
  · exact congrArg Host.Outcome.next ((State.live_of_alive halive _).trans ((descriptorFetch_of_ready hf hw).trans (State.fetchDone_of_fault ho)))
  · exact congrArg Host.Outcome.next ((State.live_of_alive halive _).trans ((descriptorFetch_of_ready hf hw).trans (State.fetchDone_of_badType ho hflush htype)))
  · exact congrArg Host.Outcome.next ((State.live_of_alive halive _).trans ((descriptorFetch_of_ready hf hw).trans (State.fetchDone_of_status ho hgood hst)))
  · exact congrArg Host.Outcome.next ((State.live_of_alive halive _).trans ((descriptorFetch_of_ready hf hw).trans (State.fetchDone_of_queue ho hgood hst)))
  · rw [State.fetchStatus_of_unflushed h, if_pos hgen]
  · rw [State.fetchStatus_of_unflushed h, if_neg (not_not_intro hgen), if_pos hctx]
  · rw [State.fetchStatus_of_unflushed h, if_neg (not_not_intro hgen), if_neg (not_not_intro hctx), if_pos hcgen]


/-! ### Descriptors -/

section Descriptors

variable {d : Desc}

theorem State.starting_of_lost {type : Nat} (hd : s.head r type = some d) (hc : (s.ctxAt (s.ringAt r).ctx).st ≠ .live) (f : Desc → State) :
    s.starting r type f = s.complete r d .contextLost := by
  simp [State.starting, hd, hc]

theorem work_of_lost {e : Nat} (hd : s.head r 1 = some d) (hc : (s.ctxAt (s.ringAt r).ctx).st ≠ .live) : work r e s = s.complete r d .contextLost := by
  simp [work, hd, hc]

/-- The state in which a WORK's admission cycle decides: the floor and the field are settled (R172). -/
def State.cycleReady (s : State) (f : Nat) : State := s.floorSettle.settle f

/-- What a WORK's admission cycle does at a settled field (R172, R174). -/
def State.workCycle (s : State) (r e : Nat) : State :=
  match s.cycleFor (engField e) (s.candidates (engField e)) with
  | none => s
  | some (p, spare) => match s.offers p (engField e) with
    | o :: _ => if o.eng = e ∧ o.work.id = r ∧ o.desc.isSome = true then s.takeCycle (engField e) p spare else s
    | [] => s

theorem work_of_live {e : Nat} (hd : s.head r 1 = some d) (hc : (s.ctxAt (s.ringAt r).ctx).st = .live) :
    work r e s = (s.cycleReady (engField e)).workCycle r e := by
  unfold work
  rw [hd]
  exact if_neg (not_not_intro hc)

theorem State.workCycle_of_none {e : Nat} (h : s.cycleFor (engField e) (s.candidates (engField e)) = none) : s.workCycle r e = s := by
  unfold State.workCycle
  rw [h]

section Cycle

variable {e p : Nat} {spare : Bool} (hcycle : s.cycleFor (engField e) (s.candidates (engField e)) = some (p, spare))
include hcycle

theorem State.workCycle_of_mine {o : Offer} {rest : List Offer} (ho : s.offers p (engField e) = o :: rest)
    (hmine : o.eng = e ∧ o.work.id = r ∧ o.desc.isSome = true) : s.workCycle r e = s.takeCycle (engField e) p spare := by
  unfold State.workCycle
  rw [hcycle]
  dsimp only
  rw [ho]
  exact if_pos hmine

theorem State.workCycle_of_other (ho : ∀ o rest, s.offers p (engField e) = o :: rest → ¬(o.eng = e ∧ o.work.id = r ∧ o.desc.isSome = true)) :
    s.workCycle r e = s := by
  unfold State.workCycle
  rw [hcycle]
  dsimp only
  split
  next o rest hl => exact if_neg (ho o rest hl)
  next => rfl

end Cycle

/-- What a PREFILL does on a LIVE context (R276, R277). -/
theorem prefill_of_live (hd : s.head r 2 = some d) (hc : (s.ctxAt (s.ringAt r).ctx).st = .live) : prefill r s =
    (let x := s.ringAt r
     let n := d.seq x.fmt
     let q := s.seqAt n
     let pos := d.pos x.fmt
     let tokens := d.tokens x.fmt
     if (s.partAt ((s.ringPart r).getD 0xFF)).record.hasSeq n = false ∨ q.st = .free ∨ q.ctx ≠ x.ctx then s.complete r d .notPermitted
     else if q.st = .failed then s.complete r d q.last
     else if q.st ≠ .filling then s.complete r d .notPermitted
     else if 2 ≤ q.chunks.length then s
     else if pos ≠ q.queuedEnd ∨ tokens = 0 ∨ q.prompt < pos + tokens then s.complete r d .notPermitted
     else (s.startDesc r d).modSeq n fun q => { q with
       queuedEnd := pos + tokens
       chunks := q.chunks ++ [⟨d.tokAddr x.fmt, pos, tokens, deadlineAt d.frame (d.deadline x.fmt), r, d⟩] }) := by
  unfold prefill
  exact State.starting_of_live hd hc _

theorem wait_of_fence (hd : s.head r 3 = some d) (hc : (s.ctxAt (s.ringAt r).ctx).st = .live) : wait r s =
    (let x := s.ringAt r
     let n := d.fence x.fmt
     let v := d.value x.fmt
     let f := s.fenceAt n
     if s.fenceFits ((s.ringPart r).getD 0xFF) n v = false then s.complete r d .notPermitted
     else if f.st = .abandoned then ((s.startDesc r d).complete r d .abandoned).flushRing r .abandoned
     else if f.satisfies (BitVec.ofNat 64 v) then (s.startDesc r d).complete r d .ok
     else (s.startDesc r d).modFence n fun f => { f with waiters := addWaiter ⟨BitVec.ofNat 64 v, r, d.index⟩ f.waiters }) := by
  unfold wait
  exact State.starting_of_live hd hc _

/-- What a SIGNAL does on a LIVE context (R300, R301). -/
theorem signalDesc_of_fence (hd : s.head r 4 = some d) (hc : (s.ctxAt (s.ringAt r).ctx).st = .live) : signalDesc r s =
    (let x := s.ringAt r
     let n := d.fence x.fmt
     let v := d.value x.fmt
     let f := s.fenceAt n
     let t := (s.startDesc r d).signal n (BitVec.ofNat 64 v)
     if s.fenceFits ((s.ringPart r).getD 0xFF) n v = false ∨ f.kind ≠ .plain ∨ f.owner ≠ x.ctx then s.complete r d .notPermitted
     else if f.st = .abandoned then s.complete r d .abandoned
     else if t.2 = .rejected then t.1.complete r d .notPermitted else t.1.complete r d .ok) := by
  unfold signalDesc
  refine (State.starting_of_live hd hc _).trans ?_
  dsimp only
  refine if_congr Iff.rfl rfl (if_congr Iff.rfl rfl ?_)
  rcases (s.startDesc r d).signal _ _ with ⟨t, _ | _ | _⟩ <;> rfl

end Descriptors

/-- Settles O47: the five descriptors of a ring on a LIVE context and on a lost one (R133, R172, R276, R277, R300–R302). -/
theorem descriptors : Obligations.Descriptors := by
  intro s r halive x p live
  have next : ∀ {f : State → State} {t : State}, f s = t → Host.Outcome.next (s.live f) = (.next t : Host.Outcome State Fault Refusal) :=
    fun h => congrArg Host.Outcome.next ((State.live_of_alive halive _).trans h)
  refine ⟨fun d hd hc => next (State.starting_of_live hd hc _), fun d hc => ⟨fun hd => next (State.starting_of_lost hd hc _), fun e hd => next (work_of_lost hd hc),
    fun hd => next (State.starting_of_lost hd hc _), fun hd => next (State.starting_of_lost hd hc _), fun hd => next (State.starting_of_lost hd hc _)⟩,
    fun d e hd hc => ⟨fun hnone => next ((work_of_live hd hc).trans (State.workCycle_of_none hnone)), fun p' spare hcycle => ⟨fun o rest ho hmine => next ((work_of_live hd hc).trans (State.workCycle_of_mine hcycle ho hmine)), fun ho => next ((work_of_live hd hc).trans (State.workCycle_of_other hcycle ho))⟩⟩,
    fun d hd hc => ?prefill, fun d hd hc => ?wait, fun d hd hc => ?signal⟩
  case prefill =>
    intro n q pos k mine
    have hp := prefill_of_live hd hc
    have hmine : ((s.partAt p).record.hasSeq n = false ∨ q.st = .free ∨ q.ctx ≠ x.ctx) ↔ ¬mine := by
      simp only [mine, not_and_or, Bool.not_eq_true, not_not, ne_eq]
    have hnot : mine → ¬((s.partAt p).record.hasSeq n = false ∨ q.st = .free ∨ q.ctx ≠ x.ctx) := fun hm h => hmine.1 h hm
    refine ⟨fun hm => next (hp.trans (if_pos (hmine.2 hm))), fun hm hst => next (hp.trans ((if_neg (hnot hm)).trans (if_pos hst))),
      fun hm hst hst' => next (hp.trans ((if_neg (hnot hm)).trans ((if_neg hst).trans (if_pos hst')))), fun hm hst => ?_, fun hm hst => ?_, fun hm hst => ?_⟩
    all_goals
      have hfill : prefill r s = if 2 ≤ q.chunks.length then s
          else if pos ≠ q.queuedEnd ∨ k = 0 ∨ q.prompt < pos + k then s.complete r d .notPermitted
          else (s.startDesc r d).modSeq n fun q => { q with
            queuedEnd := pos + k, chunks := q.chunks ++ [⟨d.tokAddr x.fmt, pos, k, deadlineAt d.frame (d.deadline x.fmt), r, d⟩] } :=
        hp.trans ((if_neg (hnot hm)).trans ((if_neg (show q.st ≠ .failed by simp [hst])).trans (if_neg (not_not_intro hst))))
    · exact fun hlen => next (hfill.trans (if_pos hlen))
    · exact fun hlen hbad => next (hfill.trans ((if_neg (Nat.not_le.2 hlen)).trans (if_pos hbad)))
    · exact fun hlen hpos hk hend => next (hfill.trans ((if_neg (Nat.not_le.2 hlen)).trans (if_neg (by simp [hpos, hk]; omega))))
  case wait =>
    intro n v f
    have hw := wait_of_fence hd hc
    exact ⟨fun hfit => next (hw.trans (if_pos hfit)), fun hfit hst => next (hw.trans ((if_neg fun h => Bool.false_ne_true (h.symm.trans hfit)).trans (if_pos hst))),
      fun hfit hst hsat => next (hw.trans ((if_neg fun h => Bool.false_ne_true (h.symm.trans hfit)).trans ((if_neg hst).trans (if_pos hsat)))),
      fun hfit hst hsat => next (hw.trans ((if_neg fun h => Bool.false_ne_true (h.symm.trans hfit)).trans ((if_neg hst).trans (if_neg fun h => Bool.false_ne_true (hsat.symm.trans h)))))⟩
  case signal =>
    intro n v f t may
    have hs := signalDesc_of_fence hd hc
    have hmay : (s.fenceFits p n v = false ∨ f.kind ≠ .plain ∨ f.owner ≠ x.ctx) ↔ ¬may := by
      simp only [may, not_and_or, Bool.not_eq_true, ne_eq]
    have hnot : may → ¬(s.fenceFits p n v = false ∨ f.kind ≠ .plain ∨ f.owner ≠ x.ctx) := fun hm h => hmay.1 h hm
    exact ⟨fun hm => next (hs.trans (if_pos (hmay.2 hm))), fun hm hst => next (hs.trans ((if_neg (hnot hm)).trans (if_pos hst))),
      fun hm hst hrej => next (hs.trans ((if_neg (hnot hm)).trans ((if_neg hst).trans (if_pos hrej)))),
      fun hm hst hrej => next (hs.trans ((if_neg (hnot hm)).trans ((if_neg hst).trans (if_neg hrej))))⟩

end Sys2Proof.Machine

/-! SUPPORT. O50: admission cycles and the floor window. -/
namespace Sys2Proof.Machine

variable {s t : State} {f p n : Nat}

/-! ### Admission cycles -/

theorem admissionCycle_of_none (hf : f < 4) (h : (s.cycleReady f).cycleFor f ((s.cycleReady f).candidates f) = none) :
    admissionCycle f s = s.cycleReady f := by
  refine (if_neg (Nat.not_le.2 hf)).trans ?_
  change (match (s.cycleReady f).cycleFor f ((s.cycleReady f).candidates f) with
    | none => s.cycleReady f
    | some (p, spare) => (s.cycleReady f).takeCycle f p spare) = _
  rw [h]

theorem admissionCycle_of_some {spare : Bool} (hf : f < 4) (h : (s.cycleReady f).cycleFor f ((s.cycleReady f).candidates f) = some (p, spare)) :
    admissionCycle f s = (s.cycleReady f).takeCycle f p spare := by
  refine (if_neg (Nat.not_le.2 hf)).trans ?_
  change (match (s.cycleReady f).cycleFor f ((s.cycleReady f).candidates f) with
    | none => s.cycleReady f
    | some (p, spare) => (s.cycleReady f).takeCycle f p spare) = _
  rw [h]

/-- The state in which a cycle is given to a partition: its turn of the spare ones is taken, and the others below their guarantee are denied (R174). -/
def State.cycleGiven (s : State) (f p : Nat) (spare : Bool) : State :=
  ((s.candidates f).filter fun q => q != p && decide ((s.pfieldAt q f).used < s.cycleGuar q f)).foldl (fun t q =>
    t.modPfield q f fun x => { x with denied := x.denied + 1 }) (if spare = true then s.spareTurn f p (s.candidates f) else s)

/-- What the partition that has the cycle admits. -/
def State.cycleAdmits (s : State) (f p : Nat) (spare : Bool) : State × Bool :=
  (s.cycleGiven f p spare).admitOne p f ((s.cycleGiven f p spare).offers p f)

theorem State.takeCycle_eq (s : State) (f p : Nat) (spare : Bool) : s.takeCycle f p spare =
    if (s.cycleAdmits f p spare).2 = true then
      (let t := (s.cycleAdmits f p spare).1.modPfield p f fun x => { x with used := satAdd 16 x.used 1, spare := x.spare + bit spare }
       (if spare then t.countGlob (8 * f + 5) 1 else t).settlePart p f)
    else (s.cycleAdmits f p spare).1.floorSettle := by
  change (match s.cycleAdmits f p spare with
    | (t, false) => t.floorSettle
    | (t, true) =>
      let t := t.modPfield p f fun x => { x with used := satAdd 16 x.used 1, spare := x.spare + bit spare }
      (if spare then t.countGlob (8 * f + 5) 1 else t).settlePart p f) = _
  rcases s.cycleAdmits f p spare with ⟨t, _ | _⟩ <;> rfl

/-! ### The floor window -/

/-- The state in which an action of a boundary is not due any more (R89). -/
def State.undue (s : State) (n : Nat) : State := { s with beat := { s.beat with due := s.beat.due.filter fun x => x != n } }

theorem State.once_of_due (h : n ∈ s.beat.due) (g : State → State) : s.once n g = (g (s.undue n)).servicePass :=
  if_pos (List.contains_iff_mem.2 h)

theorem State.once_of_undue (h : n ∉ s.beat.due) (g : State → State) : s.once n g = s := if_neg (by simpa using h)

/-- From one state to another the floor's debts only end: the table keeps its form, nobody becomes due, and nothing but the tenants changes. -/
structure FloorEnds (s t : State) : Prop where
  wf : Tab.wf CtxField.init s.ten.ctxf = true → Tab.wf CtxField.init t.ten.ctxf = true
  due : ∀ k, (t.ten.ctxf.get CtxField.init k).due = true → (s.ten.ctxf.get CtxField.init k).due = true
  frame : t = { s with ten := t.ten }

theorem FloorEnds.refl (s : State) : FloorEnds s s := ⟨id, fun _ => id, rfl⟩

theorem FloorEnds.floorSettle (s : State) : FloorEnds s s.floorSettle := by
  unfold State.floorSettle
  refine State.foldl_inv (FloorEnds s) _ (fun t e h => ?_) _ _ (.refl s)
  split
  · exact h
  · split
    · split
      · exact h
      · refine ⟨fun hwf => Tab.wf_upd (e.1 / 4 * 4 + e.1 % 4) (fun x : CtxField => { x with owed := false, due := false }) (h.wf hwf), fun k hk => h.due k ?_, ?_⟩
        · unfold State.modCtxf at hk
          rw [Tab.get_upd] at hk
          split at hk
          · cases hk
          · exact hk
        · rw [h.frame]
          rfl
    · exact h

/-- A context that is still owed after frame 32 becomes due (R189). -/
def CtxField.fallDue (order : Nat) (x : CtxField) : CtxField := if x.owed then { x with due := true, dueAt := order } else x

theorem CtxField.fallDue_due {order : Nat} {x : CtxField} (h : (x.fallDue order).due = true) : (x.fallDue order).owed = true ∨ x.due = true := by
  unfold CtxField.fallDue at h ⊢
  split
  next ho => exact .inl ho
  next ho =>
    rw [if_neg ho] at h
    exact .inr h

/-- What FLOOR_DUE leaves of the tenants: the debts that still stand have fallen due. -/
def State.floorFallen (s : State) : State :=
  { s with
    org := { s.org with winStep := 1 }
    ten := { s.ten with ctxf := s.ten.ctxf.mapAll CtxField.init fun _ x => CtxField.fallDue s.ten.order x } }

/-- The window's conditions are judged: that changes neither the tenants nor the beat, nor the step of the window. -/
theorem floorDue_frame (s : State) : (floorDue s).org.winStep = 1 ∧ (floorDue s).ten = s.floorSettle.tickOrder.floorFallen.ten ∧
    (floorDue s).beat = s.floorSettle.beat := by
  refine State.foldl_inv (fun t => t.org.winStep = 1 ∧ t.ten = s.floorSettle.tickOrder.floorFallen.ten ∧ t.beat = s.floorSettle.beat) _
    (fun t p h => ?_) _ _ ⟨rfl, rfl, rfl⟩
  refine State.foldl_inv (fun t => t.org.winStep = 1 ∧ t.ten = s.floorSettle.tickOrder.floorFallen.ten ∧ t.beat = s.floorSettle.beat) _
    (fun t f h => ?_) _ _ h
  exact h

theorem Tab.get_mapAll_inv {α : Type} [DecidableEq α] {d : α} {g : Nat → α → α} {P : α → Prop} (hd : P d) (hg : ∀ n v, P (g n v)) (t : Tab α) (n : Nat) :
    P ((t.mapAll d g).get d n) := by
  induction t with
  | nil => exact hd
  | cons e t ih =>
    unfold Tab.mapAll
    rw [List.map_cons, List.filter_cons]
    split
    · unfold Tab.get
      split
      · exact hg _ _
      · exact ih
    · exact ih

/-- The close of the window leaves no debt (R190). -/
theorem floorClose_debts (s : State) (c f : Nat) : ((floorClose s).ctxfAt c f).owed = false ∧ ((floorClose s).ctxfAt c f).due = false :=
  Tab.get_mapAll_inv (d := CtxField.init) (g := fun _ x => { x with owed := false, due := false })
    (P := fun x => x.owed = false ∧ x.due = false) ⟨rfl, rfl⟩ (fun _ _ => ⟨rfl, rfl⟩) _ _

theorem State.partEvent_beat (s : State) (p : Nat) : (s.partEvent p).beat = s.beat := by rw [State.partEvent_frame]

theorem floorClose_frame (s : State) : (floorClose s).org.winStep = 0 ∧ (floorClose s).beat = s.floorSettle.beat := by
  refine ⟨rfl, ?_⟩
  refine (State.foldl_keeps State.beat State.partEvent State.partEvent_beat _ _).trans ?_
  refine State.foldl_keeps State.beat _ (fun _ _ => ?_) _ _
  rfl

theorem floorDue_debts (s : State) (hwf : Tab.wf CtxField.init s.ten.ctxf = true) (c f : Nat) (hdue : ((floorDue s).ctxfAt c f).due = true) :
    ((floorDue s).ctxfAt c f).owed = true ∨ (s.ctxfAt c f).due = true := by
  have hends := FloorEnds.floorSettle s
  have hget : (floorDue s).ctxfAt c f = CtxField.fallDue s.floorSettle.tickOrder.ten.order (s.floorSettle.ctxfAt c f) := by
    unfold State.ctxfAt
    rw [(floorDue_frame s).2.1]
    exact Tab.get_mapAll (fun _ => CtxField.fallDue s.floorSettle.tickOrder.ten.order) _ rfl (hends.wf hwf)
  have howed : ((floorDue s).ctxfAt c f).owed = (s.floorSettle.ctxfAt c f).owed := by
    rw [hget]
    unfold CtxField.fallDue
    split <;> rfl
  rw [howed]
  rw [hget] at hdue
  exact (CtxField.fallDue_due hdue).imp_left (fun h => by rwa [← howed, hget]) |>.imp id (hends.due _)

/-- Settles O50: the cycles of R172–R174 and the floor window of R187–R190. When a cycle counts as denied (DEDUCED, notes/assumptions/30.md), and that the
rows of a boundary are due until they have run and Hawk's service pass follows them (DESIGN CHOICE, notes/assumptions/10.md), are the model's choices. -/
theorem admission : Obligations.Admission := by
  refine ⟨fun s f halive hf => ⟨fun hnone => ?_, fun p spare hsome => ?some⟩, fun s f hf => ?_, fun s halive hdue hclosed => ?_, fun s halive hdue => ?_,
    fun s halive hdue => ?due, fun s halive hdue => ?close⟩
  · exact congrArg Host.Outcome.next ((State.live_of_alive halive _).trans (admissionCycle_of_none hf hnone))
  case some =>
    have hstep : exec (.admissionCycle f) s = .next ((s.cycleReady f).takeCycle f p spare) :=
      congrArg Host.Outcome.next ((State.live_of_alive halive _).trans (admissionCycle_of_some hf hsome))
    rw [hstep, State.takeCycle_eq]
    refine ⟨fun ho => ?_, fun ho hspare => ?_, fun ho hspare => ?_⟩
    · exact congrArg _ (if_neg fun h => Bool.false_ne_true (Eq.trans (Eq.symm ho) h))
    · subst hspare
      exact congrArg _ (if_pos ho)
    · subst hspare
      exact congrArg _ (if_pos ho)
  · exact congrArg Host.Outcome.next (by unfold State.live admissionCycle; rw [if_pos hf]; split <;> rfl)
  · exact congrArg Host.Outcome.next ((State.live_of_alive halive _).trans ((if_neg (by simpa using hclosed)).trans (State.once_of_due hdue _)))
  · exact congrArg Host.Outcome.next ((State.live_of_alive halive _).trans (if_pos (by simpa using hdue)))
  case due =>
    obtain ⟨hstep, -, hbeat⟩ := floorDue_frame (s.undue 51)
    have hsettle := (FloorEnds.floorSettle (s.undue 51)).frame
    refine ⟨floorDue (s.undue 51), congrArg Host.Outcome.next ((State.live_of_alive halive _).trans (State.once_of_due hdue _)), hstep, ?_,
      fun hwf c f hc => floorDue_debts (s.undue 51) hwf c f hc⟩
    rw [hbeat, hsettle]
    rfl
  case close =>
    obtain ⟨hstep, hbeat⟩ := floorClose_frame (s.undue 50)
    have hsettle := (FloorEnds.floorSettle (s.undue 50)).frame
    refine ⟨floorClose (s.undue 50), congrArg Host.Outcome.next ((State.live_of_alive halive _).trans (State.once_of_due hdue _)), hstep, ?_,
      floorClose_debts _⟩
    rw [hbeat, hsettle]
    rfl

end Sys2Proof.Machine

/-! SUPPORT. O49, O54: what completions, releases and answers to imports leave alone. -/
namespace Sys2Proof.Machine

/-- Nothing of the partitions, of the ports and of what is known of their peers has changed. -/
structure SameParts (s t : State) : Prop where
  part : t.org.part = s.org.part
  ports : t.net.ports = s.net.ports
  reset : t.net.reset = s.net.reset
  gone : t.net.gone = s.net.gone

variable {s₀ s t : State}

theorem SameParts.refl (s : State) : SameParts s s := ⟨rfl, rfl, rfl, rfl⟩

/-- An operation on other units, by the fields that it may write. -/
theorem SameParts.set {pending : List Instr} {chip : Chip} {beat : Beat} {box : Box} {sched : Tab SchedPol} {field : Tab PField} {window : W64}
    {skewed : Bool} {winStep : Nat} {fewEng : Tab Bool} {credits needed : Tab Nat} {dueBig : Tab Bool} {resEvt faultEvt hotEvt : List Nat}
    {ten : Tenant} {fen : FenceUnit} {eng : Tab Engine} {reg : Reg} {xl : Xlate} {mem : Mem} {coh : Coh} {sec : Sec} {own : Nat} {measured : W64}
    {writes : List RemoteWrite} {nextWrite : Nat} {pwr : Power} {watch : Watch} {log : Log} {obs : Obs} {board : Board} {free : Nat} {out : Out}
    (h : SameParts s₀ s) :
    SameParts s₀
      ⟨pending, chip, beat, box, ⟨s.org.part, sched, field, window, skewed, winStep, fewEng, credits, needed, dueBig, resEvt, faultEvt, hotEvt⟩,
        ten, fen, eng, reg, xl, mem, coh, sec, ⟨own, s.net.ports, measured, s.net.reset, s.net.gone, writes, nextWrite⟩, pwr, watch, log, obs,
        board, free, out⟩ := ⟨h.part, h.ports, h.reset, h.gone⟩

theorem SameParts.partAt (h : SameParts s t) (p : Nat) : t.partAt p = s.partAt p := congrArg (fun x : Tab Part => x.get Part.init p) h.part

theorem SameParts.ite {c : Prop} [Decidable c] (hs : SameParts s₀ s) (ht : SameParts s₀ t) : SameParts s₀ (if c then s else t) := by
  split
  · exact hs
  · exact ht

theorem SameParts.of_fst {α : Type} {p : State × α} {x : α} (h : SameParts s₀ p.1) (e : p = (s, x)) : SameParts s₀ s := by
  rw [e] at h
  exact h

theorem SameParts.mk_fst {α : Type} {x : α} (h : SameParts s₀ s) : SameParts s₀ (s, x).1 := h

theorem SameParts.ite_fst {α : Type} {c : Prop} [Decidable c] {p q : State × α} (hp : SameParts s₀ p.1) (hq : SameParts s₀ q.1) :
    SameParts s₀ (if c then p else q).1 := by
  split
  · exact hp
  · exact hq

theorem SameParts.foldl {α : Type} {f : State → α → State} {l : List α} (h : SameParts s₀ s) (hf : ∀ t a, SameParts s₀ t → SameParts s₀ (f t a)) :
    SameParts s₀ (l.foldl f s) :=
  State.foldl_inv (SameParts s₀) f hf l s h

theorem SameParts.draw (h : SameParts s₀ s) : SameParts s₀ (s.draw).2 := h.set

theorem SameParts.modCtx {c : ℕ} {f : Ctx → Ctx} (h : SameParts s₀ s) : SameParts s₀ (s.modCtx c f) := h.set

theorem SameParts.modCtxf {c f : ℕ} {g : CtxField → CtxField} (h : SameParts s₀ s) : SameParts s₀ (s.modCtxf c f g) := h.set

theorem SameParts.modRing {r : ℕ} {f : Ring → Ring} (h : SameParts s₀ s) : SameParts s₀ (s.modRing r f) := h.set

theorem SameParts.modEng {e : ℕ} {f : Engine → Engine} (h : SameParts s₀ s) : SameParts s₀ (s.modEng e f) := h.set

theorem SameParts.modFence {f : ℕ} {g : Fence → Fence} (h : SameParts s₀ s) : SameParts s₀ (s.modFence f g) := h.set

theorem SameParts.modMigrate {p : ℕ} {f : Migrate → Migrate} (h : SameParts s₀ s) : SameParts s₀ (s.modMigrate p f) := h.set

theorem SameParts.modRange {r : ℕ} {f : Range → Range} (h : SameParts s₀ s) : SameParts s₀ (s.modRange r f) := h.set

theorem SameParts.putLine {l : ℕ} {v : Line} (h : SameParts s₀ s) : SameParts s₀ (s.putLine l v) := h.set

theorem SameParts.countGlob {i n : ℕ} (h : SameParts s₀ s) : SameParts s₀ (s.countGlob i n) := h.set

theorem SameParts.msix {v : ℕ} (h : SameParts s₀ s) : SameParts s₀ (s.msix v) := h.set

theorem SameParts.partEvent {p : ℕ} (h : SameParts s₀ s) : SameParts s₀ (s.partEvent p) := .ite h h.msix

theorem SameParts.chipEvent (h : SameParts s₀ s) : SameParts s₀ s.chipEvent := h.msix

theorem SameParts.indexVector {p v : ℕ} (h : SameParts s₀ s) : SameParts s₀ (s.indexVector p v) := .ite h h.msix

theorem SameParts.hostWrite {addr : ℕ} {pasid : Option ℕ} {bytes data : ℕ} (h : SameParts s₀ s) : SameParts s₀ (s.hostWrite addr pasid bytes data) :=
  h.set

theorem SameParts.hostRead {addr : ℕ} {pasid : Option ℕ} {bytes : ℕ} (h : SameParts s₀ s) : SameParts s₀ (s.hostRead addr pasid bytes) := h.set

theorem SameParts.linkSend {m : LinkMsg} (h : SameParts s₀ s) : SameParts s₀ (s.linkSend m) := h.set

theorem SameParts.logRec {r : RecBody} (h : SameParts s₀ s) : SameParts s₀ (s.logRec r) := h.set

theorem SameParts.modMb {m : Mailbox} {f : Mbx → Mbx} (h : SameParts s₀ s) : SameParts s₀ (s.modMb m f) := h.set

theorem SameParts.setDone {m : Mailbox} {slot : ℕ} (h : SameParts s₀ s) : SameParts s₀ (s.setDone m slot) := .ite (by
  split
  · exact h.modMb.msix
  · exact h.modMb) h.modMb

theorem SameParts.respond {ref : SlotRef} {st : Status} {detail len pay : ℕ} {session : Option W32} (h : SameParts s₀ s) :
    SameParts s₀ (s.respond ref st detail len pay session) := (SameParts.ite h.hostWrite h).modMb.setDone

theorem SameParts.finish {ref : SlotRef} {st : Status} {detail len pay : ℕ} (h : SameParts s₀ s) : SameParts s₀ (s.finish ref st detail len pay) :=
  .ite h.respond h

theorem SameParts.modDirty {p : ℕ} {f : DirtyLog → DirtyLog} (h : SameParts s₀ s) : SameParts s₀ (s.modDirty p f) := h.set

theorem SameParts.dirtyBit {p offset i : ℕ} (h : SameParts s₀ s) : SameParts s₀ (s.dirtyBit p offset i) := .ite h.hostRead h.hostRead.modDirty.hostWrite

theorem SameParts.dirtyMark {r a : ℕ} (h : SameParts s₀ s) : SameParts s₀ (s.dirtyMark r a) := .ite h (by
  split
  · exact h.dirtyBit
  · exact h)

theorem SameParts.dirtyHost {p pasid a n : ℕ} (h : SameParts s₀ s) : SameParts s₀ (s.dirtyHost p pasid a n) :=
  .ite h (.ite (.ite (h.foldl fun _ _ h => h.dirtyBit) h) (SameParts.ite (h.foldl fun _ _ h => h.dirtyBit) h).modDirty)

theorem SameParts.charge {p a cls bytes : ℕ} {waited : Bool} (h : SameParts s₀ s) : SameParts s₀ (s.charge p a cls bytes waited) := h.set.countGlob

theorem SameParts.countPart {p i n : ℕ} (h : SameParts s₀ s) : SameParts s₀ (s.countPart p i n) := h.set

theorem SameParts.countCtx {c i n : ℕ} (h : SameParts s₀ s) : SameParts s₀ (s.countCtx c i n) := .ite h.set.modCtx h.set

theorem SameParts.countBoth {p c i n : ℕ} (h : SameParts s₀ s) : SameParts s₀ (s.countBoth p c i n) := h.countPart.countCtx

theorem SameParts.countControl {a bytes : ℕ} (h : SameParts s₀ s) : SameParts s₀ (s.countControl a bytes) := h.countGlob.countGlob

theorem SameParts.addAct {a : Activity} (h : SameParts s₀ s) : SameParts s₀ (s.addAct a) := h.set

theorem SameParts.raiseSkim {r : ℕ} (h : SameParts s₀ s) : SameParts s₀ (s.raiseSkim r) :=
  .ite h (.ite h.modRange (.ite h.modRange.logRec.chipEvent h.modRange.addAct))

theorem SameParts.tagUse {l : ℕ} {write : Bool} (h : SameParts s₀ s) : SameParts s₀ (s.tagUse l write) :=
  .ite (SameParts.ite (SameParts.ite h h.countControl).countControl (.ite h h.countControl)).set (SameParts.ite h h.countControl).set

theorem SameParts.writeLine {r l : ℕ} {data : LineData} {tweak : ℕ} (h : SameParts s₀ s) : SameParts s₀ (s.writeLine r l data tweak) := by
  unfold State.writeLine
  extract_lets old g same n put marked frozen
  have hmarked : SameParts s₀ marked := .ite h.tagUse.putLine h.tagUse.putLine.dirtyMark
  have hfrozen : SameParts s₀ frozen := .ite hmarked.modRange hmarked
  exact .ite hfrozen.raiseSkim hfrozen

theorem SameParts.poisonLine {l : ℕ} {st : LineSt} (h : SameParts s₀ s) : SameParts s₀ (s.poisonLine l st) := by
  unfold State.poisonLine
  dsimp only
  split
  · exact h.tagUse.putLine.dirtyMark
  · exact h.tagUse.putLine

theorem SameParts.bareRead {r l tweak : ℕ} {ecc : EccEvent} {base : Bool} (h : SameParts s₀ s) : SameParts s₀ (s.bareRead r l tweak ecc base).st := by
  unfold State.bareRead
  dsimp only
  split
  · split
    · exact (SameParts.ite h.modRange h).poisonLine
    · split
      · exact .ite (SameParts.ite h.modRange h).poisonLine (.ite h.modRange h)
      · exact .ite (SameParts.ite h.modRange h).poisonLine (.ite h.modRange h)
  · split
    · exact .ite h.modRange h
    · split
      · exact .ite h.modRange h
      · exact (SameParts.ite h.modRange h).modRange.logRec

theorem SameParts.bareWrite {r l tweak : ℕ} {data : LineData} {mask : LineMask} {ecc : EccEvent} (h : SameParts s₀ s) :
    SameParts s₀ (s.bareWrite r l tweak data mask ecc).st := by
  unfold State.bareWrite
  dsimp only
  split
  · exact h.writeLine
  · split
    · exact h
    · split
      · exact h.poisonLine
      · exact (SameParts.ite h.modRange h).writeLine

theorem SameParts.putCopies {l : ℕ} {c : List Copy} (h : SameParts s₀ s) : SameParts s₀ (s.putCopies l c) := h.set

theorem SameParts.modCopy {l a : ℕ} {f : Copy → Copy} (h : SameParts s₀ s) : SameParts s₀ (s.modCopy l a f) := h.putCopies

theorem SameParts.dropCopy {l a : ℕ} (h : SameParts s₀ s) : SameParts s₀ (s.dropCopy l a) := h.putCopies

theorem SameParts.putBack {r l : ℕ} {c : Copy} {d : LineData} (h : SameParts s₀ s) : SameParts s₀ (s.putBack r l c d) := h.charge.countBoth.writeLine

theorem SameParts.writeBack {l : ℕ} {c : Copy} (h : SameParts s₀ s) : SameParts s₀ (s.writeBack l c) := by
  unfold State.writeBack
  split
  · exact h
  · exact .ite h (.ite (.ite h.draw.putBack h.draw) (.ite h.putBack h))

theorem SameParts.snoopRead {l : ℕ} (h : SameParts s₀ s) : SameParts s₀ (s.snoopRead l) := by
  unfold State.snoopRead
  split
  · exact .ite h.writeBack.dropCopy h.writeBack.modCopy
  · exact h

theorem SameParts.snoopWrite {l : ℕ} (h : SameParts s₀ s) : SameParts s₀ (s.snoopWrite l) := by
  unfold State.snoopWrite
  split
  · exact h
  · exact (h.foldl fun _ _ h => h.writeBack).putCopies

theorem SameParts.tagMismatch {r l tweak : ℕ} (h : SameParts s₀ s) : SameParts s₀ (s.tagMismatch r l tweak) := h.modRange.logRec

theorem SameParts.laneRead {r l tweak : ℕ} {ecc : EccEvent} {base : Bool} (h : SameParts s₀ s) : SameParts s₀ (s.laneRead r l tweak ecc base).st := by
  unfold State.laneRead
  split
  · exact h.tagMismatch
  · exact h.snoopRead.tagUse.bareRead

theorem SameParts.laneWrite {r l tweak : ℕ} {data : LineData} {mask : LineMask} {ecc : EccEvent} (h : SameParts s₀ s) :
    SameParts s₀ (s.laneWrite r l tweak data mask ecc).st := h.snoopWrite.tagUse.bareWrite

theorem SameParts.tableWord {p k i : ℕ} {ecc : EccEvent} (h : SameParts s₀ s) : SameParts s₀ (s.tableWord p k i ecc).1 := by
  unfold State.tableWord
  dsimp only
  split
  · exact h
  · split
    · exact h
    · split
      · exact h.laneRead
      · exact h.laneRead.logRec

theorem SameParts.hotRecord {p : ℕ} {h' : HotCount} (h : SameParts s₀ s) : SameParts s₀ (s.hotRecord p h') :=
  .ite h.hostWrite.modMigrate h.set.partEvent

theorem SameParts.hotCount {f p k page tier n : ℕ} (h : SameParts s₀ s) : SameParts s₀ (s.hotCount f p k page tier n) := .ite h (by
  split
  · exact .ite h.set.hotRecord h.set
  · exact h.set)

theorem SameParts.countLink {p c port bytes : ℕ} {tx : Bool} (h : SameParts s₀ s) : SameParts s₀ (s.countLink p c port bytes tx) :=
  h.set.countBoth.countGlob

theorem SameParts.passPort {n : ℕ} {w : PortWait} (h : SameParts s₀ s) : SameParts s₀ (s.passPort n w) := (SameParts.ite h.set h.set.countLink).linkSend

theorem SameParts.drainPort {n k : ℕ} (h : SameParts s₀ s) : SameParts s₀ (s.drainPort n k) := by
  induction k generalizing s with
  | zero => exact h
  | succ k ih =>
    unfold State.drainPort
    dsimp only
    split
    · exact h
    · exact .ite h (ih (SameParts.passPort h.set))

theorem SameParts.portSend {n : ℕ} {w : PortWait} (h : SameParts s₀ s) : SameParts s₀ (s.portSend n w) := .ite h.passPort h.set.drainPort

theorem SameParts.linkAccess {node : ℕ} {w : PortWait} (h : SameParts s₀ s) : SameParts s₀ (s.linkAccess node w) := h.portSend

theorem SameParts.place {p c a : ℕ} {write : Bool} (h : SameParts s₀ s) : SameParts s₀ (s.place p c a write).1 := by
  unfold State.place
  split
  · exact h
  · split
    · exact h
    · dsimp only
      split
      · split
        · exact h
        · split
          · exact h
          · split
            · next _ u1 e1 =>
                exact (h.tableWord.of_fst e1)
            · next _ u1 _ e1 =>
                split
                · exact (h.tableWord.of_fst e1)
                · split
                  · exact (h.tableWord.of_fst e1)
                  · exact (h.tableWord.of_fst e1)
      · split
        · exact h
        · split
          · exact h
          · split
            · next _ u1 e1 =>
                exact (h.tableWord.of_fst e1)
            · next _ u1 _ e1 =>
                split
                · exact (h.tableWord.of_fst e1)
                · split
                  · exact (h.tableWord.of_fst e1)
                  · exact (h.tableWord.of_fst e1)

theorem SameParts.meter {p c : ℕ} {x : Place} {page cls bytes : ℕ} (h : SameParts s₀ s) : SameParts s₀ (s.meter p c x page cls bytes) :=
  .ite h.charge.countBoth.hotCount h.charge.countBoth

theorem SameParts.remoteWrite {what : ObjWrite} {node : ℕ} {w : ℕ → PortWait} (h : SameParts s₀ s) : SameParts s₀ (s.remoteWrite what node w) :=
  h.set.linkAccess

theorem SameParts.objWriteAs {what : ObjWrite} {p c a bytes cls data : ℕ} (h : SameParts s₀ s) : SameParts s₀ (s.objWriteAs what p c a bytes cls data).1 := by
  unfold State.objWriteAs
  split
  · next e => exact h.place.of_fst e
  · next e =>
    have ht := h.place.of_fst e
    refine .ite_fst ht.hostWrite.countBoth.dirtyHost (.ite_fst (.ite_fst ht (.mk_fst ht.remoteWrite)) ?_)
    dsimp only
    split
    · exact ht
    · exact ht.laneWrite.meter

theorem SameParts.uncache {r : ℕ} (h : SameParts s₀ s) : SameParts s₀ (s.uncache r) := h.set

theorem SameParts.haltRing {r code : ℕ} {index : W32} (h : SameParts s₀ s) : SameParts s₀ (s.haltRing r code index) :=
  .ite h.modRing h.modRing.modRing.logRec.partEvent

theorem SameParts.unbindCheck {r : ℕ} (h : SameParts s₀ s) : SameParts s₀ (s.unbindCheck r) := by
  unfold State.unbindCheck
  dsimp only
  split
  · exact h
  · exact .ite h.modRing.uncache.finish h

theorem SameParts.entryWritten {r : ℕ} {d : Desc} {late : Bool} (h : SameParts s₀ s) : SameParts s₀ (s.entryWritten r d late) :=
  (SameParts.ite h.modRing.modCtx.indexVector h.modRing.modCtx).unbindCheck

theorem SameParts.entryFails {r : ℕ} {d : Desc} {started : Bool} (h : SameParts s₀ s) : SameParts s₀ (s.entryFails r d started) :=
  h.modRing.haltRing.unbindCheck

theorem SameParts.complete {r : ℕ} {d : Desc} {st : Status} (h : SameParts s₀ s) : SameParts s₀ (s.complete r d st) := by
  unfold State.complete
  dsimp only
  split
  · next _ u1 e1 =>
      exact (h.objWriteAs.of_fst e1).entryFails
  · next _ u1 e1 =>
      exact (h.objWriteAs.of_fst e1).entryWritten
  · next _ u1 e1 =>
      exact (h.objWriteAs.of_fst e1).modRing

theorem SameParts.flushRing {r : ℕ} {st : Status} (h : SameParts s₀ s) : SameParts s₀ (s.flushRing r st) :=
  .ite h ((SameParts.ite h h.modRing).foldl fun _ _ h => .ite h.complete h)

theorem SameParts.mirrorFault {n a : ℕ} (h : SameParts s₀ s) : SameParts s₀ (s.mirrorFault n a) := h.modFence.logRec

theorem SameParts.mirror {n : ℕ} (h : SameParts s₀ s) : SameParts s₀ (s.mirror n) := by
  unfold State.mirror
  dsimp only
  split
  · exact h
  · split
    · next _ u1 e1 =>
        exact (h.objWriteAs.of_fst e1).mirrorFault
    · next _ u1 _ _ e1 =>
        exact (h.objWriteAs.of_fst e1)

theorem SameParts.releaseAbandoned {w : Waiter} (h : SameParts s₀ s) : SameParts s₀ (s.releaseAbandoned w) := by
  unfold State.releaseAbandoned
  split
  · exact h.complete.flushRing
  · exact h

theorem SameParts.abandonOne {n : ℕ} (h : SameParts s₀ s) : SameParts s₀ (s.abandonOne n) :=
  .ite h (h.modFence.foldl fun _ _ h => h.releaseAbandoned).mirror

theorem SameParts.dropTile {id : ℕ} (h : SameParts s₀ s) : SameParts s₀ (s.dropTile id) := h.set

theorem SameParts.freeFaultSlot {p i : ℕ} (h : SameParts s₀ s) : SameParts s₀ (s.freeFaultSlot p i) := h.modMigrate

theorem SameParts.purgeLanes {f : GateReq → Bool} (h : SameParts s₀ s) : SameParts s₀ (s.purgeLanes f) := h.set

theorem SameParts.endImport {w : ImportWait} (h : SameParts s₀ s) : SameParts s₀ (s.endImport w) := h.set.modFence

theorem SameParts.dropTiles {e : ℕ} (h : SameParts s₀ s) : SameParts s₀ (s.dropTiles e) := h.purgeLanes.foldl fun _ _ h => by
  split
  · exact h.freeFaultSlot.dropTile
  · exact h.dropTile

theorem SameParts.freeCredit {e : ℕ} (h : SameParts s₀ s) : SameParts s₀ (s.freeCredit e) := by
  unfold State.freeCredit
  split
  · exact h.set
  · exact h

theorem SameParts.abandonProxies {node : ℕ} (h : SameParts s₀ s) : SameParts s₀ (s.abandonProxies node) := h.foldl fun _ _ h => h.abandonOne

theorem SameParts.dropSubs {node : ℕ} (h : SameParts s₀ s) : SameParts s₀ (s.dropSubs node) := h.set

theorem SameParts.sendValues {node : ℕ} (h : SameParts s₀ s) : SameParts s₀ (s.sendValues node) :=
  (h.set.foldl fun _ _ h => h.linkSend).foldl fun _ _ h => h.foldl fun _ _ h => h.linkSend

theorem SameParts.endImports {node : ℕ} (h : SameParts s₀ s) : SameParts s₀ (s.endImports node) := h.foldl fun _ _ h => h.endImport.finish

theorem SameParts.endJob {e : ℕ} (h : SameParts s₀ s) : SameParts s₀ (s.endJob e) := h.dropTiles.freeCredit.modEng

/-! ### The end of a WORK -/

/-- The state in which a WORK is complete, and a POISONED one counted. -/
def State.workDone (s : State) (e : Nat) (w : WorkRun) : State :=
  ((s.endJob e).complete w.ring w.desc (s.workStatus w)).modPart w.part fun p =>
    { p with tally := { p.tally with poisoned := satAdd 16 p.tally.poisoned (bit (s.workStatus w == .poisoned)) } }

/-- The state in which its context has been charged. -/
def State.workCharged (s : State) (e : Nat) (w : WorkRun) (time sram : Nat) : State :=
  ((((s.workDone e w).refund w.part w.ctx (engField e) ((w.charge : Int) - time)).engineTime w.ctx time).countCtx w.ctx 0 sram).modCtxf w.ctx
    (engField e) fun x => { x with workEst := moveEst x.workEst time 1 }

/-- The state in which its partition's bytes have been counted, and the operations of a generation that still stands. -/
def State.workCounted (t : State) (w : WorkRun) (r : EngineReport) (current : Prop) [Decidable current] : State :=
  if current then (t.countPart w.part 0 r.sram).countOps w.part r.ops else t.countPart w.part 0 r.sram

theorem State.workDone_gen (e : Nat) (w : WorkRun) (p : Nat) : ((s.workDone e w).partAt p).gen = (s.partAt p).gen := by
  have h : SameParts s ((s.endJob e).complete w.ring w.desc (s.workStatus w)) := (SameParts.refl s).endJob.complete
  unfold State.workDone
  rw [State.partAt_modPart, ← h.partAt p]
  split
  case isTrue hp => rw [← hp]
  case isFalse => rfl

theorem State.workCharged_gen (e : Nat) (w : WorkRun) (time sram p : Nat) :
    ((s.workCharged e w time sram).partAt p).gen = (s.partAt p).gen := by
  have h : SameParts (s.workDone e w) (s.workCharged e w time sram) :=
    (SameParts.refl (s.workDone e w)).modCtxf.modCtx.countCtx.modCtxf
  rw [h.partAt p, State.workDone_gen]

/-- The engine's WORK, where every write of its job is accepted. -/
theorem workCompletion_of_work {e : Nat} {r : EngineReport} {w : WorkRun} (hw : s.writesWait e = false)
    (hr : (s.engAt e).running = some (.work w)) :
    workCompletion e r s =
      (let same := ((s.workDone e w).ctxAt w.ctx).gen == w.ctxGen
       let t := if same then s.workCharged e w (s.beat.tick.toNat - w.start) r.sram else s.workDone e w
       let t := t.workCounted w r ((same && (t.partAt w.part).gen == w.partGen) = true)
       (match w.failed with
        | some x => if same = true ∧ x.reason ≠ 0 then t.loseCtx w.ctx x.reason x.addr w.ring else t
        | none => t).jobEnded e) := by
  unfold workCompletion
  rw [hw, if_neg Bool.false_ne_true, hr] <;> rfl

theorem State.workCounted_congr {t : State} {w : WorkRun} {r : EngineReport} {a b : Prop} [Decidable a] [Decidable b] (h : a ↔ b) :
    t.workCounted w r a = t.workCounted w r b := if_congr h rfl rfl

/-- The context that the WORK ran for still stands: it is charged, and lost where the first failed tile has a reason. -/
theorem workCompletion_of_same {e : Nat} {r : EngineReport} {w : WorkRun} (hw : s.writesWait e = false)
    (hr : (s.engAt e).running = some (.work w)) (same : ((s.workDone e w).ctxAt w.ctx).gen = w.ctxGen) :
    workCompletion e r s =
      (let t := (s.workCharged e w (s.beat.tick.toNat - w.start) r.sram).workCounted w r ((s.partAt w.part).gen = w.partGen)
       (match w.failed with
        | some x => if x.reason ≠ 0 then t.loseCtx w.ctx x.reason x.addr w.ring else t
        | none => t).jobEnded e) := by
  have hc : ∀ t : State, (t.partAt w.part).gen = (s.partAt w.part).gen →
      t.workCounted w r ((true && (t.partAt w.part).gen == w.partGen) = true) = t.workCounted w r ((s.partAt w.part).gen = w.partGen) :=
    fun t ht => State.workCounted_congr (by simp [ht])
  rw [workCompletion_of_work hw hr, beq_iff_eq.2 same]
  simp only [if_true, hc _ (State.workCharged_gen ..), true_and]

/-- It is over: nothing is charged or lost, and no operations count. -/
theorem workCompletion_of_over {e : Nat} {r : EngineReport} {w : WorkRun} (hw : s.writesWait e = false)
    (hr : (s.engAt e).running = some (.work w)) (same : ((s.workDone e w).ctxAt w.ctx).gen ≠ w.ctxGen) :
    workCompletion e r s = ((s.workDone e w).countPart w.part 0 r.sram).jobEnded e := by
  rw [workCompletion_of_work hw hr, beq_eq_false_iff_ne.2 same]
  have hf : ∀ t : State, t.workCounted w r ((false && (t.partAt w.part).gen == w.partGen) = true) = t.countPart w.part 0 r.sram :=
    fun t => if_neg (by simp)
  simp only [Bool.false_eq_true, if_false, hf, false_and]
  cases w.failed <;> rfl

/-- A report that no WORK of the engine awaits changes nothing. -/
theorem workCompletion_of_idle {e : Nat} {r : EngineReport} (h : s.writesWait e = true ∨ ∀ w, (s.engAt e).running ≠ some (.work w)) :
    workCompletion e r s = s := by
  unfold workCompletion
  split
  case h_1 w hw =>
    split at hw
    case isTrue => cases hw
    case isFalse hn => exact absurd hw (h.resolve_left hn w)
  case h_2 => rfl

/-! ### The end of a batch -/

theorem batchCompletion_of_batch {e : Nat} {rows : List RowReport} {r : EngineReport} {b : Batch} (hw : s.writesWait e = false)
    (hr : (s.engAt e).running = some (.batch b)) :
    batchCompletion e rows r s =
      (let t := (s.endJob e).modEng e fun x => { x with ran := some b.part }
       match (s.engAt e).replay with
       | some y => (((t.modEng e fun x => { x with replay := some { y with now := none } }).completeBatch e b rows r).nextReplay e
          (y.todo.length + 1)).jobEnded e
       | none => (t.completeBatch e b rows r).jobEnded e) := by
  unfold batchCompletion
  rw [hw, if_neg Bool.false_ne_true, hr] <;> rfl

/-- A report that no batch of the engine awaits changes nothing. -/
theorem batchCompletion_of_idle {e : Nat} {rows : List RowReport} {r : EngineReport}
    (h : s.writesWait e = true ∨ ∀ b, (s.engAt e).running ≠ some (.batch b)) : batchCompletion e rows r s = s := by
  unfold batchCompletion
  split
  case h_1 b hb =>
    split at hb
    case isTrue => cases hb
    case isFalse hn => exact absurd hb (h.resolve_left hn b)
  case h_2 => rfl

/-- A command whose action leaves the state as it is, whether or not Lendor serves. -/
theorem State.live_of_same {f : State → State} (h : f s = s) : s.live f = s := by
  unfold State.live
  rw [h]
  split <;> rfl

/-- Settles O49: of a WORK, the generations of its partition and context decide (R177, R502, R524), and completions leave every partition's
generation alone; a batch completes its rows and lets the next suspect follow (R524). That a report waits while a write of the engine does
is the model's choice (log 79). -/
theorem engineReports : Obligations.EngineReports := by
  refine ⟨fun s e r w ha hw hr => ⟨fun hn same => ?_, fun x hx h0 same => ?_, fun same => ?_⟩,
    fun s w => ⟨fun hp => if_pos hp, fun hp hc => (if_neg (not_not.2 hp)).trans (if_pos hc), fun hp hc hf => ?_, fun x hp hc hf => ?_⟩,
    fun s e rows r b ha hw hr => ⟨fun hn => ?_, fun y hy => ?_⟩,
    fun s e rows r h => congrArg Host.Outcome.next (State.live_of_same (batchCompletion_of_idle h)),
    fun s e r h => congrArg Host.Outcome.next (State.live_of_same (workCompletion_of_idle h))⟩
  · refine congrArg Host.Outcome.next ((State.live_of_alive ha _).trans ((workCompletion_of_same hw hr same).trans ?_))
    have hl : ∀ t : State, (match w.failed with
        | some x => if x.reason ≠ 0 then t.loseCtx w.ctx x.reason x.addr w.ring else t
        | none => t) = t := by
      intro t
      split
      case h_1 x hx => exact if_neg (not_not.2 (hn x hx))
      case h_2 => rfl
    exact congrArg (State.jobEnded · e) ((hl _).trans (State.workCounted_congr (and_iff_right same).symm))
  · refine congrArg Host.Outcome.next ((State.live_of_alive ha _).trans ((workCompletion_of_same hw hr same).trans ?_))
    rw [hx]
    exact congrArg (State.jobEnded · e) ((if_pos h0).trans (congrArg (fun t : State => t.loseCtx w.ctx x.reason x.addr w.ring)
      (State.workCounted_congr (and_iff_right same).symm)))
  · refine congrArg Host.Outcome.next ((State.live_of_alive ha _).trans ((workCompletion_of_over hw hr same).trans ?_))
    exact congrArg (State.jobEnded · e) (if_neg fun h => same h.1).symm
  · simp [State.workStatus, hp, hc, hf]
  · simp [State.workStatus, hp, hc, hf]
  · refine congrArg Host.Outcome.next ((State.live_of_alive ha _).trans ((batchCompletion_of_batch hw hr).trans ?_))
    rw [hn]
  · refine congrArg Host.Outcome.next ((State.live_of_alive ha _).trans ((batchCompletion_of_batch hw hr).trans ?_))
    rw [hy]

end Sys2Proof.Machine

/-! SUPPORT. O51: the counter's arrival at a boundary. -/
namespace Sys2Proof.Machine

variable {s : State} {env : FrameEnv}

/-- The state in which the counter stands at a boundary that a counter far ahead of the beat has to be held at. -/
def State.heldAtBoundary (s : State) : State := (s.markWaits.arrive s.nextBoundary s.beat.err).skew.modBeat fun b => { b with hold := true }

/-- The boundary that the counter steps to from far behind the beat. -/
def State.landing (s : State) : Nat := (4 * (s.nextBoundary : Int) - s.beat.err).toNat / 4 / 8192 * 8192

theorem State.slews_of_not_resync (h : s.beat.plumb ≠ .resync) : s.beat.slews = false := by
  simp [Beat.slews, h]

/-- Outside RESYNC the error stays as it is. -/
theorem State.runTo_of_not_resync (h : s.beat.plumb ≠ .resync) (n : Nat) : s.runTo n = s.arrive n s.beat.err := by
  simp [State.runTo, Beat.slewed, State.slews_of_not_resync h]

/-- Where the points on the way are fewer than the slew needs, the counter slews all the way. -/
theorem State.runTo_of_short {n : Nat} (h : slewPoints s.beat.tick.toNat n < s.beat.need) :
    s.runTo n = s.arrive n (s.beat.slewed (slewPoints s.beat.tick.toNat n)) := if_neg fun hs => Nat.not_le.2 h hs.2

theorem State.landing_mod (s : State) : s.landing % 8192 = 0 := Nat.mul_mod_left ..

/-- A counter that is more than a frame behind steps over a boundary at least. -/
theorem State.le_landing (h : s.beat.err < -(4 * 8192)) : s.nextBoundary + 8192 ≤ s.landing := by
  unfold State.landing State.nextBoundary
  omega

/-! ### The three ways of a boundary -/

theorem frameBoundary_of_still (h : s.beat.run = false ∨ s.beat.hold = true) : frameBoundary env s = s := if_pos h

theorem frameBoundary_of_fire (hr : s.beat.run = true) (hh : s.beat.hold = false) (hf : s.beat.fire = true) :
    frameBoundary env s = (s.modBeat fun b => { b with fire := false }).runBoundary env := by
  simp [frameBoundary, hr, hh, hf]

theorem frameBoundary_of_behind (hr : s.beat.run = true) (hh : s.beat.hold = false) (hf : s.beat.fire = false) (hp : s.beat.plumb = .resync)
    (he : s.beat.err < -(4 * 8192)) :
    frameBoundary env s =
      ((s.markWaits.stepTo s.landing (s.beat.err + 4 * ((s.landing : Int) - s.nextBoundary))).runBoundary env).checkResync := by
  unfold frameBoundary
  rw [if_neg (by simp [hr, hh]), if_neg (by simp [hf])]
  exact if_pos ⟨hp, he⟩

theorem frameBoundary_of_ahead (hr : s.beat.run = true) (hh : s.beat.hold = false) (hf : s.beat.fire = false) (hp : s.beat.plumb = .resync)
    (he : 4 * 8192 < s.beat.err) : frameBoundary env s = s.heldAtBoundary := by
  unfold frameBoundary
  rw [if_neg (by simp [hr, hh]), if_neg (by simp [hf])]
  exact (if_neg fun h => by omega).trans (if_pos ⟨hp, he⟩)

/-- Elsewhere the counter runs to the boundary. -/
theorem frameBoundary_of_near (hr : s.beat.run = true) (hh : s.beat.hold = false) (hf : s.beat.fire = false)
    (he : s.beat.plumb = .resync → s.beat.err.natAbs ≤ 4 * 8192) :
    frameBoundary env s = ((s.markWaits.runTo s.nextBoundary).runBoundary env).checkResync := by
  unfold frameBoundary
  rw [if_neg (by simp [hr, hh]), if_neg (by simp [hf])]
  exact (if_neg fun h => by have := he h.1; omega).trans (if_neg fun h => by have := he h.1; omega)

/-- Settles O51: the three ways of a boundary (R84, R85); what runs there leaves the counter alone, so it stands where it arrived. -/
theorem frameBoundaries : Obligations.FrameBoundaries := by
  refine ⟨fun s env h => congrArg Host.Outcome.next (State.live_of_same (frameBoundary_of_still h)),
    fun s env ha hr hh => ⟨fun hf => ?_, fun hf hp => ?_, fun hf hp he => ⟨?_, fun hn => ?_⟩, fun hf hp he => ?_, fun hf hp he => ?_⟩,
    fun s env ha hh hp => ?_, fun s env h => congrArg Host.Outcome.next (State.live_of_same (if_pos (.inl h)))⟩
  · exact congrArg Host.Outcome.next ((State.live_of_alive ha _).trans (frameBoundary_of_fire hr hh hf))
  · refine ⟨_, congrArg Host.Outcome.next ((State.live_of_alive ha _).trans (frameBoundary_of_near hr hh hf fun h => absurd h hp)), ?_, ?_⟩
    · exact congrArg (fun t : State => (t.runBoundary env).checkResync) (State.runTo_of_not_resync (s := s.markWaits) hp _)
    · rw [State.checkResync_tick, State.runBoundary_tick, State.runTo_tick]
  · exact congrArg Host.Outcome.next ((State.live_of_alive ha _).trans (frameBoundary_of_near hr hh hf fun _ => he))
  · exact State.runTo_of_short (s := s.markWaits) hn
  · exact ⟨s.landing_mod, State.le_landing he,
      congrArg Host.Outcome.next ((State.live_of_alive ha _).trans (frameBoundary_of_behind hr hh hf hp he))⟩
  · exact ⟨s.heldAtBoundary, congrArg Host.Outcome.next ((State.live_of_alive ha _).trans (frameBoundary_of_ahead hr hh hf hp he)), rfl, rfl⟩
  · exact congrArg Host.Outcome.next ((State.live_of_alive ha _).trans (if_neg (by simp [hh, hp])))

end Sys2Proof.Machine

/-! SUPPORT. O52: the actions of a boundary that have rows of their own, and the shared-poison rewrite. -/
namespace Sys2Proof.Machine

variable {s : State}

/-! ### The thermal window -/

/-- A list with an entry has a least one, and its key is at most that of the entry. -/
theorem argMin_of_mem {α : Type} {key : α → Int} {l : List α} {b : α} (hb : b ∈ l) : ∃ a, argMin key l = some a ∧ key a ≤ key b := by
  induction l with
  | nil => cases hb
  | cons c l ih =>
    unfold argMin
    rcases List.mem_cons.1 hb with rfl | hl
    · cases argMin key l with
      | none => exact ⟨b, rfl, le_rfl⟩
      | some a =>
        by_cases hlt : key a < key b
        · exact ⟨a, if_pos hlt, hlt.le⟩
        · exact ⟨b, if_neg hlt, le_rfl⟩
    · obtain ⟨a, ha, hab⟩ := ih hl
      rw [ha]
      by_cases hlt : key a < key c
      · exact ⟨a, if_pos hlt, hab⟩
      · exact ⟨c, if_neg hlt, (not_lt.1 hlt).trans hab⟩

/-- The diodes whose pairs serve. -/
def State.servingDiodes (s : State) : List Nat :=
  (List.range 4).filter fun d => (s.pairAt (13 + d)).code == 0 || (s.pairAt (13 + d)).code == 5

theorem State.mem_servingDiodes {d : Nat} :
    d ∈ s.servingDiodes ↔ d < 4 ∧ ((s.pairAt (13 + d)).code = 0 ∨ (s.pairAt (13 + d)).code = 5) := by
  simp [State.servingDiodes]

/-- With a diode that serves, the window closes with the hottest of them (R434). -/
theorem thermalWindowClose_of_serves {d : Nat} (onDie : List Nat) (hd : d ∈ s.servingDiodes) :
    ∃ k, k ∈ s.servingDiodes ∧ s.board.diode.get 0 d ≤ s.board.diode.get 0 k ∧
      thermalWindowClose onDie s = (s.modBoard fun b => { b with onDie := false }).thermalClose (s.board.diode.get 0 k) k := by
  obtain ⟨x, hx, hle⟩ := argMin_of_mem (key := fun x : Nat × Int => -x.2) (List.mem_map_of_mem (f := fun d => (d, s.board.diode.get 0 d)) hd)
  obtain ⟨k, hk, rfl⟩ := List.mem_map.1 (mem_of_argMin hx)
  refine ⟨k, hk, neg_le_neg_iff.1 hle, ?_⟩
  unfold thermalWindowClose hottest
  change (match argMin (fun x : Nat × Int => -x.2) (s.servingDiodes.map fun d => (d, s.board.diode.get 0 d)) with
    | some x => (s.modBoard fun b => { b with onDie := false }).thermalClose x.2 x.1
    | none => _) = _
  rw [hx]

/-! ### The maintenance slot -/

theorem maintenanceSlot_of_due {bad : List (Nat × EccEvent)} (h8 : 8 ∈ s.beat.due) (h7 : 7 ∉ s.beat.due) (hw : s.epochWaits = false) :
    maintenanceSlot bad s =
      (if s.log.run.isSome then s.undue 8
        else
          let t := (s.mem.acts.map Activity.id).foldl (fun t i => t.endActivity bad i) (s.undue 8)
          ((sortOn (fun (a : Activity) => (a.code : Int)) t.mem.acts).map Activity.id).foldl State.beginActivity t).servicePass :=
  if_neg (by simp [h8, h7, hw])

theorem maintenanceSlot_of_waits {bad : List (Nat × EccEvent)} (h : 8 ∉ s.beat.due ∨ 7 ∈ s.beat.due ∨ s.epochWaits = true) :
    maintenanceSlot bad s = s := if_pos (by simpa [or_comm, or_left_comm] using h)

/-! ### The shared-poison rewrite -/

/-- The state in which a rewrite no longer waits. -/
def State.unlistRewrite (s : State) (w : Rewrite) : State :=
  { s with mem := { s.mem with rewrites := s.mem.rewrites.filter fun x => x != w } }

/-- A rewrite that waits is read from the copy. -/
def State.rewriteCopy (s : State) (w : Rewrite) (g n block : Nat) (ecc : EccEvent) : State × Option (List LineData) :=
  (s.unlistRewrite w).copyLines w.part (((s.groupAt g).slot n).copy + 4096 * block) ecc (List.range 32)

variable {g n block : Nat} {ecc : EccEvent} {w : Rewrite}

theorem sharedPoisonRewrite_of_good {ls : List LineData}
    (hw : s.mem.rewrites.find? (fun w => w.group == g && w.slot == n && w.block == block) = some w)
    (hls : (s.rewriteCopy w g n block ecc).2 = some ls) :
    sharedPoisonRewrite g n block ecc s =
      ((ls.zipIdx.foldl (fun (t : State) (x : LineData × Nat) =>
        match t.zeroPlace w.part (((s.groupAt g).slot n).fast + 4096 * block + 128 * x.2) with
        | some (_, a, key) => t.copyWrite false w.part key a (tweakOf 1 w.part) (some x.1)
        | none => t) (s.rewriteCopy w g n block ecc).1).logRec { kind := 0x0009, part := w.part, a := g, b := w.addr, c := 0 }).partEvent w.part := by
  have ho : (s.unlistRewrite w).copyLines w.part (((s.groupAt g).slot n).copy + 4096 * block) ecc (List.range 32) =
      ((s.rewriteCopy w g n block ecc).1, some ls) := Prod.ext rfl hls
  unfold sharedPoisonRewrite
  unfold State.unlistRewrite at ho
  simp only [hw, ho] <;> rfl

theorem sharedPoisonRewrite_of_bad
    (hw : s.mem.rewrites.find? (fun w => w.group == g && w.slot == n && w.block == block) = some w)
    (hls : (s.rewriteCopy w g n block ecc).2 = none) :
    sharedPoisonRewrite g n block ecc s =
      (let t := (s.rewriteCopy w g n block ecc).1
       if ((s.groupAt g).slot n).st = .active then
         ((t.degrade w.part g n).loseMembers g).logRec { kind := 0x0009, part := w.part, a := g, b := w.addr, c := 1 }
       else t) := by
  have ho : (s.unlistRewrite w).copyLines w.part (((s.groupAt g).slot n).copy + 4096 * block) ecc (List.range 32) =
      ((s.rewriteCopy w g n block ecc).1, none) := Prod.ext rfl hls
  unfold sharedPoisonRewrite
  unfold State.unlistRewrite at ho
  simp only [hw, ho]

/-- Settles O52: each due action runs once, in its order (R89, R434; the due rows and the epoch that runs past a stopped power core are the
model's choice, log 10), and in the maintenance slot the activities that have finished end and others begin (log 53). -/
theorem boundaryActions : Obligations.BoundaryActions := by
  refine ⟨fun s onDie ha hc h6 h5 h50 => ?_, fun s onDie h => ?_, fun s onDie d hd hp => ?_, fun s flashOk ha h7 h5 h50 h6 => ?_,
    fun s flashOk h => ?_, fun s bad ha h8 h7 hw => ⟨fun hr => ?_, fun hr => ?_⟩,
    fun s bad h => congrArg Host.Outcome.next (State.live_of_same (maintenanceSlot_of_waits h)),
    fun s g n block ecc w ha hw => ⟨fun ls hls => ?_, fun hls hst => ?_, fun hls hst => ?_⟩⟩
  · exact congrArg Host.Outcome.next ((State.live_of_alive ha _).trans ((if_neg (by simp [hc, h5, h50])).trans (State.once_of_due h6 _)))
  · refine congrArg Host.Outcome.next (State.live_of_same ?_)
    split
    case isTrue => rfl
    case isFalse hn =>
      have h6 : 6 ∉ s.beat.due := h.resolve_right fun h => hn (by simpa using .inr h)
      exact State.once_of_undue h6 _
  · obtain ⟨k, hk, hle, heq⟩ := thermalWindowClose_of_serves onDie (State.mem_servingDiodes.2 ⟨hd, hp⟩)
    obtain ⟨hk4, hkp⟩ := State.mem_servingDiodes.1 hk
    exact ⟨k, hk4, hkp, hle, heq⟩
  · have hw : s.epochWaits = false := by
      simpa [State.epochWaits, h5, h50, imp_iff_not_or] using h6
    exact congrArg Host.Outcome.next ((State.live_of_alive ha _).trans ((if_neg (by simp [hw])).trans (State.once_of_due h7 _)))
  · refine congrArg Host.Outcome.next (State.live_of_same ?_)
    split
    case isTrue => rfl
    case isFalse hn =>
      refine State.once_of_undue (fun h7 => hn ?_) _
      have h5 : 5 ∈ s.beat.due ∨ 50 ∈ s.beat.due := or_assoc.2 h |>.resolve_right (not_not.2 h7)
      simp [State.epochWaits, h5]
  · refine congrArg Host.Outcome.next ((State.live_of_alive ha _).trans ((maintenanceSlot_of_due h8 h7 hw).trans ?_))
    rw [if_pos (Option.isSome_iff_ne_none.2 hr)]
    rfl
  · refine congrArg Host.Outcome.next ((State.live_of_alive ha _).trans ((maintenanceSlot_of_due h8 h7 hw).trans ?_))
    rw [if_neg (by simp [hr])]
    rfl
  · exact congrArg Host.Outcome.next ((State.live_of_alive ha _).trans (sharedPoisonRewrite_of_good hw hls))
  · exact congrArg Host.Outcome.next ((State.live_of_alive ha _).trans ((sharedPoisonRewrite_of_bad hw hls).trans (if_pos hst)))
  · exact congrArg Host.Outcome.next ((State.live_of_alive ha _).trans ((sharedPoisonRewrite_of_bad hw hls).trans (if_neg hst)))

end Sys2Proof.Machine

/-! SUPPORT. O53: markers, the states of Plumb, the slew and offset passes. -/
namespace Sys2Proof.Machine

variable {s t : State}

/-! ### The units that a state of Plumb leaves alone -/

theorem OnlyRights.beat (h : OnlyRights s t) : t.beat = s.beat := by
  obtain ⟨w, b, st, p, rfl⟩ := h
  rfl

theorem OnlyRights.phase (h : OnlyRights s t) : t.chip.phase = s.chip.phase := by
  obtain ⟨w, b, st, p, rfl⟩ := h
  rfl

theorem State.firstLock_beat (s : State) : s.firstLock.beat = s.beat := (State.changeSec_frame s _).beat

theorem State.firstLock_phase (s : State) : s.firstLock.chip.phase = s.chip.phase := (State.changeSec_frame s _).phase

/-- The beat of a counter that has locked (R83). -/
def Beat.lockedTo (b : Beat) (src : BeatSource) : Beat :=
  { b with plumb := .locked, source := some src, lastLock := b.tick, never := false, freerun := 0, err := 0, bad := 0, run := true }

theorem State.enterLocked_beat (s : State) (src : BeatSource) : (s.enterLocked src).beat = s.beat.lockedTo src := by
  unfold State.enterLocked
  extract_lets t
  split
  case isTrue => rfl
  case isFalse => exact t.firstLock_beat

theorem State.enterLocked_phase (s : State) (src : BeatSource) : (s.enterLocked src).chip.phase = s.chip.phase := by
  unfold State.enterLocked
  extract_lets t
  split
  case isTrue => rfl
  case isFalse => exact t.firstLock_phase

theorem State.openWindow_of_phase (h : s.chip.phase = 4) : s.openWindow = { s with chip := { s.chip with opened := true, phase := 5 } } := if_pos h

/-- A lock in phase 4 opens the window. -/
theorem State.openWindow_enterLocked (src : BeatSource) (h : s.chip.phase = 4) :
    (s.enterLocked src).openWindow.beat = s.beat.lockedTo src ∧ (s.enterLocked src).openWindow.chip.opened = true ∧
      (s.enterLocked src).openWindow.chip.phase = 5 := by
  rw [State.openWindow_of_phase ((State.enterLocked_phase ..).trans h)]
  exact ⟨State.enterLocked_beat .., rfl, rfl⟩

theorem State.setDrift_beat (s : State) (b : Bool) : (s.setDrift b).beat = { s.beat with drift := b } := by
  unfold State.setDrift
  split <;> rfl

theorem State.setDrift_chip (s : State) (b : Bool) : (s.setDrift b).chip = s.chip := by
  unfold State.setDrift
  split <;> rfl

/-! ### Markers -/

/-- A word that agrees with a pair classified OK leaves the pair so, and changes nothing but the board. -/
theorem State.sampleBeat_of_agree {w : BitVec 96} (hw : w.toNat / 2 ^ 80 = 0xA5C3) (hc : (s.pairAt 0).code = 0) :
    ((s.sampleBeat w).pairAt 0).code = 0 ∧ ∃ board, s.sampleBeat w = { s with board := board } := by
  have heq : s.sampleBeat w = { s with board := { s.board with pair := s.board.pair.put Pair.init 0 ⟨0, 0, 0⟩ } } := by
    unfold State.sampleBeat State.samplePair
    rw [if_pos hw]
    simp [hc]
  rw [heq]
  exact ⟨congrArg Pair.code (Tab.get_put_self Pair.init s.board.pair 0 ⟨0, 0, 0⟩), _, rfl⟩

/-- In ACQUIRE the second good marker of two blocks in a row locks the counter (R83). -/
theorem State.takeMarker_of_chain {src : BeatSource} {tick lag : Nat} (hp : s.beat.plumb = .acquire) (htick : 40960 ≤ tick)
    (hseen : s.beat.seen.get none (srcNum src) = some (tick - 40960)) :
    s.takeMarker src true tick lag =
      (((s.modBeat fun x => { x with seen := x.seen.put none (srcNum src) (some tick) }).modBeat fun x =>
        { x with tick := BitVec.ofNat 64 (s.beatNow src tick lag / 4).toNat }).enterLocked src).openWindow := by
  unfold State.takeMarker
  simp [hp, htick, hseen]

theorem markerWord_of_deaf {src : BeatSource} {w : BitVec 96} {lag : Nat} {inverted : Bool}
    (h : s.chip.phase < 4 ∨ s.chip.failed = true ∨ s.listens src = false) : markerWord src w lag inverted s = s := if_pos h

theorem markerWord_of_pin {w : BitVec 96} {lag : Nat} (hphase : s.chip.phase = 4) (hfail : s.chip.failed = false)
    (hw : w.toNat / 2 ^ 80 = 0xA5C3) (hc : (s.pairAt 0).code = 0) :
    markerWord .pin w lag false s = (s.sampleBeat w).takeMarker .pin (markerGood w) (markerTick w) lag := by
  obtain ⟨hcode, -⟩ := State.sampleBeat_of_agree hw hc
  unfold markerWord
  rw [if_neg (by simp [hphase, hfail, State.listens])]
  simp [hcode]

/-- The lock at the pin, with the state in which the counter has been set. -/
theorem State.locked_at_pin {w : BitVec 96} {lag : Nat} (hphase : s.chip.phase = 4) (hfail : s.chip.failed = false) (hp : s.beat.plumb = .acquire)
    (hw : w.toNat / 2 ^ 80 = 0xA5C3) (hc : (s.pairAt 0).code = 0) (hgood : markerGood w = true) (htick : 40960 ≤ markerTick w)
    (hseen : s.beat.seen.get none 0 = some (markerTick w - 40960)) :
    (markerWord .pin w lag false s).beat =
        Beat.lockedTo { s.beat with
          seen := s.beat.seen.put none 0 (some (markerTick w))
          tick := BitVec.ofNat 64 ((((4 * (markerTick w + lag) : Nat) : Int) + signed 16 s.beat.trim.toNat) / 4).toNat } .pin ∧
      (markerWord .pin w lag false s).chip.opened = true ∧ (markerWord .pin w lag false s).chip.phase = 5 := by
  obtain ⟨-, board, hs⟩ := State.sampleBeat_of_agree hw hc
  rw [markerWord_of_pin hphase hfail hw hc, hgood, hs, State.takeMarker_of_chain (s := { s with board := board }) (src := .pin) hp htick hseen]
  exact State.openWindow_enterLocked .pin hphase

/-! ### Sources that go quiet -/

theorem State.loseSource_of_locked (h : s.beat.plumb = .locked) :
    s.loseSource = s.modBeat fun x => { x with plumb := .freeRun, source := none, freerun := 0, bad := 0, seen := [] } := by
  unfold State.loseSource
  rw [h]

/-- Faults only add up. -/
theorem le_satAdd_toNat (x : W32) (n : Nat) : x.toNat ≤ (BitVec.ofNat 32 (satAdd 32 x.toNat n)).toNat := by
  rw [BitVec.toNat_ofNat]
  have hx := x.isLt
  unfold satAdd
  omega

theorem State.beatSourceLoss_of_locked (h : s.beat.plumb = .locked) :
    ∃ faults : W32, s.beat.faults.toNat ≤ faults.toNat ∧
      s.beatSourceLoss = { s with beat := { s.beat with
        plumb := .freeRun, source := none, freerun := 0, bad := 0, seen := [], faults := faults } } := by
  unfold State.beatSourceLoss
  cases s.beat.source with
  | some src => exact ⟨_, le_satAdd_toNat .., State.loseSource_of_locked (s := s.countFaults (s.beat.missing src s.beatQt)) h⟩
  | none => exact ⟨s.beat.faults, le_rfl, State.loseSource_of_locked h⟩

/-! ### The slew and RESYNC -/

theorem slewAdjust_of_point (hs : s.beat.slews = true) (hp : s.beat.tick.toNat % 1024 = 0x200) :
    slewAdjust s = (if 0 < s.beat.err then s.modBeat fun x => { x with tick := x.tick + 1, err := x.err - 4 }
      else s.modBeat fun x => { x with tick := x.tick + 2, err := x.err + 4 }).checkResync := if_neg (by simp [hs, hp])

/-- RESYNC ends in LOCKED once the error is within one tick (R83). -/
theorem State.checkResync_beat {src : BeatSource} (hsrc : s.beat.source = some src) (hp : s.beat.plumb = .resync)
    (he : s.beat.err.natAbs ≤ 4) (hh : s.beat.hold = false) :
    s.checkResync.beat = Beat.lockedTo { s.beat with drift := false } src := by
  have heq : s.checkResync = s.endResync src := by
    unfold State.checkResync
    rw [hsrc]
    exact if_pos ⟨hp, he, hh⟩
  rw [heq]
  exact (State.enterLocked_beat ..).trans (congrArg (Beat.lockedTo · src) (State.setDrift_beat s false))

/-! ### Offset passes -/

/-- The trace and its counters alone take a packet. -/
theorem State.pushPacket_frame (s : State) (ptype source tick payload : Nat) (stall : Bool) :
    ∃ watch obs, s.pushPacket ptype source tick payload stall = { s with watch := watch, obs := obs } := by
  unfold State.pushPacket
  extract_lets x
  split
  case isTrue => exact ⟨_, _, rfl⟩
  case isFalse =>
    split
    case isTrue => exact ⟨_, _, rfl⟩
    case isFalse => exact ⟨_, _, rfl⟩

theorem State.packet_frame (s : State) (ptype source payload : Nat) (stall : Bool) :
    ∃ watch obs, s.packet ptype source payload stall = { s with watch := watch, obs := obs } := by
  unfold State.packet
  obtain ⟨w, o, h⟩ := s.pushPacket_frame ptype source s.beat.tick.toNat payload stall
  rw [h]
  extract_lets t
  split
  case isTrue =>
    obtain ⟨w', o', h'⟩ := t.pushPacket_frame 0x01 0x20 t.beat.tick.toNat _ false
    exact ⟨w', o', h'⟩
  case isFalse => exact ⟨w, o, rfl⟩

theorem State.offsetPacket_frame (s : State) (p : Nat) : ∃ watch obs, s.offsetPacket p = { s with watch := watch, obs := obs } := by
  unfold State.offsetPacket
  extract_lets x
  split
  case isTrue => exact s.packet_frame ..
  case isFalse => exact ⟨_, _, rfl⟩

/-- What a port keeps of an exchange (R90). -/
def Port.measure (x : Exchange) (y : Port) : Port :=
  { y with due := false, valid := true, offset := clampInt 16 (((x.t2 - x.t1) - (x.t4 - x.t3)) / 2), rtt := min (roundTrip x).toNat 65535 }

/-- The state in which a port has what an exchange measured. -/
def State.measured (s : State) (p : Nat) (x : Exchange) : State :=
  let t := s.modPort p (Port.measure x)
  { t with net := { t.net with measured := t.beat.tick } }

theorem State.portAt_measured_self (p : Nat) (x : Exchange) : (s.measured p x).portAt p = (s.portAt p).measure x :=
  State.portAt_modPort_self (s := s) p (Port.measure x)

theorem State.portAt_measured_ne {p q : Nat} (x : Exchange) (h : q ≠ p) : (s.measured p x).portAt q = s.portAt q :=
  (State.portAt_modPort (s := s) p q (Port.measure x)).trans (if_neg (Ne.symm h))

/-- A pass that is due measures from the exchange with the least round trip, and reports an offset of more than 8. -/
theorem offsetPass_eq {p : Nat} {l : List Exchange} {x : Exchange} (hx : argMin roundTrip l = some x) (hl : l.length = 16)
    (hup : (s.portAt p).up = true) (hdue : (s.portAt p).due = true) (hcore : s.coreStopped 6 = false) :
    offsetPass p l s =
      let off := ((x.t2 - x.t1) - (x.t4 - x.t3)) / 2
      let t := (s.measured p x).offsetPacket p
      if 8 < off.natAbs then (t.logRec { kind := 0x0017, part := 0xFF, place := p, a := 3, b := unsigned 64 off, c := p }).chipEvent else t := by
  unfold offsetPass
  rw [hx]
  exact if_neg (by simp [hl, hup, hdue, hcore])

/-- The pass writes the network as measured, and else the watch, the counters, the log and what is sent. -/
theorem offsetPass_of_least {p : Nat} {l : List Exchange} {x : Exchange} (hx : argMin roundTrip l = some x) (hl : l.length = 16)
    (hup : (s.portAt p).up = true) (hdue : (s.portAt p).due = true) (hcore : s.coreStopped 6 = false) :
    (offsetPass p l s).net = (s.measured p x).net ∧ (offsetPass p l s).beat = s.beat := by
  obtain ⟨w, o, h⟩ := (s.measured p x).offsetPacket_frame p
  rw [offsetPass_eq hx hl hup hdue hcore, h]
  dsimp only
  split
  case isTrue => exact ⟨rfl, rfl⟩
  case isFalse => exact ⟨rfl, rfl⟩

/-- Settles O53: R80–R85 and R90 as written; a lock's whole ticks are the model's choice (log 90), and so are the halving and the clamp of an
offset (log 12). -/
theorem plumbSteps : Obligations.PlumbSteps := by
  refine ⟨fun s w lag ha hphase hfail hp hw hc hgood htick hseen => ?_,
    fun s src w lag inverted h => congrArg Host.Outcome.next (State.live_of_same (markerWord_of_deaf h)),
    fun s ha hp => ?_, fun s ha hp hphase hfail => ?_, fun s ha hp => ⟨fun hn => ?_, fun hn => ?_⟩,
    fun s ha hs hpt => ⟨fun he => ?_, fun he => ?_⟩,
    fun s h => congrArg Host.Outcome.next (State.live_of_same (if_pos h)),
    fun s src hsrc hp he hh => ?_, fun s p l ha hl hup hdue hcore => ?_⟩
  case refine_1 =>
    obtain ⟨hbeat, hopen, hph⟩ := State.locked_at_pin (lag := lag) hphase hfail hp hw hc hgood htick hseen
    exact ⟨_, congrArg Host.Outcome.next (State.live_of_alive ha _), congrArg Beat.plumb hbeat, congrArg Beat.source hbeat,
      congrArg Beat.run hbeat, hopen, hph, congrArg Beat.tick hbeat⟩
  case refine_2 =>
    obtain ⟨faults, hle, heq⟩ := State.beatSourceLoss_of_locked hp
    exact ⟨_, congrArg Host.Outcome.next ((State.live_of_alive ha _).trans heq), hle, rfl⟩
  case refine_3 =>
    have hrun : acquireTimeout s = _ := if_neg (by simp [hp, hphase, hfail])
    refine ⟨_, congrArg Host.Outcome.next ((State.live_of_alive ha _).trans (hrun.trans
      (State.openWindow_of_phase ((congrArg Chip.phase (State.setDrift_chip ..)).trans hphase)))), ?_⟩
    simp [State.setDrift_beat, State.setDrift_chip, State.modBeat]
  case refine_4 => exact congrArg Host.Outcome.next ((State.live_of_alive ha _).trans (if_pos (.inr hn)))
  case refine_5 =>
    refine ⟨_, congrArg Host.Outcome.next ((State.live_of_alive ha _).trans (if_neg (by simp [hp]; omega))), ?_, rfl⟩
    exact State.setDrift_beat ..
  case refine_6 => exact congrArg Host.Outcome.next ((State.live_of_alive ha _).trans ((slewAdjust_of_point hs hpt).trans (by rw [if_pos he])))
  case refine_7 =>
    exact congrArg Host.Outcome.next ((State.live_of_alive ha _).trans ((slewAdjust_of_point hs hpt).trans (by rw [if_neg he.le.not_gt])))
  case refine_8 =>
    have hbeat := State.checkResync_beat hsrc hp he hh
    exact ⟨congrArg Beat.plumb hbeat, congrArg Beat.drift hbeat, s.checkResync_tick, congrArg Beat.lastLock hbeat⟩
  case refine_9 =>
    have hmem : l.head (fun h => by simp [h] at hl) ∈ l := List.head_mem _
    obtain ⟨x, hx, -⟩ := argMin_of_mem (key := roundTrip) hmem
    have hleast : ∀ y ∈ l, roundTrip x ≤ roundTrip y := fun y hy => by
      obtain ⟨a, ha, hle⟩ := argMin_of_mem (key := roundTrip) hy
      cases hx.symm.trans ha
      exact hle
    obtain ⟨hnet, hbeat⟩ := offsetPass_of_least hx hl hup hdue hcore
    refine ⟨x, _, mem_of_argMin hx, hleast, congrArg Host.Outcome.next (State.live_of_alive ha _), ?_, congrArg Net.measured hnet,
      fun q hq => ?_, hbeat⟩
    · exact (congrArg (fun n : Net => n.ports.get Port.init p) hnet).trans (State.portAt_measured_self p x)
    · exact (congrArg (fun n : Net => n.ports.get Port.init q) hnet).trans (State.portAt_measured_ne x hq)

end Sys2Proof.Machine

/-! SUPPORT. O54: links and peers. -/
namespace Sys2Proof.Machine

variable {s : State} {p node : Nat}

/-! ### Training -/

/-- What a port holds that has trained (R592). -/
def Port.ofTrain (r : TrainReport) : Port :=
  ⟨true, r.node, r.incarnation, decide (r.level = 2), r.plumb, r.pin, r.drift, false, 0, 0, true⟩

/-- The state in which a port is up, and its node neither reset nor gone. -/
def State.trained (s : State) (p : Nat) (r : TrainReport) : State :=
  let t := s.modPort p fun _ => Port.ofTrain r
  { t with net := { t.net with reset := t.net.reset.drop r.node, gone := t.net.gone.drop r.node } }

theorem State.portAt_trained_self (r : TrainReport) : (s.trained p r).portAt p = Port.ofTrain r :=
  State.portAt_modPort_self (s := s) p fun _ => Port.ofTrain r

theorem State.portAt_trained_ne {q : Nat} (r : TrainReport) (h : q ≠ p) : (s.trained p r).portAt q = s.portAt q :=
  (State.portAt_modPort (s := s) p q fun _ => Port.ofTrain r).trans (if_neg (Ne.symm h))

theorem SameParts.portAt {s t : State} (h : SameParts s t) (p : Nat) : t.portAt p = s.portAt p :=
  congrArg (fun x : Tab Port => x.get Port.init p) h.ports

theorem linkTrained_of_early {r : TrainReport} (h : 18 ≤ p ∨ s.landed = false ∨ s.chip.phase < 3) : linkTrained p r s = s :=
  if_pos (by rcases h with h | h | h <;> simp [h])

theorem linkTrained_of_low {r : TrainReport} (hp : p < 18) (hl : s.landed = true) (hc : s.coreStopped 6 = false) (hph : 3 ≤ s.chip.phase)
    (hr : r.level < 2) : linkTrained p r s = (s.modPort p fun x => { x with up := false }).chipEvent :=
  (if_neg (by simp [hl, hc]; omega)).trans (if_pos hr)

/-- What a peer is told, or what ends because it is another incarnation, leaves the ports and the peers' marks alone. -/
theorem linkTrained_keeps {r : TrainReport} (hp : p < 18) (hl : s.landed = true) (hc : s.coreStopped 6 = false) (hph : 3 ≤ s.chip.phase)
    (hr : 2 ≤ r.level) : SameParts (s.trained p r) (linkTrained p r s) := by
  have h := SameParts.refl (s.trained p r)
  have heq : linkTrained p r s =
      (let same := s.net.ports.any fun e => e.2.node == r.node && e.2.inc == r.incarnation
       let t := if same then (s.trained p r).sendValues r.node
         else (((s.trained p r).abandonProxies r.node).dropSubs r.node).endImports r.node
       if t.beat.drift then t.linkSend (.drift true) else t) :=
    (if_neg (by simp [hl, hc]; omega)).trans (if_neg (Nat.not_lt.2 hr))
  rw [heq]
  exact .ite (SameParts.ite h.sendValues h.abandonProxies.dropSubs.endImports).linkSend
    (.ite h.sendValues h.abandonProxies.dropSubs.endImports)

/-! ### Loss of a link and of a node -/

theorem State.beatSourceLoss_net (s : State) : s.beatSourceLoss.net = s.net := by
  have hlose : ∀ t : State, t.loseSource.net = t.net := fun t => by
    unfold State.loseSource
    split <;> rfl
  unfold State.beatSourceLoss
  split
  case h_1 => exact hlose _
  case h_2 => exact hlose _

/-- A port that is dropped is down. -/
theorem State.dropPort_up (s : State) (p : Nat) : ((s.dropPort p).portAt p).up = false := by
  have hmod := State.portAt_modPort_self (s := s) p fun x => { x with up := false, valid := false, due := false }
  have hnet : (s.dropPort p).net = (s.modPort p fun x => { x with up := false, valid := false, due := false }).net := by
    unfold State.dropPort
    extract_lets t
    split
    case isTrue => exact State.beatSourceLoss_net t
    case isFalse => rfl
  exact congrArg Port.up ((congrArg (fun n : Net => n.ports.get Port.init p) hnet).trans hmod)

theorem linkDown_of_up (h : (s.portAt p).up = true) :
    linkDown p s =
      (let t := (s.dropPort p).endPort p
       if (t.net.ports.any fun e => e.2.up && e.2.node == (s.portAt p).node) = true then t
       else ({ t with net := { t.net with gone := t.net.gone.put none (s.portAt p).node (some 0) } } : State).endImports (s.portAt p).node) :=
  if_neg (by simp [h])

theorem peerUnreachableExpiry_of_gone {n : Nat} (h : s.net.gone.get none node = some n) :
    peerUnreachableExpiry node s =
      if n < 64 then s else ({ s with net := { s.net with gone := s.net.gone.drop node } } : State).abandonProxies node := by
  unfold peerUnreachableExpiry
  rw [h]

/-! ### What peers send -/

theorem resetNotice_of_known {inc : W32} (h : s.net.reset.get none node = some inc) : resetNotice p node inc s = s := if_pos (.inr (.inr h))

theorem peerDrift_of_up {r : PlumbReport} {drift : Bool} (h : (s.portAt p).up = true) :
    peerDrift p r drift s =
      (let t := (s.countMsg p 7 false).modPort p fun x => { x with plumb := r.state % 8, pin := r.pin, drift := drift }
       if s.beat.source = some (.port p) ∧ t.portQualifies p = false then t.beatSourceLoss else t) := if_neg (by simp [h])

theorem linkResponse_of_write {id : Nat} {a : PeerAnswer} {w : RemoteWrite} (hup : (s.portAt p).up = true)
    (hw : s.net.writes.find? (fun w => w.id == id) = some w) : linkResponse p id a s = s.writeAnswered w (a.status == .ok) := by
  unfold linkResponse
  rw [if_neg (by simp [hup]), hw]

/-- The answer to a tile's remote access. -/
theorem linkResponse_of_tile {id : Nat} {a : PeerAnswer} {x : TileRun} (hup : (s.portAt p).up = true)
    (hw : s.net.writes.find? (fun w => w.id == id) = none) (hx : s.xl.tiles.get none id = some x) (hst : x.st = .moving) (hleft : x.left ≠ []) :
    linkResponse p id a s =
      if a.status ≠ .ok then s.remoteFail id x a
      else
        let n := s.remoteBytes x
        let t := if x.req.write then s else s.countLink x.part n.1 p n.2 false
        (if x.left.length ≤ 1 then t.dropTile id else t.putTile id { x with left := x.left.drop 1 }).freeCredit4 id := by
  unfold linkResponse
  rw [if_neg (by simp [hup]), hw, hx]
  exact if_neg (by simp [hst, hleft])

/-- Settles O54: R203, R532–R535 and R592 as written; that a notice of an incarnation already acted on changes nothing is the model's choice
(log 45, from R533). -/
theorem linkSteps : Obligations.LinkSteps := by
  refine ⟨fun s p r ha hp hl hc hph => ⟨fun hr => ?_, fun hr => ?_⟩,
    fun s p r h => congrArg Host.Outcome.next (State.live_of_same (linkTrained_of_early h)),
    fun s p ha hup => ⟨fun hany => ?_, fun hany => ?_, s.dropPort_up p⟩, fun s node n ha hn => ⟨fun hlt => ?_, fun hge => ?_⟩,
    fun s p node inc ha hup hown => ⟨fun h => congrArg Host.Outcome.next (State.live_of_same (resetNotice_of_known h)), fun hne => ?_⟩,
    fun s p plumb pin drift ha hup => ⟨fun h => ?_, fun hsrc hq => ?_⟩, fun s p id a w ha hup hw => ?_,
    fun s p id a x ha hw hx hup hst hleft => ⟨fun hbad => ?_, fun hok hone => ?_, fun hok htwo => ?_⟩⟩
  · exact congrArg Host.Outcome.next ((State.live_of_alive ha _).trans (linkTrained_of_low hp hl hc hph hr))
  · have h := linkTrained_keeps hp hl hc hph hr
    exact ⟨_, congrArg Host.Outcome.next (State.live_of_alive ha _), (h.portAt p).trans (State.portAt_trained_self r),
      fun q hq => (h.portAt q).trans (State.portAt_trained_ne r hq), h.reset, h.gone⟩
  · exact congrArg Host.Outcome.next ((State.live_of_alive ha _).trans ((linkDown_of_up hup).trans (if_pos hany)))
  · exact congrArg Host.Outcome.next ((State.live_of_alive ha _).trans ((linkDown_of_up hup).trans (if_neg (Bool.not_eq_true _ ▸ hany))))
  · exact congrArg Host.Outcome.next ((State.live_of_alive ha _).trans ((peerUnreachableExpiry_of_gone hn).trans (if_pos hlt)))
  · exact congrArg Host.Outcome.next ((State.live_of_alive ha _).trans ((peerUnreachableExpiry_of_gone hn).trans (if_neg (Nat.not_lt.2 hge))))
  · exact congrArg Host.Outcome.next ((State.live_of_alive ha _).trans (if_neg (by simp [hup, hown, hne])))
  · exact congrArg Host.Outcome.next ((State.live_of_alive ha _).trans ((peerDrift_of_up hup).trans
      (if_neg fun hn => h.elim (fun h => h hn.1) fun h => Bool.false_ne_true (hn.2.symm.trans h))))
  · exact congrArg Host.Outcome.next ((State.live_of_alive ha _).trans ((peerDrift_of_up hup).trans (if_pos ⟨hsrc, hq⟩)))
  · exact congrArg Host.Outcome.next ((State.live_of_alive ha _).trans (linkResponse_of_write hup hw))
  · exact congrArg Host.Outcome.next ((State.live_of_alive ha _).trans ((linkResponse_of_tile hup hw hx hst hleft).trans (if_pos hbad)))
  · refine congrArg Host.Outcome.next ((State.live_of_alive ha _).trans ((linkResponse_of_tile hup hw hx hst hleft).trans
      ((if_neg (not_not.2 hok)).trans ?_)))
    exact congrArg (State.freeCredit4 · id) (if_pos hone.le)
  · refine congrArg Host.Outcome.next ((State.live_of_alive ha _).trans ((linkResponse_of_tile hup hw hx hst hleft).trans
      ((if_neg (not_not.2 hok)).trans ?_)))
    exact congrArg (State.freeCredit4 · id) (if_neg (Nat.not_le.2 htwo))

end Sys2Proof.Machine

/-! SUPPORT. O55: resets, starts and the loss of power. -/
namespace Sys2Proof.Machine

variable {s : State} {env : StartEnv}

/-! ### What the parts of a start write -/

theorem State.autoDump_frame (s : State) (cause : Nat) : ∃ free dumps slot0 slot1,
    s.autoDump cause = { s with free := free, log := { s.log with dumps := dumps, slot0 := slot0, slot1 := slot1 } } := by
  unfold State.autoDump
  split
  case isTrue => exact ⟨_, _, _, _, rfl⟩
  case isFalse => exact ⟨s.free, s.log.dumps, s.log.slot0, s.log.slot1, rfl⟩

theorem State.sendNotices_frame (s : State) : ∃ obs out, s.sendNotices = { s with obs := obs, out := out } := by
  refine State.foldl_inv (fun t => ∃ obs out, t = { s with obs := obs, out := out }) _ (fun t p h => ?_) _ _ ⟨s.obs, s.out, rfl⟩
  obtain ⟨obs, out, rfl⟩ := h
  exact ⟨_, _, rfl⟩

/-- The island's work starts from what a reset clears; of the log the numbers stay, but a transition that erases takes the flash copy (R579). -/
theorem State.begun_frame (s : State) (env : StartEnv) (cause : Nat) : ∃ (log : Log) (free : Nat) (out : Out) (attempts : Nat),
    s.begun env cause = { s.cleared with
      free := free, out := out, log := log, sec := s.cleared.sec.begin_ env s.chip.serial
      net := { s.cleared.net with own := env.node % 512 }
      chip := { s.cleared.chip with islandOk := env.selfTest, attempts := attempts } } ∧
    log.inc = s.log.inc ∧ log.flash = if s.cleared.sec.erases then 0 else s.log.flash := by
  obtain ⟨free, dumps, slot0, slot1, hdump⟩ := s.autoDump_frame cause
  obtain ⟨obs, out, hnotice⟩ := (s.autoDump cause).sendNotices_frame
  have hinc : ∀ (l : Log) (b : Bool), (l.renumber b).inc = l.inc := fun l b => by
    unfold Log.renumber
    split <;> rfl
  unfold State.begun
  rw [hnotice, hdump]
  exact ⟨_, _, _, _, rfl, hinc _ _, rfl⟩

theorem State.startBoard_frame (s : State) (env : StartEnv) : ∃ board ports trim out,
    s.startBoard env = { s with board := board, beat := { s.beat with ports := ports, trim := trim }, out := out } := by
  unfold State.startBoard
  refine State.foldl_inv (fun t => ∃ board ports trim out,
    t = { s with board := board, beat := { s.beat with ports := ports, trim := trim }, out := out }) _ (fun t x h => ?_) _ _ ⟨_, _, _, _, rfl⟩
  obtain ⟨board, ports, trim, out, rfl⟩ := h
  split
  case isTrue => exact ⟨_, _, _, _, rfl⟩
  case isFalse => exact ⟨_, _, _, _, rfl⟩

theorem State.loadCores_frame (s : State) (l : List (Nat × Nat × W32)) : ∃ core, s.loadCores l = { s with watch := { s.watch with core := core } } := by
  refine State.foldl_inv (fun t => ∃ core, t = { s with watch := { s.watch with core := core } }) _ (fun t x h => ?_) _ _ ⟨s.watch.core, rfl⟩
  obtain ⟨core, rfl⟩ := h
  exact ⟨_, rfl⟩

/-- An image that runs is noted, and the cores and the board are set up (R461, R572). -/
theorem State.imaged_frame (s : State) (env : StartEnv) (image : ImageSlot) (signed_ : Bool) : ∃ core board ports trim out,
    s.imaged env image signed_ = { s with
      sec := { s.sec with signed := signed_, measured := some (image.hash, signed_, s.sec.measureMac image.hash signed_) }
      chip := { s.chip with build := image.build, version := image.security, commit := image.commit }
      watch := { s.watch with core := core }, board := board, beat := { s.beat with ports := ports, trim := trim }, out := out } := by
  obtain ⟨core, hcore⟩ := State.loadCores_frame
    { s with
      sec := { s.sec with signed := signed_, measured := some (image.hash, signed_, s.sec.measureMac image.hash signed_) }
      chip := { s.chip with build := image.build, version := image.security, commit := image.commit } } env.coreWords
  unfold State.imaged
  dsimp only
  rw [hcore]
  obtain ⟨board, ports, trim, out, h⟩ := State.startBoard_frame _ env
  exact ⟨_, _, _, _, _, h⟩

/-! ### The rights of a start -/

/-- The certificate, the grant and the open challenge. -/
def Sec.held (x : Sec) : Option (Cert × Bool) × Option Nat × Option Challenge := (x.cert, x.grant, x.challenge)

theorem Sec.resumeStep_held (x : Sec) (row k : Nat) : (x.resumeStep row k).held = x.held := by
  unfold Sec.resumeStep
  split
  case isTrue => rfl
  case isFalse =>
    split
    case isTrue => rfl
    case isFalse => rfl

theorem Sec.resume_held (x : Sec) : x.resume.held = x.held := by
  unfold Sec.resume
  split
  case h_1 row mark _ =>
    exact List.foldlRecOn (motive := fun y : Sec => y.held = x.held) _ _ rfl fun y hy k _ => (Sec.resumeStep_held y row k).trans hy
  case h_2 => rfl

theorem Sec.held_setRows (x : Sec) (a b : RootRow) : ({ x with rowA := a, rowB := b } : Sec).held = x.held := rfl

theorem Sec.makeRoot_held (x : Sec) (env : StartEnv) : (x.makeRoot env).held = x.held := by
  unfold Sec.makeRoot
  split
  case isTrue =>
    extract_lets b
    split
    case isTrue =>
      split
      case h_1 => exact x.held_setRows _ _
      case h_2 => exact x.held_setRows _ _
      case h_3 => exact x.held_setRows _ _
    case isFalse =>
      split
      case h_1 => exact x.held_setRows _ _
      case h_2 => exact x.held_setRows _ _
  case isFalse => rfl

/-- The island's work at a start gives and takes no right. -/
theorem Sec.begin_held (x : Sec) (env : StartEnv) (serial : BitVec 128) : (x.begin_ env serial).held = x.held :=
  (Sec.makeRoot_held x.resume env).trans x.resume_held

/-! ### What every reset leaves -/

/-- What a reset that is due leaves, however its start ends, of the state `s` that it finds. -/
structure ResetFrom (s : State) (sec : Sec) (t : State) : Prop where
  due : t.chip.pending = none
  closed : t.chip.opened = false
  queue : t.pending = s.pending
  mbx : t.box.mbx = []
  sets : t.box.sets = []
  org : t.org = Org.init
  ten : t.ten = Tenant.init
  fen : t.fen = FenceUnit.init
  reg : t.reg = Reg.init
  xl : t.xl = Xlate.init
  tick : t.beat.tick = 0
  plumb : t.beat.plumb = .acquire
  fuse : t.sec.fuse = sec.fuse
  lc : t.sec.lc = sec.fuse
  cert : t.sec.cert = none
  grant : t.sec.grant = none
  challenge : t.sec.challenge = none
  obs : t.obs = Obs.init
  watch : t.watch = { Watch.init with core := t.watch.core }

/-- What one leaves in addition where power stays. -/
structure StartedFrom (s : State) (sec : Sec) (t : State) : Prop extends ResetFrom s sec t where
  powered : t.chip.powered = s.chip.powered
  slots : t.sec.slots = sec.slots
  mem : t.mem = { Mem.init with laneOf := s.mem.laneOf, saves := s.mem.saves, line := s.mem.line.filter fun e => inDump (e.1 * 128) }

theorem StartedFrom.begun (s : State) (env : StartEnv) (cause : Nat) :
    StartedFrom s (s.cleared.sec.begin_ env s.chip.serial) (s.begun env cause) := by
  obtain ⟨log, free, out, attempts, h, -, -⟩ := s.begun_frame env cause
  have hheld := Sec.begin_held s.cleared.sec env s.chip.serial
  rw [h]
  exact ⟨⟨rfl, rfl, rfl, rfl, rfl, rfl, rfl, rfl, rfl, rfl, rfl, rfl, rfl, rfl, congrArg Prod.fst hheld, congrArg (fun x => x.2.1) hheld,
    congrArg (fun x => x.2.2) hheld, rfl, rfl⟩, rfl, rfl, rfl⟩

variable {sec : Sec} {t : State}

theorem StartedFrom.imaged (h : StartedFrom s sec t) (env : StartEnv) (image : ImageSlot) (signed_ : Bool) :
    StartedFrom s sec (t.imaged env image signed_) := by
  obtain ⟨core, board, ports, trim, out, himg⟩ := t.imaged_frame env image signed_
  rw [himg]
  exact { h with watch := congrArg (fun w : Watch => { w with core := core }) h.watch }

theorem StartedFrom.stopStart (h : StartedFrom s sec t) (why : Nat × Nat) (phase unit : Nat) (failed : Bool) :
    StartedFrom s sec (t.stopStart why phase unit failed) := { h with watch := h.watch }

theorem StartedFrom.logRec (h : StartedFrom s sec t) (r : RecBody) : StartedFrom s sec (t.logRec r) := { h with watch := h.watch }

/-- The state in which memory is trained and the rails stand, before the records of the start (R532, R442). -/
def State.memoryUp (s : State) (env : StartEnv) : State :=
  { s with
    log := { s.log with inc := s.log.newInc, flash := if env.flashOk then s.log.newInc else s.log.flash }
    board := { s.board with flash := !env.flashOk }
    coh := { s.coh with cap := env.nativeCap }
    pwr := { s.pwr with targets := (List.range 8).map fun r => (r, Config.railTarget r) }
    eng := (List.range 128).foldl (fun t e => t.put Engine.init e { Engine.init with compat := !env.nativeCap.getLsbD e }) s.eng
    chip := { s.chip with phase := 4, startMs := env.startMs } }

theorem State.startMemory_eq (s : State) (env : StartEnv) (cause unit : Nat) (bad : Option Nat) :
    s.startMemory env cause unit bad =
      let t := (s.memoryUp env).logRec { kind := 0x0006, part := 0xFF, a := cause, b := unit, c := s.log.lastInc.toNat }
      bad.elim t fun v => t.logRec { kind := 0x0017, part := 0xFF, a := 1, b := v } := by
  unfold State.startMemory
  cases bad <;> rfl

theorem StartedFrom.memoryUp (h : StartedFrom s sec t) (env : StartEnv) : StartedFrom s sec (t.memoryUp env) := { h with watch := h.watch }

theorem StartedFrom.startMemory (h : StartedFrom s sec t) (env : StartEnv) (cause unit : Nat) (bad : Option Nat) :
    StartedFrom s sec (t.startMemory env cause unit bad) := by
  rw [State.startMemory_eq]
  cases bad with
  | none => exact (h.memoryUp env).logRec _
  | some v => exact ((h.memoryUp env).logRec _).logRec _

theorem ResetFrom.powerLoss (h : ResetFrom s sec t) : ResetFrom s sec (powerLoss t) :=
  ⟨rfl, rfl, h.queue, rfl, rfl, rfl, rfl, rfl, rfl, rfl, rfl, rfl, h.fuse, h.lc, rfl, rfl, rfl, rfl, rfl⟩

/-! ### The record of a start -/

/-- The log holds the record of a start with its cause, under the present incarnation (R539). -/
def State.Recorded (s : State) (cause unit : Nat) : Prop :=
  ∃ r ∈ s.log.recs, r.kind = 0x0006 ∧ r.a = cause ∧ r.b = unit ∧ r.inc = s.log.inc

theorem State.recorded_logRec (s : State) (cause unit c : Nat) :
    (s.logRec { kind := 0x0006, part := 0xFF, a := cause, b := unit, c := c }).Recorded cause unit :=
  ⟨_, List.mem_append_right _ (List.mem_singleton_self _), rfl, rfl, rfl, rfl⟩

/-- A record that follows at once does not push the one before it out of the ring. -/
theorem State.recorded_logRec_logRec (s : State) (cause unit c : Nat) (r : RecBody) :
    ((s.logRec { kind := 0x0006, part := 0xFF, a := cause, b := unit, c := c }).logRec r).Recorded cause unit := by
  obtain ⟨l, e, hrecs, hkind, ha, hb, hinc⟩ : ∃ (l : List Rec) (e : Rec),
      (s.logRec { kind := 0x0006, part := 0xFF, a := cause, b := unit, c := c }).log.recs = l ++ [e] ∧
      e.kind = 0x0006 ∧ e.a = cause ∧ e.b = unit ∧ e.inc = s.log.inc := ⟨_, _, rfl, rfl, rfl, rfl, rfl⟩
  refine ⟨e, List.mem_append_left _ ?_, hkind, ha, hb, hinc⟩
  rw [hrecs]
  split
  case isTrue hfull =>
    cases l with
    | nil => simp [logCapacity] at hfull
    | cons x l => simp
  case isFalse => simp

theorem State.startMemory_recorded (s : State) (env : StartEnv) (cause unit : Nat) (bad : Option Nat) :
    (s.startMemory env cause unit bad).Recorded cause unit := by
  rw [State.startMemory_eq]
  cases bad with
  | none => exact State.recorded_logRec ..
  | some v => exact State.recorded_logRec_logRec ..

/-! ### How a reset ends -/

variable {cause unit : Nat} {image : ImageSlot} {signed_ : Bool}

theorem State.begun_sec (s : State) (env : StartEnv) (cause : Nat) : (s.begun env cause).sec = s.cleared.sec.begin_ env s.chip.serial := by
  obtain ⟨log, free, out, attempts, h, -, -⟩ := s.begun_frame env cause
  rw [h]

theorem State.begun_pwr (s : State) (env : StartEnv) (cause : Nat) : (s.begun env cause).pwr = Power.init := by
  obtain ⟨log, free, out, attempts, h, -, -⟩ := s.begun_frame env cause
  rw [h]
  rfl

/-- The island's state at a start. -/
def State.startSec (s : State) (env : StartEnv) : Sec := s.cleared.sec.begin_ env s.chip.serial

theorem chipReset_of_lost (hdue : s.chip.pending = some (cause, unit)) (hl : s.cleared.sec.rootLost env = true) :
    chipReset env s = powerLoss (s.begun env cause) := (chipReset_of_due hdue).trans (if_pos hl)

theorem chipReset_of_noImage (hdue : s.chip.pending = some (cause, unit)) (hl : s.cleared.sec.rootLost env = false)
    (hi : (s.startSec env).chooseImage env.imageA env.imageB = none) :
    chipReset env s =
      if (s.startSec env).lc = .scrap then (s.begun env cause).stopStart (cause, unit) 0 0 false
      else (s.begun env cause).stopStart (cause, unit) 0 0xF0 true := by
  unfold State.startSec at hi ⊢
  rw [chipReset_of_due hdue, if_neg (by simp [hl]), State.begun_sec, hi]

theorem chipReset_of_failed {u : Nat} (hdue : s.chip.pending = some (cause, unit)) (hl : s.cleared.sec.rootLost env = false)
    (hi : (s.startSec env).chooseImage env.imageA env.imageB = some (image, signed_)) (hu : env.failUnit = some u) :
    chipReset env s =
      (let t := (s.begun env cause).imaged env image signed_
       ({ t with chip := { t.chip with attempts := 3 } } : State).stopStart (cause, unit) 2 u true) := by
  unfold State.startSec at hi
  rw [chipReset_of_due hdue, if_neg (by simp [hl]), State.begun_sec, hi]
  dsimp only
  rw [hu]

theorem chipReset_of_started (hdue : s.chip.pending = some (cause, unit)) (hl : s.cleared.sec.rootLost env = false)
    (hi : (s.startSec env).chooseImage env.imageA env.imageB = some (image, signed_)) (hu : env.failUnit = none) :
    chipReset env s =
      (let t := (s.begun env cause).imaged env image signed_
       t.startMemory env cause unit (t.badTrim env)) := by
  unfold State.startSec at hi
  rw [chipReset_of_due hdue, if_neg (by simp [hl]), State.begun_sec, hi]
  dsimp only
  rw [hu]

/-- With power that stays, every way a start ends keeps what the reset left. -/
theorem StartedFrom.chipReset (hdue : s.chip.pending = some (cause, unit)) (hl : s.cleared.sec.rootLost env = false) :
    StartedFrom s (s.startSec env) (chipReset env s) ∧ (chipReset env s).Recorded cause unit := by
  have hb := StartedFrom.begun s env cause
  cases hi : (s.startSec env).chooseImage env.imageA env.imageB with
  | none =>
    rw [chipReset_of_noImage hdue hl hi]
    split
    case isTrue => exact ⟨hb.stopStart .., State.recorded_logRec ..⟩
    case isFalse => exact ⟨hb.stopStart .., State.recorded_logRec ..⟩
  | some x =>
    have hm := hb.imaged env x.1 x.2
    cases hu : env.failUnit with
    | some u =>
      rw [chipReset_of_failed hdue hl hi hu]
      exact ⟨{ hm.stopStart (cause, unit) 2 u true with watch := hm.watch }, State.recorded_logRec ..⟩
    | none =>
      rw [chipReset_of_started hdue hl hi hu]
      exact ⟨hm.startMemory .., State.startMemory_recorded ..⟩

theorem ResetFrom.chipReset (hdue : s.chip.pending = some (cause, unit)) : ResetFrom s (s.startSec env) (chipReset env s) := by
  cases hl : s.cleared.sec.rootLost env with
  | true =>
    rw [chipReset_of_lost hdue hl]
    exact (StartedFrom.begun s env cause).toResetFrom.powerLoss
  | false => exact (StartedFrom.chipReset hdue hl).1.toResetFrom

/-- An image that runs shows in its registers, and the rails and the rest of the start are still to come. -/
theorem State.imaged_fields (s : State) (env : StartEnv) (image : ImageSlot) (signed_ : Bool) :
    (s.imaged env image signed_).sec.signed = signed_ ∧ (s.imaged env image signed_).chip.build = image.build ∧
      (s.imaged env image signed_).chip.version = image.security ∧ (s.imaged env image signed_).pwr = s.pwr ∧
      (s.imaged env image signed_).chip.failed = s.chip.failed ∧ (s.imaged env image signed_).chip.secOnly = s.chip.secOnly ∧
      (s.imaged env image signed_).log = s.log := by
  obtain ⟨core, board, ports, trim, out, h⟩ := s.imaged_frame env image signed_
  rw [h]
  exact ⟨rfl, rfl, rfl, rfl, rfl, rfl, rfl⟩

theorem State.startMemory_fields (s : State) (env : StartEnv) (cause unit : Nat) (bad : Option Nat) :
    (s.startMemory env cause unit bad).sec = s.sec ∧ (s.startMemory env cause unit bad).chip = { s.chip with phase := 4, startMs := env.startMs } ∧
      (s.startMemory env cause unit bad).pwr = { s.pwr with targets := (List.range 8).map fun r => (r, Config.railTarget r) } ∧
      (s.startMemory env cause unit bad).coh.cap = env.nativeCap ∧ (s.startMemory env cause unit bad).log.inc = s.log.newInc := by
  rw [State.startMemory_eq]
  cases bad with
  | none => exact ⟨rfl, rfl, rfl, rfl, rfl⟩
  | some v => exact ⟨rfl, rfl, rfl, rfl, rfl⟩

theorem railTargets_get {rail : Nat} (h : rail < 8) : Tab.get 0 ((List.range 8).map fun r => (r, Config.railTarget r)) rail = Config.railTarget rail := by
  interval_cases rail <;> rfl

/-- What a start without an image leaves (R461, R590). -/
theorem chipReset_noImage (hdue : s.chip.pending = some (cause, unit)) (hl : s.cleared.sec.rootLost env = false)
    (hi : (s.startSec env).chooseImage env.imageA env.imageB = none) :
    (chipReset env s).pwr = Power.init ∧ (chipReset env s).chip.secOnly = true ∧ (chipReset env s).chip.phase = 0 ∧
      ((chipReset env s).chip.failed = true ↔ (s.startSec env).lc ≠ .scrap) := by
  rw [chipReset_of_noImage hdue hl hi]
  split
  case isTrue hsc => exact ⟨s.begun_pwr env cause, rfl, rfl, iff_of_false Bool.false_ne_true (not_not.2 hsc)⟩
  case isFalse hsc => exact ⟨s.begun_pwr env cause, rfl, rfl, iff_of_true rfl hsc⟩

/-- What a start with an image leaves of it. -/
theorem chipReset_image (hdue : s.chip.pending = some (cause, unit)) (hl : s.cleared.sec.rootLost env = false)
    (hi : (s.startSec env).chooseImage env.imageA env.imageB = some (image, signed_)) :
    (chipReset env s).sec.signed = signed_ ∧ (chipReset env s).chip.build = image.build ∧ (chipReset env s).chip.version = image.security := by
  obtain ⟨hsigned, hbuild, hversion, -⟩ := (s.begun env cause).imaged_fields env image signed_
  cases hu : env.failUnit with
  | some u =>
    rw [chipReset_of_failed hdue hl hi hu]
    exact ⟨hsigned, hbuild, hversion⟩
  | none =>
    obtain ⟨hsec, hchip, -⟩ := ((s.begun env cause).imaged env image signed_).startMemory_fields env cause unit
      (((s.begun env cause).imaged env image signed_).badTrim env)
    rw [chipReset_of_started hdue hl hi hu]
    exact ⟨(congrArg Sec.signed hsec).trans hsigned, (congrArg Chip.build hchip).trans hbuild, (congrArg Chip.version hchip).trans hversion⟩

/-- Training that fails stops the start at the unit named (R590). -/
theorem chipReset_failed {u : Nat} (hdue : s.chip.pending = some (cause, unit)) (hl : s.cleared.sec.rootLost env = false)
    (hi : (s.startSec env).chooseImage env.imageA env.imageB = some (image, signed_)) (hu : env.failUnit = some u) :
    (chipReset env s).pwr = Power.init ∧ (chipReset env s).chip.phase = 2 ∧ (chipReset env s).chip.failed = true ∧
      (chipReset env s).chip.failUnit = u ∧ (chipReset env s).chip.secOnly = true := by
  obtain ⟨-, -, -, hpwr, -⟩ := (s.begun env cause).imaged_fields env image signed_
  rw [chipReset_of_failed hdue hl hi hu]
  exact ⟨hpwr.trans (s.begun_pwr env cause), rfl, rfl, rfl, rfl⟩

/-- A start that goes on ends in phase 4 with the next incarnation and the rails' targets (R532, R442). -/
theorem chipReset_started (hdue : s.chip.pending = some (cause, unit)) (hl : s.cleared.sec.rootLost env = false)
    (hi : (s.startSec env).chooseImage env.imageA env.imageB = some (image, signed_)) (hu : env.failUnit = none) :
    (chipReset env s).pwr = { Power.init with targets := (List.range 8).map fun r => (r, Config.railTarget r) } ∧
      (chipReset env s).chip.phase = 4 ∧ (chipReset env s).chip.failed = false ∧ (chipReset env s).chip.secOnly = false ∧
      (chipReset env s).coh.cap = env.nativeCap ∧
      (chipReset env s).log.inc = ({ s.log with flash := if s.cleared.sec.erases then 0 else s.log.flash } : Log).newInc := by
  obtain ⟨log, free, out, attempts, hbegun, hinc, hflash⟩ := s.begun_frame env cause
  obtain ⟨-, -, -, hpwr, hfailed, honly, hlog⟩ := (s.begun env cause).imaged_fields env image signed_
  obtain ⟨-, hchip, hrails, hcap, hnew⟩ := ((s.begun env cause).imaged env image signed_).startMemory_fields env cause unit
    (((s.begun env cause).imaged env image signed_).badTrim env)
  have hlast : log.newInc = ({ s.log with flash := if s.cleared.sec.erases then 0 else s.log.flash } : Log).newInc := by
    unfold Log.newInc Log.lastInc
    rw [hinc, hflash]
  have hblog : (s.begun env cause).log = log := by rw [hbegun]
  have hbchip : (s.begun env cause).chip.failed = false ∧ (s.begun env cause).chip.secOnly = false := by
    rw [hbegun]
    exact ⟨rfl, rfl⟩
  rw [chipReset_of_started hdue hl hi hu]
  refine ⟨hrails.trans ?_, congrArg Chip.phase hchip, (congrArg Chip.failed hchip).trans (hfailed.trans hbchip.1),
    (congrArg Chip.secOnly hchip).trans (honly.trans hbchip.2), hcap, hnew.trans ?_⟩
  · rw [hpwr, s.begun_pwr env cause]
  · rw [hlog, hblog, hlast]

/-- What is left where the power goes as the root is generated (R486). -/
theorem chipReset_lost (hdue : s.chip.pending = some (cause, unit)) (hl : s.cleared.sec.rootLost env = true) :
    (chipReset env s).chip.powered = false ∧ (chipReset env s).sec.slots = [] ∧ (chipReset env s).log.recs = [] ∧
      (chipReset env s).mem = { Mem.init with laneOf := s.mem.laneOf } := by
  rw [chipReset_of_lost hdue hl]
  exact ⟨rfl, rfl, rfl, congrArg (fun m : Mem => { Mem.init with laneOf := m.laneOf }) (StartedFrom.begun s env cause).mem⟩

theorem needReset_of_alive (ha : s.alive = true) (c u : Nat) :
    s.needReset c u = { s with chip := { s.chip with pending := some (c, u) } } := by
  have hnone : s.chip.pending.isSome = false := by
    simp only [State.alive, Bool.and_eq_true, Option.isNone_iff_eq_none] at ha
    rw [ha.2]
    rfl
  exact if_neg (by simp [hnone])

/-- Settles O55: the ways a start ends (R461, R486, R530–R532, R590). That the record carries the present incarnation, that SCRAP stops in phase 0
without failure, what power loss takes, which items are kept, and that `laneOf` outlives everything are the model's choices (logs 15, 17, 16, 14
and 81). -/
theorem startOfTheChip : Obligations.StartOfTheChip := by
  refine ⟨fun s env hn => congrArg Host.Outcome.next ?none, fun s env cause unit hp hdue => ?due, fun s => ⟨fun hp => ?on, fun hp => ?off⟩,
    fun s ha => congrArg Host.Outcome.next ((State.live_of_alive ha _).trans (needReset_of_alive ha 7 0)),
    fun s hp => congrArg Host.Outcome.next (if_neg (by simp [hp])),
    fun s hp => ⟨powerLoss s, congrArg Host.Outcome.next (if_pos hp), rfl, rfl, rfl, rfl, rfl, rfl, rfl, rfl, rfl, rfl, rfl, rfl, rfl, rfl, rfl, rfl⟩⟩
  case none =>
    split
    case isTrue => exact chipReset_of_none hn
    case isFalse => rfl
  case on => exact congrArg Host.Outcome.next (if_pos hp)
  case off => exact congrArg Host.Outcome.next (if_neg (by simp [hp]))
  case due =>
    have h := ResetFrom.chipReset (env := env) hdue
    refine ⟨chipReset env s, congrArg Host.Outcome.next (if_pos hp), h.due, h.closed, h.queue, h.mbx, h.sets, h.org, h.ten, h.fen, h.reg, h.xl,
      h.tick, h.plumb, h.fuse, h.lc, h.cert, h.grant, h.challenge, h.obs, h.watch, fun hl => chipReset_lost hdue hl, fun hl => ?_⟩
    obtain ⟨hkept, hrec⟩ := StartedFrom.chipReset hdue hl
    refine ⟨hkept.powered.trans hp, hkept.slots, hkept.mem, fun hst => ?_, fun hst => ?_, hrec, fun hi => ?_, fun image signed_ hi => ?_⟩
    · obtain ⟨x, hi⟩ := Option.isSome_iff_exists.1 hst.1
      obtain ⟨hpwr, -⟩ := chipReset_started hdue hl hi hst.2
      rw [hpwr]
      exact ⟨rfl, fun rail hr => railTargets_get hr⟩
    · cases hi : (s.startSec env).chooseImage env.imageA env.imageB with
      | none => exact (chipReset_noImage hdue hl hi).1
      | some x =>
        obtain ⟨u, hu⟩ := Option.ne_none_iff_exists'.1 fun hu => hst ⟨Option.isSome_iff_exists.2 ⟨x, hi⟩, hu⟩
        exact (chipReset_failed hdue hl hi hu).1
    · exact (chipReset_noImage hdue hl hi).2
    · obtain ⟨hsigned, hbuild, hversion⟩ := chipReset_image hdue hl hi
      exact ⟨hsigned, hbuild, hversion, fun u hu => (chipReset_failed hdue hl hi hu).2, fun hu => (chipReset_started hdue hl hi hu).2⟩

end Sys2Proof.Machine

/-! SUPPORT. O57: the instructions of the TAP. -/
namespace Sys2Proof.Machine

variable {s : State}

/-! ### Loading an instruction -/

/-- The TAP holds an instruction. -/
def State.setTap (s : State) (ir : TapIr) : State := { s with board := { s.board with tap := ir } }

/-- The TAP's instruction leaves Lendor's clocks running. -/
def State.tapFree (s : State) : Prop := s.tapOn = true ∧ s.board.tap ≠ .intest ∧ s.board.tap ≠ .scan

theorem State.stops_of_free (h : s.tapFree) : s.board.tap.stops = false := by
  obtain ⟨-, hi, hs⟩ := h
  simp [TapIr.stops, hi, hs]

theorem State.leaveScan_of_free (h : s.tapFree) (ir : TapIr) : s.leaveScan ir = s.setTap ir :=
  if_neg fun hn => Bool.false_ne_true ((State.stops_of_free h).symm.trans hn.1)

/-- Where no scan runs an instruction is loaded and acts. -/
theorem State.loadTap_of_free (h : s.tapFree) (ir : TapIr) (f : State → State) : s.loadTap ir f = f (s.setTap ir) := by
  have hon : (s.setTap ir).tapOn = true := h.1
  unfold State.loadTap
  rw [if_pos h.1, State.leaveScan_of_free h]
  exact if_pos hon

/-- Where one runs, another instruction leaves it, and a chip reset is due (R491). -/
theorem State.leaveScan_of_scan {ir : TapIr} (hon : s.tapOn = true) (hs : s.board.tap.stops = true) (hne : ir ≠ s.board.tap) :
    s.leaveScan ir = { s with board := { s.board with tap := ir }, chip := { s.chip with stopped := ir.stops, pending := some (6, 0) } } := by
  have hnone : s.chip.pending.isSome = false := by
    simp only [State.tapOn, Bool.and_eq_true, Option.isNone_iff_eq_none] at hon
    rw [hon.2]
    rfl
  unfold State.leaveScan
  dsimp only
  rw [if_pos ⟨hs, hne⟩]
  exact if_neg (by simp [hnone])

theorem State.tapOn_leaveScan {ir : TapIr} (hon : s.tapOn = true) (hs : s.board.tap.stops = true) (hne : ir ≠ s.board.tap) :
    (s.leaveScan ir).tapOn = false := by
  rw [State.leaveScan_of_scan hon hs hne]
  exact Bool.and_false _

theorem State.loadTap_of_scan {ir : TapIr} (hon : s.tapOn = true) (hs : s.board.tap.stops = true) (hne : ir ≠ s.board.tap) (f : State → State) :
    s.loadTap ir f = s.leaveScan ir := by
  unfold State.loadTap
  rw [if_pos hon]
  exact if_neg (by simp [State.tapOn_leaveScan hon hs hne])

/-! ### The mailbox page -/

theorem State.tapPage_setTap (s : State) (ir : TapIr) : (s.setTap ir).tapPage = s.tapPage := rfl

theorem State.mailboxPage_setTap (s : State) (ir : TapIr) (m : Mailbox) (o : Nat) : (s.setTap ir).mailboxPage m o = s.mailboxPage m o := rfl

theorem mbxAccess_write {o : Nat} {v : W32} (hp : s.tapPage = true) (ho : o < 4096) : mbxAccess true o v s = s.tapWrite o v :=
  (if_neg (by simp [hp]; omega)).trans (if_pos rfl)

theorem mbxAccess_read {o : Nat} {v : W32} (hp : s.tapPage = true) (ho : o < 4096) :
    mbxAccess false o v s = s.shiftOut (s.mailboxPage .debug o) :=
  (if_neg (by simp [hp]; omega)).trans (if_neg Bool.false_ne_true)

/-! ### Words of memory -/

/-- The stored bytes of a line with a word written into them. -/
def withWord (d : LineData) (k : Nat) (v : W32) : LineData := (d &&& ~~~((0xFFFFFFFF#1024) <<< k)) ||| ((v.setWidth 1024) <<< k)

/-- The word that was written is the word that stands there. -/
theorem withWord_get (d : LineData) (k : Nat) (v : W32) (hk : k + 32 ≤ 1024) : (withWord d k v).toNat / 2 ^ k % 2 ^ 32 = v.toNat := by
  refine Nat.eq_of_testBit_eq fun i => ?_
  rw [Nat.testBit_mod_two_pow, Nat.testBit_div_two_pow, BitVec.testBit_toNat, BitVec.testBit_toNat]
  by_cases hi : i < 32
  · have hones : Nat.testBit (2 ^ 32 - 1) i = true := by rw [Nat.testBit_two_pow_sub_one, decide_eq_true hi]
    have hmask : (0xFFFFFFFF#1024).getLsbD i = true := by
      rw [BitVec.getLsbD_ofNat, decide_eq_true (show i < 1024 by omega)]
      exact hones
    have hin : i + k < 1024 := by omega
    simp [withWord, hi, hin, hmask]
  · simp [hi, BitVec.getLsbD_of_ge v i (by omega)]

/-- The bytes of a line may be noted as they are read; no other line changes. -/
theorem State.rawLine_frame (s : State) (l : Nat) : ∃ free line, (s.rawLine l).1 = { s with free := free, mem := { s.mem with line := line } } ∧
    ∀ k, k ≠ l → line.get Line.init k = s.lineAt k := by
  unfold State.rawLine
  extract_lets x
  split
  case h_1 => exact ⟨_, _, rfl, fun _ _ => rfl⟩
  case h_2 => exact ⟨_, _, rfl, fun _ _ => rfl⟩
  case h_3 => exact ⟨_, _, rfl, fun k hk => Tab.get_put_ne _ _ _ hk.symm⟩

theorem State.rawLine_of_raw {l : Nat} (h : (s.lineAt l).kept = .raw) : s.rawLine l = (s, (s.lineAt l).data) := by
  have hb : (s.lineAt l).bytes = some (s.lineAt l).data := by
    unfold Line.bytes
    rw [h]
  unfold State.rawLine
  simp only [hb]

/-- A word that MEM_ACCESS reaches: outside every range, the control region and the dump region (R361, R493). -/
structure State.OpenWord (s : State) (a : Nat) : Prop where
  aligned : a % 4 = 0
  local_ : (localTier a).isSome = true
  unowned : s.rangeSpan a = none
  control : inControl a = false
  dump : inDump a = false

theorem memAccess_of_blocked {a : Nat} {w : Bool} {v : W32} (h4 : a % 4 = 0) (hl : (localTier a).isSome = true)
    (h : (s.rangeSpan a).isSome = true ∨ inControl a = true ∨ inDump a = true) :
    memAccess a w v s = if w then s.blockAccess a else (s.blockAccess a).shiftOut 0 :=
  (if_neg (by simp [h4, Option.isSome_iff_ne_none.1 hl])).trans (if_pos h)

theorem State.blockAccess_frame (s : State) (a : Nat) : (s.blockAccess a).mem.line = s.mem.line ∧ (s.blockAccess a).out = s.out := by
  unfold State.blockAccess
  split
  case h_1 => exact ⟨rfl, rfl⟩
  case h_2 => exact ⟨rfl, rfl⟩

/-- A write puts its word into the line's stored bytes. -/
theorem memAccess_write {a : Nat} {v : W32} (h : s.OpenWord a) :
    memAccess a true v s =
      (let r := s.rawLine (a / 128)
       r.1.putLine (a / 128) { r.1.lineAt (a / 128) with kept := .raw, data := withWord r.2 (8 * (a % 128)) v }) :=
  (if_neg (by simp [h.aligned, Option.isSome_iff_ne_none.1 h.local_])).trans (if_neg (by simp [h.unowned, h.control, h.dump]))

theorem memAccess_read {a : Nat} {v : W32} (h : s.OpenWord a) :
    memAccess a false v s = (let r := s.rawLine (a / 128); r.1.shiftOut (r.2.toNat / 2 ^ (8 * (a % 128)) % 2 ^ 32)) :=
  (if_neg (by simp [h.aligned, Option.isSome_iff_ne_none.1 h.local_])).trans (if_neg (by simp [h.unowned, h.control, h.dump]))

theorem exec_memAccess {a : Nat} {w : Bool} {v : W32} (hm : s.memServes = true) (h : s.tapFree) :
    exec (.memAccess a w v) s = .next (memAccess a w v (s.setTap .memAccess)) :=
  congrArg Host.Outcome.next ((if_pos hm).trans (State.loadTap_of_free h ..))

/-- A write of MEM_ACCESS, and what a read then gives: the word stands in its line, no other line changes, and the TAP is where it was. -/
theorem memAccess_write_read {a : Nat} {v : W32} (h : s.OpenWord a) :
    ((((memAccess a true v s).lineAt (a / 128)).data.toNat / 2 ^ (8 * (a % 128))) % 2 ^ 32 = v.toNat) ∧
      (∀ l, l ≠ a / 128 → (memAccess a true v s).lineAt l = s.lineAt l) ∧
      (∃ free line, memAccess a true v s = { s with free := free, mem := { s.mem with line := line } }) ∧
      ∀ v', memAccess a false v' (memAccess a true v s) = (memAccess a true v s).shiftOut v.toNat := by
  obtain ⟨free, line, hraw, hline⟩ := s.rawLine_frame (a / 128)
  have h4 := h.aligned
  have hget := withWord_get (s.rawLine (a / 128)).2 (8 * (a % 128)) v (by omega)
  have hself : (memAccess a true v s).lineAt (a / 128) = { (s.rawLine (a / 128)).1.lineAt (a / 128) with
      kept := .raw, data := withWord (s.rawLine (a / 128)).2 (8 * (a % 128)) v } := by
    rw [memAccess_write h]
    exact (State.lineAt_putLine ..).trans (if_pos rfl)
  have hframe : ∃ free line, memAccess a true v s = { s with free := free, mem := { s.mem with line := line } } := by
    rw [memAccess_write h]
    dsimp only
    rw [hraw]
    exact ⟨_, _, rfl⟩
  have hopen : (memAccess a true v s).OpenWord a := by
    obtain ⟨free', line', heq⟩ := hframe
    rw [heq]
    exact ⟨h.aligned, h.local_, h.unowned, h.control, h.dump⟩
  refine ⟨by rw [hself]; exact hget, fun l hl => ?_, hframe, fun v' => ?_⟩
  · rw [memAccess_write h]
    refine (State.lineAt_putLine ..).trans ((if_neg (Ne.symm hl)).trans ?_)
    rw [hraw]
    exact hline l hl
  · rw [memAccess_read hopen, State.rawLine_of_raw (by rw [hself]), hself]
    dsimp only
    rw [hget]

/-- Settles O57: R474, R490, R491, R493 and R494 as written; that a TAP reset selects IDCODE is presumed from IEEE 1149.1, and that the clocks
stay stopped from one scan to the other is the model's choice (log 34). -/
theorem tapCommands : Obligations.TapCommands := by
  refine ⟨fun s hon hi hsc => ?_, fun s ir hon hscan hne => ?_, fun s a w v hm => congrArg Host.Outcome.next (if_neg (by simp [hm])),
    fun s a v hm hon hi hsc h4 hl h => ?_, fun s a v hm hon hi hsc h4 hl hr hc hd => ?_⟩
  case refine_1 =>
    have hfree : s.tapFree := ⟨hon, hi, hsc⟩
    have hload : ∀ (ir : TapIr) (f : State → State), (.next (s.loadTap ir f) : Host.Outcome State Fault Refusal) = .next (f (s.setTap ir)) :=
      fun ir f => congrArg Host.Outcome.next (State.loadTap_of_free hfree ir f)
    refine ⟨hload _ _, hload _ _, hload _ _, hload _ _, fun hs => ⟨?_, ?_, ?_⟩, fun hs => ⟨?_, ?_, ?_⟩, fun o v hp ho => ⟨?_, ?_⟩⟩
    · exact (congrArg Host.Outcome.next (if_pos hs)).trans (hload _ _)
    · exact ⟨_, (congrArg Host.Outcome.next (if_pos hs)).trans (hload _ _), rfl, by simp [State.alive, State.stopClocks, State.shiftOpen, State.shiftOut], rfl, hon⟩
    · exact ⟨_, (congrArg Host.Outcome.next (if_pos hs)).trans (hload _ _), rfl, by simp [State.alive, State.stopClocks, State.shiftOpen, State.shiftOut], rfl, hon⟩
    · exact congrArg Host.Outcome.next (if_neg (by simp [hs]))
    · exact congrArg Host.Outcome.next (if_neg (by simp [hs]))
    · exact congrArg Host.Outcome.next (if_neg (by simp [hs]))
    · exact (hload _ _).trans (congrArg Host.Outcome.next (mbxAccess_write hp ho))
    · exact (hload _ _).trans (congrArg Host.Outcome.next (mbxAccess_read hp ho))
  case refine_2 =>
    have hs : s.board.tap.stops = true := by
      rcases hscan with h | h <;> rw [h] <;> rfl
    have hleave : ∀ ir, ir ≠ s.board.tap → ∀ f, (.next (s.loadTap ir f) : Host.Outcome State Fault Refusal) = .next (s.leaveScan ir) :=
      fun ir hne f => congrArg Host.Outcome.next (State.loadTap_of_scan hon hs hne f)
    have hby : TapIr.bypass ≠ s.board.tap := fun h => by rw [← h] at hs; cases hs
    have hid : TapIr.idcode ≠ s.board.tap := fun h => by rw [← h] at hs; cases hs
    have heq := State.leaveScan_of_scan hon hs hne
    exact ⟨_, rfl, by rw [heq], by rw [heq], State.tapOn_leaveScan hon hs hne, hleave _ hby _, hleave _ hid _, hleave _ hid _⟩
  case refine_3 =>
    obtain ⟨hline, hout⟩ := (s.setTap .memAccess).blockAccess_frame a
    have hrun := fun (w : Bool) => memAccess_of_blocked (s := s.setTap .memAccess) (w := w) (v := v) h4 hl h
    refine ⟨_, _, (exec_memAccess hm ⟨hon, hi, hsc⟩).trans (congrArg Host.Outcome.next (hrun true)),
      (exec_memAccess hm ⟨hon, hi, hsc⟩).trans (congrArg Host.Outcome.next (hrun false)), hline, hline, ?_⟩
    exact congrArg (fun o : Out => o.tdo ++ [0]) hout
  case refine_4 =>
    obtain ⟨hword, hother, ⟨free, line, heq⟩, hread⟩ := memAccess_write_read (s := s.setTap .memAccess) (v := v) ⟨h4, hl, hr, hc, hd⟩
    refine ⟨_, exec_memAccess hm ⟨hon, hi, hsc⟩, hword, hother, fun v' => ?_⟩
    have hserves : (memAccess a true v (s.setTap .memAccess)).memServes = true := by
      rw [heq]
      exact hm
    have hfree : (memAccess a true v (s.setTap .memAccess)).tapFree := by
      rw [heq]
      exact ⟨hon, by simp [State.setTap], by simp [State.setTap]⟩
    have hsame : (memAccess a true v (s.setTap .memAccess)).setTap .memAccess = memAccess a true v (s.setTap .memAccess) := by
      rw [heq]
      rfl
    refine ⟨_, (exec_memAccess hserves hfree).trans (congrArg Host.Outcome.next ((congrArg _ hsame).trans (hread v'))), rfl, rfl⟩

end Sys2Proof.Machine
